-- ==== Sys2Proof/Word.lean ====
section
/-! DEFINITION. Word types of the VRK8640 model and the sparse-table type its state uses.
Register contents, addresses on the bus and encoded fields are bit vectors; counts, indexes, stamps and
instants are natural numbers. -/
namespace Sys2Proof

/-- A byte of a memory-mapped structure (R4: little-endian). -/
abbrev Byte := BitVec 8
/-- A 16-bit word. -/
abbrev W16 := BitVec 16
/-- A 32-bit register or one word of a 64-bit register (R411). -/
abbrev W32 := BitVec 32
/-- A 64-bit register (R10). -/
abbrev W64 := BitVec 64

/-- A stamp (R5): 72 bits, device time in units of 1/256 ns. -/
abbrev Stamp := Nat

/-- A sparse table: keys strictly rising; a key that is not listed holds the table's default. -/
abbrev Tbl (α : Type) := List (Nat × α)

end Sys2Proof
end

