-- ==== Sys2Proof/Types/Can.lean ====
section
/-! DEFINITION. CAN frames and the state of the CAN FD controllers (chapter 14). -/
namespace Sys2Proof.Machine

/-- A frame as Table 14-2 holds it: IDW, FLAGS (RTR, FDF, BRS, ESI), DLC and data bytes. -/
structure CanFrame where
  idw : Nat
  flags : Nat := 0
  dlc : Nat := 0
  data : List Byte := []
deriving DecidableEq, Repr

/-- The tenant that a transmit request came from, its generation, and whether CAN_RESULT is due to its mailbox. -/
structure CanOwner where
  tenant : Nat
  gen : Nat
  mbx : Bool
deriving DecidableEq, Repr

/-- A transmit buffer beside its bytes: FRC of the request while it is pending, a cancel that is held, its requester. -/
structure CanBuf where
  pend : Option Nat := none
  cancel : Bool := false
  owner : Option CanOwner := none
deriving DecidableEq, Repr

/-- A controller beside its registers and memories. -/
structure Can where
  /-- In INIT; INIT was set during a frame and takes effect at its end (R308). -/
  init : Bool := true
  initWaits : Bool := false
  busOff : Bool := false
  /-- Recovery from bus-off has begun (R319). -/
  recovers : Bool := false
  tec : Nat := 0
  rec_ : Nat := 0
  lec : Nat := 0
  /-- Waits for 11 recessive bits (R309); dominant for 2 ms (R319). -/
  waits11 : Bool := false
  stuck : Bool := false
  bufs : Tbl CanBuf := []
  /-- The next entry carries LOSS (R316). -/
  loss : Bool := false
  /-- FRC at which each watch was last met or enabled (R318). -/
  watch : Tbl Nat := []
deriving DecidableEq, Repr

/-- The own frame that met an error: the FRC at its start of frame, and whether the error is one of a stuff bit sent recessive
in arbitration and read dominant, which by ISO 11898-1 leaves TEC as it is. -/
structure CanOwn where
  sof : Nat
  arb : Bool := false
deriving DecidableEq, Repr

end Sys2Proof.Machine
end

