-- ==== Sys2Proof/Types/Core.lean ====
section
/-! DEFINITION. Requesters of the management space, credit queues and the log of what leaves the module
(chapters 01 and 19). -/
namespace Sys2Proof.Machine

/-- Who makes a register access (R411, R412). A virtual function is named by its link and number, a physical
function by its link. -/
inductive Requester where
  | supervisor
  | jtag
  | vf (link fn : Nat)
  | pf (link : Nat)
  | walnut
deriving DecidableEq, Repr

/-- What one requester holds for 64-bit registers (R10): the latched high words of its low-word reads, the low
words it has written and not completed, each by register address, and the value its last read returned. -/
structure BusPort where
  latch : List (Nat × W32) := []
  held : List (Nat × W32) := []
  data : W32 := 0
deriving DecidableEq, Repr

/-- The credit accounts of Table 01-4. A key is boundary × 4096 + owner. AVAIL is share less outstanding. -/
structure Credits where
  /-- Share of each owner (QCR_AVAIL.BUDGET). -/
  share : Tbl Nat := []
  /-- Credits outstanding. -/
  used : Tbl Nat := []
  /-- Drop counters (QCR_DROPS). -/
  drops : Tbl Nat := []
  /-- Credits of each boundary that no owner has (FREE, R57). -/
  free : Tbl Nat := []
  /-- A drop at boundary 1 or 2 marks the port's next forwarded frame (R18). Key boundary × 4096 + port. -/
  lossMark : Tbl Bool := []
deriving DecidableEq, Repr

/-- A start edge that Thyme has given an internal target and that the target has not taken (Table 03-4): its device
time and FRC count. -/
structure Edge where
  stamp : Stamp
  frc : Nat
deriving DecidableEq, Repr

/-- What an entry does at its instant (TTU_SCHED_CMD.ACTION); `fall` is the end of a pulse whose rise executed. -/
inductive TtuAct where
  | set | clear | toggle
  | pulse (width8ns : Nat)
  | fire
  | fall
deriving DecidableEq, Repr

/-- A pending entry of a Thyme channel (R81). -/
structure TtuEntry where
  instant : Stamp
  act : TtuAct
  /-- Tenant and generation; none for the supervisor (R84). -/
  owner : Option (Nat × Nat) := none
  late : Bool := false
  /-- The fall of a periodic instant's pulse; it takes none of the 8 places (R81, R85). -/
  periodic : Bool := false
deriving DecidableEq, Repr

/-- The boundaries of Table 01-4. -/
def Bnd.rx : Nat := 0
def Bnd.sv : Nat := 1
def Bnd.goose : Nat := 2
def Bnd.host : Nat := 3
def Bnd.filter : Nat := 4
def Bnd.output : Nat := 5
def Bnd.elaPoint : Nat := 6
def Bnd.elaPub : Nat := 7
def Bnd.elaTimed : Nat := 8
def Bnd.schPoint : Nat := 9
def Bnd.schPub : Nat := 10
def Bnd.gooseDeliver : Nat := 11
def Bnd.can : Nat := 12
def Bnd.capture : Nat := 13
def Bnd.hostQueue : Nat := 14
def Bnd.partner : Nat := 15

end Sys2Proof.Machine
end

