-- ==== Sys2Proof/Types/Image.lean ====
section
/-! DEFINITION. Structure images, program objects, boot banks and amendment state (chapter 02).

An image is its bytes. What the verification of a signature block yields (X.509 and ECDSA are named standards,
not described by the spec) stands beside the bytes as the object's `Signed` part. -/
namespace Sys2Proof.Machine

/-- A SHA-384 value as a number of 384 bits. -/
abbrev Digest := Nat

/-- What checking a signature block yields (R33). -/
structure Signed where
  /-- The certificate chain is well formed and ends at a root of this digest. -/
  root : Option Digest := none
  /-- SHA-384 of the leaf key. -/
  leaf : Digest := 0
  /-- The ECDSA P-384 signature verifies over the signed message. -/
  ok : Bool := false
  /-- The message whose SHA-384 the signature signs, where the object is given by its bytes. -/
  over_ : List Byte := []
  /-- SHA-384 of the signed message, where the object is given by its fields. -/
  msg : Digest := 0
deriving DecidableEq, Repr

/-- A byte string given by its bytes that are not zero, at rising offsets. -/
abbrev Bytes := List (Nat × Byte)

/-- A structure image or an amendment record, and its signature. -/
structure ImageObj where
  bytes : Bytes := []
  sig : Signed := {}
deriving DecidableEq, Repr

/-- What the boot and the loader left (R38 to R47). -/
structure Boot where
  /-- An image is applied. -/
  loaded : Bool := false
  bank : Nat := 0
  /-- Bank whose firmware runs and whose image is to be loaded, and whether it is the second tried (R41). -/
  trying : Nat := 0
  second : Bool := false
  /-- SHA-384 of the running supervisor firmware. -/
  firmware : Digest := 0
  trial : Bool := false
  fallback : Bool := false
  recovery : Bool := false
  /-- Failure code of each bank's last attempt (SYS_BOOTSTAT), and SYS_IMGSTAT.ERR. -/
  failA : Nat := 0
  failB : Nat := 0
  err : Nat := 0
  sealed : Bool := false
  /-- FRC at which HOLD_SEAL ends. -/
  holdSeal : Option Nat := none
  rwsIgn : Nat := 0
  jrnlTrunc : Bool := false
  imgVer : Nat := 0
  imageDigest : Digest := 0
  runDigest : Digest := 0
  /-- Amendments committed since the image was applied. -/
  amdCount : Nat := 0
  /-- SYS_AMDADDR and SYS_AMDACT of each staging slot. -/
  amdAddr : List (Nat × Nat) := []
  amdAct : List (Nat × Nat) := []
deriving DecidableEq, Repr

end Sys2Proof.Machine
end

