-- ==== Sys2Proof/Types/Key.lean ====
section
/-! DEFINITION. State of the Hazel key vault, the tamper monitor and attestation (chapter 16). -/
namespace Sys2Proof.Machine

/-- KVS_STAT.VAULT. -/
inductive VaultSt where
  | none | loading | ready
deriving DecidableEq, Repr

/-- KVS_SLOTSTAT.STATE (Table 16-4). -/
inductive KeySt where
  | empty | active | orphan | expired
deriving DecidableEq, Repr

/-- Attributes of a slot (R352): KIND 1 DERIVE, 2 HMAC, 3 AES, 4 ECDSA; USE bits; OWNER. -/
structure KeyAttr where
  kind : Nat
  use : Nat
  owner : Nat
deriving DecidableEq, Repr

/-- A key slot (R351). Key material is a number; no command reads it out. -/
structure KeySlot where
  st : KeySt := .empty
  mat : Nat := 0
  parent : Option Nat := .none
  notAfter : Nat := 0
  /-- FRC of the grace end, and the remaining grace in s that MRAM holds (R358). -/
  graceEnd : Nat := 0
  graceKept : Nat := 0
deriving DecidableEq, Repr

/-- The staging of a slot (R354). -/
structure KeyStaging where
  mat : Nat
  parent : Option Nat
  notAfter : Nat
  verified : Bool := false
deriving DecidableEq, Repr

/-- A key blob as read from KVS_ADDR (Table 16-2): its bytes, and what unwrapping yields. AES-GCM is a named standard: the
tag verifies under the wrap key `under`, when it is intact, and the unwrapped material is `mat`. -/
structure KeyBlob where
  bytes : Bytes := []
  under : Nat
  intact : Bool := true
  mat : Nat
deriving DecidableEq, Repr

/-- The Hazel command that runs: CMD, slot and the result it will report. -/
structure KeyRun where
  cmd : Nat
  slot : Nat
  result : Nat
deriving DecidableEq, Repr

/-- The vault and the tamper monitor. -/
structure Vault where
  vault : VaultSt := .none
  /-- Attributes of the KEYS section in force and its amendments. -/
  attrs : Tbl (Option KeyAttr) := []
  slots : Tbl KeySlot := []
  stg : Tbl (Option KeyStaging) := []
  run : Option KeyRun := .none
  /-- Slot 2 stands in the volatile tier. -/
  identity : Bool := false
  /-- FRC of the last comparison of R359. -/
  checkAt : Nat := 0
  /-- Tamper sources asserted now (TMP_STAT.ACTIVE is that an enabled one is). -/
  asserted : Nat := 0
  /-- TMP_STAT.TAMPERED. -/
  tampered : Bool := false
  /-- A tamper in STANDBY whose record and count the next power-on makes (R361). -/
  unreported : Bool := false
deriving DecidableEq, Repr

/-- A lifecycle token (Table 16-7): bytes 0x00 to 0x6F and its signature block. -/
structure LcToken where
  bytes : Bytes := []
  sig : Signed
deriving DecidableEq, Repr

/-- An attestation request (R365): nonce, address, and the link mailbox it came from. -/
structure AttReq where
  nonce : List Byte
  addr : Nat
  link : Option Nat := .none
deriving DecidableEq, Repr

/-- A tenant entry of a statement: tenant, class C, service state, TEN_SEQ and program digests. -/
structure StmtTenant where
  tenant : Nat
  classC : Bool
  svc : Nat
  seq : Nat
  elem : Digest
  sch : Digest
deriving DecidableEq, Repr

/-- The certificates of a statement's chain (R366). -/
inductive Certificate where
  | attestation | identity
deriving DecidableEq, Repr

/-- An attestation statement (Table 16-9) by its fields; its certificates and signature are those of named standards. -/
structure Statement where
  akAbsent : Bool
  tampered : Bool
  vaultNone : Bool
  trial : Bool
  fallback : Bool
  jrnlTrunc : Bool
  lifecycle : Nat
  sync : Nat
  bank : Nat
  nonce : List Byte
  time : Stamp
  amdCount : Nat
  imgVer : Nat
  firmware : Digest
  image : Digest
  run : Digest
  device : Digest
  tenants : List StmtTenant
  /-- Slot that signed: 3, or 2 with AK_ABSENT. -/
  signer : Nat
  /-- The chain and where it stands; SIG_OFS, a multiple of 64, at which the 96 bytes of the signature stand. -/
  chain : List Certificate
  chainOfs : Nat
  sigOfs : Nat
deriving DecidableEq, Repr

/-- Lifecycle and attestation beside their registers. -/
structure Attest where
  /-- A token that waits for the Hazel command to end (Table 16-10). -/
  applyWaits : Option LcToken := .none
  /-- The erasure of the transition in progress: from and to; ATT_LC.ERASE_PEND. -/
  erase : Option (Nat × Nat) := .none
  /-- OWNER_ROOT as fused. -/
  ownerRoot : Option Digest := .none
  /-- The identity certificate is present. -/
  idCert : Bool := true
  queue : List AttReq := []
  /-- ATT_STAT.LEN and RESULT. -/
  len : Nat := 0
  result : Nat := 0
deriving DecidableEq, Repr

end Sys2Proof.Machine
end

