-- ==== Sys2Proof/Types/Sv.lean ====
section
/-! DEFINITION. Sampled-value frames, the stream table and the sample store (chapter 06). -/
namespace Sys2Proof.Machine

/-- An IEC 62351-6 authentication tag as its check sees it: the algorithm it names, the key material it was computed
with, and whether frame and tag are as they were sent (R141). -/
structure MacTag where
  /-- The tag names HMAC-SHA-256 truncated to 128 bits. -/
  hmac128 : Bool := true
  key : Nat := 0
  intact : Bool := true
deriving DecidableEq, Repr

/-- One channel of an ASDU: value and 32-bit quality. -/
structure SvChan where
  val : Int
  q : Nat := 0
deriving DecidableEq, Repr

/-- One ASDU. -/
structure SvAsdu where
  svid : List Byte
  smpCnt : Nat
  confRev : Nat
  smpSynch : Nat
  chans : List SvChan
deriving DecidableEq, Repr

/-- An SV application frame. `parses` is false when its header cannot be parsed (R140). -/
structure SvPdu where
  appid : Nat
  parses : Bool := true
  simulation : Bool := false
  noAsdu : Nat
  tag : Option MacTag := none
  asdus : List SvAsdu
deriving DecidableEq, Repr

/-- A stream entry (Table 06-2). -/
structure StreamCfg where
  appid : Nat
  rate : Nat
  asdus : Nat
  legacy : Bool
  nch : Nat
  chtype : Nat
  auth : Nat
  syncAcc : Nat
  simAcc : Bool
  confRev : Nat
  keySlot : Nat
  tmo : Nat
  gapMax : Nat
  depth : Nat
  iwin : Nat
  uwin : Nat
  svid : List Byte
  /-- Consuming tenants with MAND (R138). -/
  consumers : List (Nat × Bool) := []
deriving DecidableEq, Repr

/-- A sample record (Table 06-4): values and channel qualities of the NCH channels. -/
structure SampleRec where
  vals : List Int
  cq : List Nat
  stamp : Stamp
  stampSrc : Nat
  asdu : Nat := 0
  lanB : Bool := false
  syncClass : Nat := 0
  smp : Nat
  flags : Nat
deriving DecidableEq, Repr

/-- A sample descriptor offered at boundary 4 (R148). -/
structure SampleDesc where
  pos : Nat
  smp : Nat
  flags : Nat
deriving DecidableEq, Repr

/-- SVX_SSTATE.STATE (Table 06-6). -/
inductive StreamSt where
  | disabled | acquire | valid | lost
deriving DecidableEq, Repr

/-- The previous received sample (R147). -/
structure PrevSample where
  smp : Nat
  synch : Nat
  unsync : Bool
deriving DecidableEq, Repr

/-- The state of one stream. -/
structure Stream where
  /-- SVX_SSTATE.STATE. -/
  st : StreamSt := .disabled
  /-- SVX_SSTATE.GOODRUN. -/
  goodRun : Nat := 0
  prev : Option PrevSample := none
  /-- Records written (SVX_SWIDX). -/
  widx : Nat := 0
  /-- The raw ring (R146), by ring position. -/
  ring : Tbl (Option SampleRec) := []
  /-- Stamp of the last record written (R146). -/
  newest : Stamp := 0
  /-- FRC at which the stream timer expires (R151). -/
  expiry : Option Nat := none
  /-- SVX_SLASTTS. -/
  lastNs : Nat := 0
  /-- Counters of Table 06-11. -/
  cnt : Tbl Nat := []
deriving DecidableEq, Repr

/-- A discovery entry (R152). -/
structure Discovery where
  appid : Nat
  svid : List Byte
  sa : Nat
  port : Nat
  stamp : Stamp
  noAsdu : Nat
  smpSynch : Nat
  confRev : Nat
  frames : Nat := 1
deriving DecidableEq, Repr

end Sys2Proof.Machine
end

