-- ==== Sys2Proof/Types/Goose.lean ====
section
/-! DEFINITION. GOOSE frames, publications and subscriptions (chapter 09). -/
namespace Sys2Proof.Machine

/-- The member types of MTYPE and of Table 08-7: boolean, integer, floating-point, unsigned. -/
inductive MemType where
  | b | s | f | u
deriving DecidableEq, Repr

/-- One entry of allData: a value of a member type, or a quality bit-string whose bit n is bit n of the number. -/
inductive GooseMember where
  | value (type : MemType) (bits : W32)
  | quality (bits : Nat)
deriving DecidableEq, Repr

/-- A GOOSE application frame (Table 09-4). -/
structure GoosePdu where
  appid : Nat
  gocbRef : List Byte
  datSet : List Byte := []
  goId : List Byte := []
  simulation : Bool := false
  /-- timeAllowedToLive in ms. -/
  tal : Nat
  /-- t as UtcTime: seconds, 24-bit fraction, time quality (R210). -/
  tSec : Nat := 0
  tFrac : Nat := 0
  tQual : Nat := 0
  stNum : Nat
  sqNum : Nat
  confRev : Nat
  ndsCom : Bool := false
  entries : Nat
  allData : List GooseMember
  tag : Option MacTag := none
deriving DecidableEq, Repr

/-- A publication entry (Table 09-2). -/
structure PubCfg where
  tenant : Nat
  pubno : Nat
  scheme : Bool
  appid : Nat
  st : Bool
  nmem : Nat
  da : Nat
  sa : Nat
  pcp : Nat
  vid : Nat
  valueOnly : Bool
  sim : Bool
  confRev : Nat
  mint : Nat
  talx : Nat
  auth : Nat
  maxt : Nat
  keySlot : Nat
  mtypes : List MemType
  gocbRef : List Byte
  datSet : List Byte
  goId : List Byte
deriving DecidableEq, Repr

/-- A publication request (R205): values as 32-bit words with their qualities, and a stamp. -/
structure PubReq where
  tenant : Nat
  gen : Nat
  pubno : Nat
  vals : List W32
  quals : List Nat
  stamp : Stamp
  /-- Stamp source (R71). -/
  src : Nat := 1
  /-- From boundary 7 (element), 10 (scheme), or none for a fail state, which takes no credit (R215). -/
  bnd : Option Nat := none
  /-- FRC count and group cycle of its arrival. -/
  at_ : Nat := 0
  cycle : Nat := 0
deriving DecidableEq, Repr

/-- A state of a publication: values, qualities, stNum and the t of its frames (R210). -/
structure PubState where
  vals : List W32
  quals : List Nat
  stNum : Nat := 0
  tSec : Nat := 0
  tFrac : Nat := 0
  tQual : Nat := 0
  /-- Made by a fail state (R215). -/
  fail : Bool := false
  /-- Group cycle of the scheme request that made it (R222). -/
  scheme : Option Nat := none
  /-- Its frames leave in the own half of the sequence (R240). -/
  own : Bool := true
deriving DecidableEq, Repr

/-- A publication entry's state (R205 to R215). -/
structure Pub where
  cfg : Option PubCfg := none
  /-- State released last, held for its spacing, and last handed to the builder. -/
  cur : Option PubState := none
  pending : Option PubState := none
  sent : Option PubState := none
  /-- stNum of the last state made; sqNum of the last frame due. -/
  stNum : Nat := 0
  sq : Nat := 0
  /-- stNum and sqNum of the last frame sent (GPB_PSTNUM, GPB_PSQNUM). -/
  sentSt : Nat := 0
  sentSq : Nat := 0
  /-- Cycle of the last state frame; cycle of the last frame. -/
  stateCycle : Option Nat := none
  frameCycle : Option Nat := none
  /-- Cycle at which the next retransmission falls due and its interval (R208). -/
  due : Option Nat := none
  interval : Nat := 0
  /-- Stopped by a tenant reset (R215). -/
  silent : Bool := false
  cnt : Tbl Nat := []
deriving DecidableEq, Repr

/-- A member-map entry. -/
structure SubMap where
  handle : Nat
  member : Nat
  qmember : Option Nat
  type : Nat
deriving DecidableEq, Repr

/-- A subscription entry (Table 09-3). -/
structure SubCfg where
  tenant : Nat
  appid : Nat
  sa : Nat
  auth : Nat
  simAcc : Bool
  event : Bool
  confRev : Nat
  keySlot : Nat
  gocbRef : List Byte
  nds : Nat
  maps : List SubMap
  grace : Nat
  tmoMax : Nat
deriving DecidableEq, Repr

/-- GSB_SSTATE.STATE. -/
inductive SubSt where
  | none | valid | stale
deriving DecidableEq, Repr

/-- A subscription's state. -/
structure Sub where
  cfg : Option SubCfg := none
  st : SubSt := .none
  stNum : Nat := 0
  /-- GSB_SSTNUM and GSB_SSQNUM: numbers of the last frame that passed the checks. -/
  lastSt : Nat := 0
  sqNum : Nat := 0
  /-- allData of the current state. -/
  data : List GooseMember := []
  redeliver : Bool := false
  expiry : Option Nat := none
  /-- GSB_SLASTTS. -/
  lastNs : Nat := 0
  cnt : Tbl Nat := []
deriving DecidableEq, Repr

end Sys2Proof.Machine
end

