-- ==== Sys2Proof/Types/Flt.lean ====
section
/-! DEFINITION. Topologies and state of the filter and decimation chain (chapter 07). -/
namespace Sys2Proof.Machine

/-- Stage types (Table 07-1). -/
inductive StageType where
  | fir | biquad | dcb | decim
deriving DecidableEq, Repr

/-- A stage descriptor (Table 07-3) with its coefficients read from the section. -/
structure StageCfg where
  ty : StageType
  /-- None for raw records, else the stage it takes. -/
  src : Option Nat
  m : Nat := 1
  shift : Nat := 0
  phase : Nat := 0
  /-- N of a FIR, S of a BIQUAD. -/
  n : Nat := 1
  k : Nat := 4
  mask : Nat := 0
  frzHold : Nat := 1
  frzLvl : Nat := 0
  coefI : List Int := []
  coefU : List Int := []
  gd : Nat := 0
  memLen : Nat := 1
deriving DecidableEq, Repr

/-- A topology entry (Table 07-2). -/
structure TopoCfg where
  engine : Nat
  ret : Nat
  share : Nat
  offset : Nat
  hold : Bool
  taps : List Nat
  stages : List StageCfg
  /-- The coefficient words it uses, as spans of indexes. -/
  spans : List (Nat × Nat) := []
deriving DecidableEq, Repr

/-- One second-order section of one channel: x1, x2, y1, y2. -/
structure Biquad where
  x1 : Int := 0
  x2 : Int := 0
  y1 : Int := 0
  y2 : Int := 0
deriving DecidableEq, Repr

/-- The state of a stage. -/
structure StageSt where
  /-- FIR: the last N − 1 inputs, newest first, each a value per channel. -/
  line : List (List Int) := []
  /-- BIQUAD: section k of channel c at 8 k + c. -/
  bq : Tbl Biquad := []
  /-- DCB: the estimates D, the mark that the next input sets them, the automatic freeze and its quiet run. -/
  d : List Int := []
  fresh : Bool := true
  auto_ : Bool := false
  quiet : Nat := 0
  /-- The stage was frozen at its last input. -/
  froze : Bool := false
deriving DecidableEq, Repr

/-- What an input contributes to the flags of the outputs whose window holds it (R165). -/
structure InMeta where
  smp : Nat
  stamp : Stamp
  stampSrc : Nat
  /-- Channel qualities as in CQ (Table 06-4). -/
  cq : List Nat
  subst : Bool := false
  credit : Bool := false
  /-- SFLAGS [2:0] and SYNC_CHG. -/
  low : Nat := 0
  syncChg : Bool := false
deriving DecidableEq, Repr

/-- A filter output record (Table 07-4). -/
structure OutRec where
  vals : List Int
  oq : List Nat
  stamp : Stamp
  stampSrc : Nat
  smp : Nat
  flags : Nat
deriving DecidableEq, Repr

/-- A ring position: the record, the FRC at which its retention ends, and whether its credit is still out (R22). -/
structure OutEntry where
  rec_ : OutRec
  expires : Nat
  credit : Bool := true
  /-- Its write index, and the FRC at which its write completed (R185). -/
  idx : Nat := 0
  wrote : Nat := 0
deriving DecidableEq, Repr

/-- A commanded freeze or release that waits (R162): release or freeze, and the smpCnt it waits for. -/
structure FrzCmd where
  release : Bool
  at_ : Option Nat
deriving DecidableEq, Repr

/-- The chain of one stream. -/
structure FltChain where
  /-- smpCnt of the last input taken. -/
  last : Option Nat := none
  /-- Stamp of the last input that was not inserted, and the inputs inserted since (R163, R146). -/
  lastStamp : Stamp := 0
  inserted : Nat := 0
  /-- Values of the last input that was not substituted, since the restart. -/
  held : Option (List Int) := none
  stages : List StageSt := []
  cmdFrz : Bool := false
  pend : Option FrzCmd := none
  /-- Inputs taken since the restart. -/
  taken : Nat := 0
  /-- Taps that have written an output since the restart. -/
  begun : List Nat := []
  /-- The inputs of the longest window, newest first. -/
  hist : List InMeta := []
  /-- Output rings: position i of tap t at 64 t + i. -/
  outs : Tbl (Option OutEntry) := []
  /-- Write index of each tap. -/
  widx : Tbl Nat := []
  /-- Counters of Table 07-10. -/
  cnt : Tbl Nat := []
deriving DecidableEq, Repr

end Sys2Proof.Machine
end

