-- ==== Sys2Proof/Types/Ela.lean ====
section
/-! DEFINITION. Signal points, element programs and the state of the element array (chapter 08). Parameters that
Composer computes from others stand as it rounded them (R438). -/
namespace Sys2Proof.Machine

/-- A point record (Table 08-7): TYPE 0 unused, 1 B, 2 S, 3 F, 4 U. -/
structure Point where
  value : Nat := 0
  quality : Nat := 1
  type : Nat := 0
  info : Nat := 0
  time : Nat := 0
deriving DecidableEq, Repr

/-- A point write on its way at boundary 6 or 9 (R199). -/
structure PointReq where
  tenant : Nat
  gen : Nat
  bnd : Nat
  handle : Nat
  point : Point
  /-- FRC of its arrival, and its place among the writes of one cycle (R199, R288): 0 element array, 1 scheme cores, 2 host,
  3 supervisor, 4 loops. -/
  at_ : Nat := 0
  cls : Nat := 0
deriving DecidableEq, Repr

/-- A node signal (R182); F and C parts as binary32 words. -/
inductive Sig where
  | s (v : Int)
  | f (w : Nat)
  | c (re im : Nat)
  | b (v : Bool)
  | u (v : Nat)
  | t (v : Stamp)
deriving DecidableEq, Repr

/-- Sample status (R439). -/
inductive Sample where
  | fresh | held | missed
deriving DecidableEq, Repr

/-- A node output: signal, quality (0 good, 1 invalid, 3 questionable) and sample status. -/
structure NodeOut where
  sig : Sig
  q : Nat := 0
  st : Sample := .fresh
deriving DecidableEq, Repr

/-- The 44 primitives with their parameters (Table 08-5). -/
inductive Prim where
  | svin (bind first k : Nat)
  | ptin (handle : Nat) (isF : Bool)
  | const (isF : Bool) (value : Nat)
  | dft (n h g : Nat)
  | hdft (n h g : Nat)
  | lin (ka kb kc : Nat)
  | mag
  | ang
  | phrot (re im : Nat)
  | seq3 (acb : Bool)
  | delta
  | resid
  /-- K0, ZSCALE, IMIN -/
  | zloop (k0re k0im zscale imin : Nat)
  | zpp (zscale imin : Nat)
  /-- centre and radius of R190 -/
  | mho (cre cim radius : Nat)
  /-- RR, XR, XB, tan(LANG), tan(TILT) -/
  | quad (rr xr xb tanLang tanTilt : Nat)
  /-- e^(j RCA), VMIN, IMIN -/
  | dirn (rre rim vmin imin : Nat)
  /-- PICK and DROP × PICK -/
  | ovr (pick drop : Nat)
  | unr (pick drop : Nat)
  /-- LO, HI, LO − HYST, HI + HYST -/
  | band (lo hi loH hiH : Nat)
  | cmps (pick : Int) (count : Nat)
  /-- CURVE, IS, the constant C, TR = 0, and (1 / Fg) / TR -/
  | idmt (curve is_ c : Nat) (trZero : Bool) (fall : Nat)
  /-- WIN, PICK, DIR, R = Fg / WIN -/
  | rate (win pick dir r : Nat)
  /-- TAP per end, IS1, K1, IS2, K2, K1 × IS2 -/
  | diff (taps : List Nat) (is1 k1 is2 k2 k1is2 : Nat)
  | hres (ratio : Nat)
  | ref (tapn is_ kr : Nat)
  | tpick (pickup dropout : Nat)
  | tpulse (width : Nat)
  | tint (pickup decr : Nat)
  | cnt (limit : Nat)
  | tstamp
  | and8 (inv : Nat)
  | or8 (inv : Nat)
  | lut4 (table : Nat)
  | srff (setWins : Bool)
  | edge (dir : Nat)
  | qsel
  /-- AVG and 2π × AVG -/
  | freq (avg div : Nat)
  | dfdt (win pick dir r : Nat)
  /-- DV, DF, DPHI and 2π × 16 -/
  | sync (dv df dphi div : Nat)
  | ptout (handle : Nat) (every : Bool) (isF : Bool) (outno : Nat)
  | pub (pubno outno : Nat)
  /-- CH, ACTION, BASE, OFS, WIDTH, OUTNO -/
  | tout (ch action : Nat) (winBase : Bool) (ofs : Nat) (width outno : Nat)
  | capt (unit : Nat)
deriving DecidableEq, Repr

/-- A node: its primitive and its inputs, each a node number and an output of it. -/
structure Node where
  prim : Prim
  ins : List (Nat × Nat)
deriving DecidableEq, Repr

/-- An input binding: stream, tap, ALIGN. -/
structure Binding where
  stream : Nat
  tap : Nat
  byStamp : Bool := false
deriving DecidableEq, Repr

/-- An element program object as loaded: its digest and what its header records. -/
structure ElaProg where
  digest : Nat := 0
  bindings : List Binding
  nodes : List Node
  /-- Point-input list. -/
  ptins : List Nat := []
  staticCost : Nat := 0
  memory : Nat := 0
  /-- Static per-cycle maxima at boundaries 6, 7, 8 and 15. -/
  max6 : Nat := 0
  max7 : Nat := 0
  max8 : Nat := 0
  max15 : Nat := 0
deriving DecidableEq, Repr

/-- The state bytes of a node: one shape for every primitive; each uses the fields its rule needs. -/
structure NodeSt where
  /-- Set or clear state, last input or trigger. -/
  b : Bool := false
  /-- A first input has been taken. -/
  init : Bool := false
  n : Nat := 0
  m : Nat := 0
  /-- Words with qualities, newest first. -/
  hist : List (Nat × Nat) := []
  /-- Samples, newest first, and exact sums (R189). -/
  xs : List Int := []
  re : Int := 0
  im : Int := 0
  time : Option Stamp := none
  /-- Outputs or values of the last execution or request. -/
  last : List NodeOut := []
deriving DecidableEq, Repr

/-- What a binding holds (R185): its current record, whether its last quality is invalid, its status in this window. -/
structure BindSt where
  rec_ : Option OutRec := none
  bad : Bool := false
  st : Sample := .missed
deriving DecidableEq, Repr

/-- A request in the slot's output buffer (R191, R192). -/
inductive ElaReq where
  | point (node handle : Nat) (isF : Bool) (value q : Nat)
  | publish (node pubno : Nat) (vals : List NodeOut)
  | timed (ch action : Nat) (instant : Stamp) (width : Nat)
  | capture (unit : Nat)
deriving DecidableEq, Repr

/-- An open slot window: what was fixed at its opening, and whether the program has ended. -/
structure Window where
  openFrc : Nat
  /-- Device time at the opening (TOUT BASE 1). -/
  openDt : Stamp
  /-- Cycle count of the group at the opening. -/
  cycle : Nat
  slip : Bool := false
  binds : List BindSt
  points : List (Nat × Point)
  /-- The tenant runs a program in this window; it has committed or was stopped. -/
  runs : Bool := true
  ended : Bool := false
deriving DecidableEq, Repr

/-- Table 08-3. -/
inductive ElaSt where
  | out | seat | run | blocked | frozen
deriving DecidableEq, Repr

/-- A tenant's state in the element array. -/
structure ElaTen where
  st : ElaSt := .out
  consec : Nat := 0
  cursor : Nat := 0
  /-- Seated once since the program state was initialised; windows that binding 0 has missed in a row (R186). -/
  once : Bool := false
  miss0 : Nat := 0
  nodes : Tbl NodeSt := []
  /-- Executions since the program state was initialised. -/
  execs : Nat := 0
  outs : List (List NodeOut) := []
  binds : List BindSt := []
  fetched : List (Nat × Point) := []
  window : Option Window := none
  /-- Start (FRC) of the cycle whose window opened last. -/
  openedAt : Option Nat := none
  /-- An agreed phase to seat with at the next window opening (R236). -/
  seatTo : Option Nat := none
  pendBlock : Bool := false
  pendFreeze : Bool := false
  pendRelease : Bool := false
  injExtra : Nat := 0
  injCount : Nat := 0
  last : Nat := 0
  peak : Nat := 0
  /-- Counters of Table 08-11. -/
  cnt : Tbl Nat := []
deriving DecidableEq, Repr

/-- A tile-cycle group beside its registers (R177). -/
structure Group where
  armed : Option Nat := none
  /-- Start of the present cycle: FRC and stamp; whether it was a free-wheel start. -/
  start : Option Edge := none
  free : Bool := false
deriving DecidableEq, Repr

end Sys2Proof.Machine
end

