-- ==== Sys2Proof/Types/Sch.lean ====
section
/-! DEFINITION. Scheme programs and the state of the cyclic runtime (chapter 11). The execution of IEC 61131-3 code is
not described by the spec: an activation's results come with the command that ends it. -/
namespace Sys2Proof.Machine

/-- A variable of a scheme program: its name and type as Composer numbers them, retained or not, initial value. -/
structure SchVar where
  name : Nat
  type : Nat
  retained : Bool := false
  init : Nat := 0
deriving DecidableEq, Repr

/-- A cyclic task (R260), its images as lists of handles. -/
structure CycTask where
  period : Nat
  phase : Nat
  prio : Nat
  inp : List Nat := []
  outp : List Nat := []
deriving DecidableEq, Repr

/-- An event task (R261) and the sources bound to it: point handles, subscription entries, Thyme channels. -/
structure EvtTask where
  name : Nat
  prio : Nat
  wdog : Nat
  pts : List Nat := []
  subs : List Nat := []
  chans : List Nat := []
  inp : List Nat := []
  outp : List Nat := []
deriving DecidableEq, Repr

/-- A scheme program object as loaded. Sizes are in bytes. -/
structure SchProg where
  digest : Digest := 0
  cyc : List CycTask := []
  evt : List EvtTask := []
  vars : List SchVar := []
  /-- Publications called, by PUBNO. -/
  pubs : List Nat := []
  /-- Points that it reads or writes, with their TYPEs. -/
  points : List (Nat × Nat) := []
  code : Nat := 0
  data : Nat := 0
  retained : Nat := 0
deriving DecidableEq, Repr

/-- Table 11-2. -/
inductive SchSt where
  | idle | run | stop | standby | frozen
deriving DecidableEq, Repr

/-- What activated an event task and is given to it (R261): source kind (0 point, 1 GOOSE, 2 timed trigger), its number
and stamp. -/
structure EvtSrc where
  kind : Nat
  num : Nat
  stamp : Stamp
deriving DecidableEq, Repr

/-- A direct read, a point write or a publication call that an activation makes (R262). -/
inductive SchAct where
  | read (handle : Nat)
  | point (handle value quality type : Nat)
  | publish (pubno : Nat) (vals : List W32) (quals : List Nat)
  /-- Reads entry e of the receive ring of a CAN controller; writes its read index (R317). -/
  | canRead (k e : Nat)
  | canAdvance (k index : Nat)
deriving DecidableEq, Repr

/-- What the code of an activation did since it was last heard of: direct reads, writes and calls in their order and the
variables that it changed; and once it has ended, the values and qualities that it left in its output image by position. -/
structure SchResult where
  ended : Bool := true
  acts : List SchAct := []
  outs : List (Nat × Nat × Nat) := []
  vals : List (Nat × Nat) := []
deriving DecidableEq, Repr

/-- An activation: its tick, order of activation, and, once it runs, its start tick, FRC and input image. -/
structure Activation where
  tick : Nat
  order : Nat
  src : Option EvtSrc := none
  startTick : Option Nat := none
  startFrc : Nat := 0
  image : List (Nat × Point) := []
  /-- What its direct reads returned, oldest first. -/
  reads : List (Nat × Point) := []
  /-- CAN ring entries that it read, by controller and entry. -/
  cans : List (Nat × Nat × List Byte) := []
  /-- The task waits for a credit: what it still has to issue, and since when; whether its code has ended (R21, R262). -/
  ending : Option (List SchAct) := none
  ended : Bool := false
  /-- A retained variable changed. -/
  retain : Bool := false
  waitFrom : Option Nat := none
deriving DecidableEq, Repr

/-- Run state of a task: 0 to 7 cyclic, 8 to 23 event. -/
structure TaskSt where
  /-- Tick from which the grid of a cyclic task counts (R260, R267). -/
  grid : Nat := 0
  missrun : Nat := 0
  /-- Consecutive aborts of an event task (R264). -/
  aborts : Nat := 0
  cur : Option Activation := none
  /-- Queued activations of an event task, oldest first. -/
  queue : List Activation := []
  /-- Output image: value and quality last written, by position. -/
  out : Tbl (Option (Nat × Nat)) := []
  last : Nat := 0
  peak : Nat := 0
deriving DecidableEq, Repr

/-- A force (R268). -/
structure Force where
  handle : Nat
  type : Nat
  value : Nat
deriving DecidableEq, Repr

/-- A change package (R269): its signature, the program it replaces, the new program object with its signature, the magic,
kind and tenant of its header (R37), and the DRAM area of the change report (R271). -/
structure ChgPkg where
  sig : Signed
  base : Digest
  prog : SchProg
  progSig : Signed
  progMagic : Bool := true
  progKind : Nat := 2
  progTenant : Nat
  report : Nat := 0
  wait : Nat := 40
  /-- Bytes of the package. -/
  size : Nat := 0
deriving DecidableEq, Repr

/-- SCH_CHGSTAT.STATE. -/
inductive ChgSt where
  | empty | verifying | staged | waiting | done | failed
deriving DecidableEq, Repr

/-- An online change of a tenant. -/
structure SchChange where
  st : ChgSt := .empty
  result : Nat := 0
  nocarry : Nat := 0
  dropf : Nat := 0
  pkg : Option ChgPkg := none
  /-- Tick of the commit (R269). -/
  from_ : Nat := 0
  /-- The mailbox whose message made it, for CHG_RESULT; the report address that the message gave. -/
  mbx : Bool := false
  report : Option Nat := none
deriving DecidableEq, Repr

/-- A tenant's scheme program (R265). -/
structure SchTen where
  st : SchSt := .idle
  cause : Nat := 0
  prog : Option SchProg := none
  core : Nat := 0
  /-- The next start is cold: first load, or a kind 0 commit that changed the program (R265). -/
  mustCold : Bool := true
  /-- The program was changed by a kind 0 commit: START_WARM is refused. -/
  noWarm : Bool := false
  /-- RELEASE of R248 waits for a tick with no task active. -/
  releasing : Bool := false
  /-- Values of the variables, by index. -/
  vals : Tbl Nat := []
  /-- The two MRAM copies of the retained variables, and which is current (R267). -/
  keepA : Tbl Nat := []
  keepB : Tbl Nat := []
  curB : Bool := false
  /-- Digest of the program that the copies belong to. -/
  keptFor : Option Digest := none
  tasks : Tbl TaskSt := []
  forces : List Force := []
  chg : SchChange := {}
  /-- Report of the last completed change (R271): dropped forces by handle, variables not carried over by name, discarded
  event activations by task name. -/
  dropped : List Nat := []
  uncarried : List Nat := []
  lostEvts : List (Nat × Option EvtSrc) := []
  cnt : Tbl Nat := []
deriving DecidableEq, Repr

/-- The cyclic runtime beside its registers. -/
structure Runtime where
  /-- FRC of the last tick, and whether the cores made it. -/
  last : Option Nat := none
  free : Bool := false
  /-- Order numbers given to activations. -/
  order : Nat := 0
  ten : Tbl SchTen := []
  /-- FRC from which a core is busy, and its busy spans of the last 100 ms, by core. -/
  busyFrom : Tbl (Option Nat) := []
  spans : Tbl (List (Nat × Nat)) := []
deriving DecidableEq, Repr

/-- Where SRAM scrub found an uncorrectable error: slot memory of a tenant (R195) or its scheme partition (R265). -/
inductive SramPlace where
  | slot (t : Nat)
  | part (t : Nat)
deriving DecidableEq, Repr

/-- Where DRAM scrub found an uncorrectable error: the scheme data of a tenant (R265) or elsewhere. -/
inductive DramPlace where
  | data (t : Nat)
  | other
deriving DecidableEq, Repr

end Sys2Proof.Machine
end

