-- ==== Sys2Proof/Types/Snap.lean ====
section
/-! DEFINITION. Snapshots of a tenant (R346, Table 15-10). -/
namespace Sys2Proof.Machine

/-- A snapshot: header fields and the sections of its body. The GCM tag verifies under the key it names when the
snapshot is intact. -/
structure Snapshot where
  formatOk : Bool := true
  shipped : Bool := false
  tenant : Nat
  gen : Nat := 0
  tenSeq : Nat := 0
  elem : Digest := 0
  sch : Digest := 0
  saved : Nat := 0
  cycle : Nat := 0
  /-- LENGTH in bytes. -/
  length : Nat := 0
  keySlot : Nat := 0
  key : Nat := 0
  intact : Bool := true
  nonce : Nat := 0
  ela : ElaTen := {}
  points : List (Nat × Point) := []
  run : SchTen := {}
  /-- Publication entries with their states. -/
  pubs : List (Nat × Pub) := []
  /-- Pending timed-output entries with their channels. -/
  touts : List (Nat × TtuEntry) := []
  subs : List (Nat × Sub) := []
deriving DecidableEq, Repr

end Sys2Proof.Machine
end

