-- ==== Sys2Proof/Types/Pair.lean ====
section
/-! DEFINITION. Partner messages, and what the pairing block holds of each tenant (chapter 10). -/
namespace Sys2Proof.Machine

/-- A join record (R237). -/
structure JoinRec where
  tenant : Nat
  cycle : Nat
  phase : Nat
  seq : Nat
  ela : ElaTen
  points : List (Nat × Point) := []
  pubs : List (Nat × Pub) := []
deriving DecidableEq, Repr

/-- A DIGEST record (Table 10-4). -/
structure DigestRec where
  tenant : Nat
  pubno : Nat
  side : Nat := 0
  silenced : Bool := false
  cycle : Nat
  stNum : Nat
  compl : Nat
  indig : Nat
  cdig : Nat
deriving DecidableEq, Repr

/-- The stamps of the two-way exchange that a HEARTBEAT carries (R227): egress stamp of the receiver's own last HEARTBEAT
and its ingress stamp at the sender, where the sender had one, and the sender's egress stamp. -/
structure HbStamps where
  back : Option (Stamp × Stamp) := none
  t3 : Stamp
deriving DecidableEq, Repr

/-- Partner messages (Table 10-2). -/
inductive PartnerMsg where
  | hello (side role lifecycle : Nat) (image run : Digest) (addr : Nat)
  /-- Exchange stamps (none in a beacon), pairing state, count and start stamp of the last start of each group, class H
  tenants in RUN. -/
  | heartbeat (x : Option HbStamps) (state : Nat) (starts : List (Option (Nat × Stamp))) (run : List Nat)
  | digest (d : DigestRec)
  /-- Tenant, SILENCED, cycle, state digests by PUBNO, COMPL64. -/
  | summary (tenant : Nat) (silenced : Bool) (cycle : Nat) (digs : List (Nat × Nat)) (compl : Nat)
  /-- Subscription entry, stNum, allData digest, arrival cycle. -/
  | notice (sub stNum ddig arrival : Nat)
  | seat (tenant phase act seq : Nat)
  | joinAsk (tenant : Nat)
  /-- Piece i of n of a join record. -/
  | joinRec (i n : Nat) (r : JoinRec)
  /-- Block i of n of a snapshot. -/
  | snapshot (i n : Nat) (s : Snapshot)
  | health (words : List W32)
  /-- Master unit and fire stamp in the sender's device time (R379). -/
  | capfire (master : Nat) (stamp : Stamp)
  /-- Piece i of n of a supervisor message. -/
  | supmsg (i n : Nat) (piece : List Byte)
deriving DecidableEq, Repr

/-- A partner frame (R225). -/
structure PartnerFrame where
  ctr : Nat
  msgs : List PartnerMsg
  tag : MacTag
deriving DecidableEq, Repr

/-- PAR_STATE.STATE (Table 10-3). -/
inductive PairSt where
  | seek | handshake | paired | isolated | lost | mismatch
deriving DecidableEq, Repr

/-- The PAIR section (Table 10-1); HOME by tenant. -/
structure PairCfg where
  port : Nat
  window : Nat := 20
  detect : Nat := 20
  snap : Nat := 10
  pairKey : Nat := 0
  snapKey : Nat := 0
  divPersist : Nat := 1
  dlag : Nat := 1
  skewLim : Nat := 1
  joinWait : Nat := 10
  home : List Nat := []
deriving DecidableEq, Repr

/-- What the last HELLO of the partner said. -/
structure HelloInfo where
  side : Nat
  role : Nat
  lifecycle : Nat
  image : Digest
  run : Digest
  addr : Nat
deriving DecidableEq, Repr

/-- PAR_TSTATE.JOIN. -/
inductive JoinSt where
  | none | requested | running | failed
deriving DecidableEq, Repr

/-- Pairing's view of a tenant. -/
structure PairTen where
  /-- Complete bindings of the last 64 windows, newest first, and INDIG of the last window (R233). -/
  compl : List Nat := []
  indig : Nat := 0
  peerCompl : Nat := 0
  /-- SEAT proposals (R236): phase and activation cycle. -/
  seatOwn : Option (Nat × Nat) := none
  seatPeer : Option (Nat × Nat) := none
  /-- FRC of the own proposal; JOINWAIT passed, and the tenant seats alone from SEAT. -/
  seatFrom : Nat := 0
  alone : Bool := false
  /-- The partner's last SEAT had another TEN_SEQ: the tenant is kept out of agreement (R231, R236). -/
  seqDiff : Bool := false
  /-- Open disagreement, DIVRUN, and the digests of both modules' summaries with their cycles (R243). -/
  open_ : Bool := false
  divrun : Nat := 0
  own : Option (Nat × List (Nat × Nat)) := none
  peer : Option (Nat × List (Nat × Nat)) := none
  silenced : Bool := false
  join : JoinSt := .none
  /-- Join cycle to capture at, as donor. -/
  donor : Option Nat := none
  /-- Join record received, as joiner, and pieces of the one in reception. -/
  joinRec : Option JoinRec := none
  joinRecv : Nat := 0
  /-- Class C (R246): 1 active, 2 standby. -/
  cst : Nat := 0
  /-- Kept snapshot and the FRC of its reception; blocks of the one in reception (R247). -/
  kept : Option (Snapshot × Nat) := none
  recv : Nat := 0
  /-- Snapshot in transit: next block and number of blocks (R246); FRC of the last one taken. -/
  ship : Option (Snapshot × Nat × Nat) := none
  snapAt : Nat := 0
  /-- Cycle at which JOIN was asked for. -/
  askedAt : Nat := 0
  cnt : Tbl Nat := []
deriving DecidableEq, Repr

/-- A state frame in agreement (R239). -/
structure Agree where
  entry : Nat
  tenant : Nat
  pubno : Nat
  cycle : Nat
  cdig : Nat
  indig : Nat
  stNum : Nat
  tr : Nat
deriving DecidableEq, Repr

/-- A partner DIGEST held for its local state, with the FRC from which it counts as unmatched. -/
structure HeldDigest where
  rec_ : DigestRec
  until_ : Nat
deriving DecidableEq, Repr

/-- A class H delivery or timeout write that is held (R235): its key, arrival cycle, delivery cycle, and the points to
write. -/
structure HeldNotice where
  tenant : Nat
  sub : Nat
  stNum : Nat
  ddig : Nat
  arrival : Nat
  cycle : Nat
  matched : Bool := false
  event : Bool := false
  stamp : Stamp := 0
  /-- A timeout write (R221): the points keep the values they have when it applies. -/
  stale : Bool := false
  points : List (Nat × Point) := []
deriving DecidableEq, Repr

end Sys2Proof.Machine
end

