-- ==== Sys2Proof/Types/Net.lean ====
section
/-! DEFINITION. Ethernet frames, and the state of the ports, redundancy nodes and switch core (chapters 04, 05).

A frame is given by its decoded fields; the octets that IEEE 802.3, IEC 61850 and IEC 62439-3 lay out for them
are not in the spec. -/
namespace Sys2Proof.Machine

/-- An 802.1Q tag. -/
structure Vlan where
  pcp : Nat
  vid : Nat
deriving DecidableEq, Repr

/-- An HSR tag (IEC 62439-3) that is formally valid or not. -/
structure HsrTag where
  seq : Nat
  valid : Bool := true
deriving DecidableEq, Repr

/-- Last six bytes before the FCS when they end with the suffix 0x88FB (R112). -/
structure Rct where
  seq : Nat
  lanId : Nat
  sizeOk : Bool := true
deriving DecidableEq, Repr

/-- PTP message types of Table 03-3. -/
inductive PtpType where
  | sync | followUp | pdelayReq | pdelayResp | pdelayRespFollowUp | delayReq | delayResp
  | announce | signaling | management
deriving DecidableEq, Repr

/-- A PTP message: correctionField in units of 2^-16 ns, originTimestamp in ns. -/
structure PtpMsg where
  type : PtpType
  twoStep : Bool := false
  domain : Nat := 0
  seq : Nat := 0
  corr : Int := 0
  origin : Nat := 0
deriving DecidableEq, Repr

/-- What a frame carries behind its EtherType. -/
inductive Payload where
  | sv (p : SvPdu)
  | goose (p : GoosePdu)
  | ptp (m : PtpMsg)
  | partner (p : PartnerFrame)
  /-- MAC control: opcode, class-enable vector and quanta (one for PAUSE, eight for PFC). -/
  | macControl (opcode enables : Nat) (quanta : List Nat)
  | other (data : List Byte)
deriving DecidableEq, Repr

/-- An Ethernet frame. Addresses have their first byte in bits [47:40] (R97). `len` is its length in bytes from the
destination address to the FCS. -/
structure Frame where
  da : Nat
  sa : Nat
  vlan : Option Vlan := none
  hsr : Option HsrTag := none
  etherType : Nat
  payload : Payload
  rct : Option Rct := none
  len : Nat
deriving DecidableEq, Repr

/-- A received frame on its way from a port to a consumer: port, FRC count at its start-of-frame delimiter,
stamp (R70), OVERSIZE mark, loss mark (R18). -/
structure RxFrame where
  port : Nat
  frc : Nat
  stamp : Stamp
  frame : Frame
  oversize : Bool := false
  loss : Bool := false
  /-- The delivered copy came over LAN B. -/
  lanB : Bool := false
deriving DecidableEq, Repr

/-- MAC_STAT.FILT_MODE (Table 04-4). -/
inductive FilterMode where
  | start | normal | test | recovery
deriving DecidableEq, Repr

/-- A hold of egress under PAUSE or PFC (R95): FRC of its uninterrupted start and of its end. A hold that waits for the end
of the frame in transmission has its length in ns. -/
structure Hold where
  start : Nat
  stop : Nat
  waits : Option Nat := none
deriving DecidableEq, Repr

/-- Where a switched frame came from, as far as egress treats it differently (R73, R120, R125). -/
inductive Origin where
  /-- received on a port -/
  | port
  | host
  | publisher
  | supervisor
  /-- PTP that Thyme originates, and partner frames, leave as built -/
  | thyme
  | pairing
deriving DecidableEq, Repr

/-- A frame with its classification snapshot (R123) in the fabric or at egress. -/
structure SwFrame where
  frame : Frame
  origin : Origin
  input : Nat
  cls : Nat
  vid : Nat
  pri : Nat
  cells : Nat
  /-- Outputs still to be reached. -/
  outs : List Nat
  /-- Redundancy sequence numbers at nodes PB and ST of a frame that the module originates (R120). -/
  seqPb : Option Nat := none
  seqSt : Option Nat := none
  /-- Ingress stamp and port of a frame received on a port. -/
  ingress : Stamp := 0
  inPort : Nat := 0
  oversize : Bool := false
  /-- Received length (R91). -/
  rxLen : Nat := 0
  /-- Ports that went DOWN while the frame waits for room in the buffer (R133). -/
  lost : List Nat := []
  /-- SWC_PCFG of outputs 0 to 11 at the classification: a later commit does not touch the frame (R123). -/
  pcfg : List Nat := []
  /-- A copy that came over LAN B (R344). -/
  lanB : Bool := false
deriving DecidableEq, Repr

/-- What the receive side of a port shows of its line (R88, R101). -/
structure Line where
  /-- 25GBASE-R and 10GBASE-R: block lock, alignment of the RS-FEC. -/
  blockLock : Bool := true
  fecAligned : Bool := true
  localFault : Bool := false
  /-- 1000BASE-X: synchronisation. -/
  sync : Bool := true
  /-- The Clause 37 negotiation has ended: the partner offers full duplex, and its remote fault code. -/
  an : Option (Bool × Nat) := none
deriving DecidableEq, Repr

/-- A port and what its line shows. -/
structure PortLine where
  port : Nat
  line : Line := {}
deriving DecidableEq, Repr

/-- A rising edge on a PULSE_IN input: how long, in ns, its line was low before it and stays high after it (R282). -/
structure PulseEdge where
  input : Nat
  low : Nat := 100
  high : Nat := 100
deriving DecidableEq, Repr

/-- What a port puts on its line beside frames (R88, R101, R102): nothing, idle, the remote fault sequence, or Clause 37
configuration with the advertisement of R88. -/
inductive LineTx where
  | off | idle | remoteFault
  | config (fullDuplex halfDuplex : Bool) (pause remoteFault : Nat)
deriving DecidableEq, Repr

/-- One port's state (chapter 04) beside its registers. -/
structure Port where
  /-- Holds lock (R101). -/
  lock : Bool := false
  /-- FRC at which lock was gained or lost. -/
  lockAt : Nat := 0
  /-- Link state UP (R102). -/
  up : Bool := false
  /-- FRC of the last change to UP. -/
  upAt : Nat := 0
  filt : FilterMode := .start
  /-- MAC_FMASK writes held for the next high-word write of MAC_FENT (R99), by entry. -/
  heldMask : Tbl (Option Nat) := []
  pause : Option Hold := none
  pfc : Tbl (Option Hold) := []
  /-- FRC from which PAUSE_NS has not yet been counted, while any egress is held (R95). -/
  heldFrom : Option Nat := none
  /-- FRC until which PAUSE and PFC are counted only (R95). -/
  ignoreTo : Nat := 0
  /-- FRC of the last frame counted in RX_FRAMES or RX_PTP, or of the change to UP (R107). -/
  rxAt : Nat := 0
  rxIdleSeen : Bool := false
  /-- MAC_STAT.AN_RF. -/
  anRf : Nat := 0
  /-- Frame in transmission and frame waiting (R130). -/
  tx : Option SwFrame := none
  waiting : Option SwFrame := none
deriving DecidableEq, Repr

/-- A window of accepted sequence numbers (R113): the top, and the marking tick of each marked number. -/
structure SeqWindow where
  top : Nat := 0
  marks : List (Nat × Nat) := []
deriving DecidableEq, Repr

/-- A source entry of a redundancy node (R113), with the relay windows of HSR (R118), by ingress direction. -/
structure SourceEntry where
  sa : Nat
  /-- The window of local delivery; none where frames of the source have been relayed only. -/
  win : Option SeqWindow := none
  relay0 : Option SeqWindow := none
  relay1 : Option SeqWindow := none
deriving DecidableEq, Repr

/-- A token bucket (R117): tokens at an FRC count. -/
structure Bucket where
  tokens : Nat := 256
  at_ : Nat := 0
deriving DecidableEq, Repr

/-- Redundancy nodes PB (0) and ST (1). -/
structure Prp where
  pb : List SourceEntry := []
  st : List SourceEntry := []
  bucketA : Bucket := {}
  bucketB : Bucket := {}
  bucketSt : Bucket := {}
  /-- Sequence counters: host link h and node m at 2 h + m; the supervisor's node m at 8 + m (R120). -/
  seq : Tbl Nat := []
  /-- Source addresses that the supervisor has sent from (R118). -/
  supSas : List Nat := []
deriving DecidableEq, Repr

/-- A forwarding entry (R121, R124). -/
structure FdbEntry where
  key : Nat := 0
  act : Nat := 0
deriving DecidableEq, Repr

/-- A transfer of a frame from an input to an output that has been matched (R129). -/
structure Match where
  input : Nat
  output : Nat
  cls : Nat
  id : Nat
  crossed : Nat
deriving DecidableEq, Repr

/-- Switch core (R121 to R133). -/
structure Switch where
  fdb : Tbl FdbEntry := []
  /-- Frames in the buffer, by identifier. -/
  frames : Tbl (Option SwFrame) := []
  nextId : Nat := 0
  /-- Virtual output queues of identifiers; key (16 × input + output) × 8 + class. -/
  voq : Tbl (List Nat) := []
  /-- Matches in progress. -/
  matched : List Match := []
  /-- Grant and accept pointers: input last accepted by an output, output last accepted by an input. -/
  grantPtr : Tbl Nat := []
  acceptPtr : Tbl Nat := []
  /-- Frames for each host link waiting for HOST_RX_DELIVERY; key link × 8 + class. -/
  hostQ : Tbl (List SwFrame) := []
  /-- Frames of inputs that wait for cells (R131), by input × 8 + class. -/
  inWait : Tbl (List SwFrame) := []
deriving DecidableEq, Repr

end Sys2Proof.Machine
end

