-- ==== Sys2Proof/Types/Pow.lean ====
section
/-! DEFINITION. State of power, clocks, resets and start-up (chapter 18). -/
namespace Sys2Proof.Machine

/-- What is in progress in a domain (PWR_DSTAT.TRANSITION). -/
inductive DomainWork where
  | switchOn | reset
deriving DecidableEq, Repr

/-- A JTAG instruction (R425): `pins` is any other instruction that takes control of a pin, `debug` one that opens the
management space. -/
inductive JtagIns where
  | bypass | sample | idcode | extest
  | pins (code : Nat)
  | debug
deriving DecidableEq, Repr

/-- The levels of the pins that a reset latches: PAIR_SIDE and SMB_ADDR (Table 20-7). -/
structure LatchPins where
  side : Nat
  smbAddr : Nat
deriving DecidableEq, Repr

/-- Power manager, clock generator, reset and start-up sequencer. -/
structure Power where
  /-- Main power is good and TBPLL runs: the FRC counts (R61, R393). -/
  main : Bool := false
  /-- VBAT at or above 1.5 V (R396). -/
  vbat : Bool := true
  /-- REFCLK present and within 2 % (R394). -/
  refOk : Bool := true
  /-- VIN_MAIN has been good for 1 ms but REFCLK was absent: phase 1 waits (Table 18-9). -/
  phase1Waits : Bool := false
  /-- SYSRST_N is held low. -/
  sysrst : Bool := false
  /-- RSTOUT_N is driven low (R398). -/
  rstOut : Bool := true
  /-- PAIR_SIDE as latched at the release of SYSRST_N (R229). -/
  side : Nat := 0
  /-- SMB_ADDR as latched at the release of SYSRST_N and at the end of phase 1 (Table 20-7). -/
  smbAddr : Nat := 0
  /-- The supervisor firmware runs; false during a warm restart and before phase 2 ends. -/
  supRuns : Bool := false
  /-- FRC by which the warm restart in progress completes (R13: 400 ms). -/
  supBack : Nat := 0
  /-- A warm restart is in progress. -/
  warm : Bool := false
  /-- FRC instants of the latest warm restarts, newest first, for the escalation of R399. -/
  warmTimes : List Nat := []
  /-- FRC of the last watchdog kick or restart of the period (R399). -/
  wdogFrom : Nat := 0
  /-- Domains in use (DOMAINS section, R387). -/
  mask : Nat := 0
  /-- Domains that are on: PWR_DSTAT.ON. -/
  on : Nat := 0
  /-- Work in progress of a domain and the FRC by which it completes: PWR_DSTAT.TRANSITION. -/
  trans : Tbl (Option (DomainWork × Nat)) := []
  /-- PLLs that run and are locked, by their order in Table 18-3 (CLK_STAT.LOCKED). -/
  pll : Nat := 0
  /-- FRC at which a PLL that nothing needs stops (R393), by PLL number. -/
  pllStop : Tbl (Option Nat) := []
  /-- Rails outside their windows (PWR_STAT.REGOUT). -/
  regOut : Nat := 0
  serdesLow : Bool := false
  /-- SERDES_LOW holds the ports DOWN; a rail fault caused the reset now ending. -/
  railFault : Bool := false
  /-- Start-up phases ended: bit p − 1 for phase p of Table 18-7. -/
  phases : Nat := 0
  /-- FRC at which phase 3 ended. -/
  phase3End : Option Nat := none
  /-- FRC at which rank r opened. -/
  rankOpen : List Nat := []
  /-- Start-up has ended; START_COMPLETE was reached (R406). -/
  ended : Bool := false
  complete : Bool := false
  /-- Tenants started by the start sequencer (R405). -/
  started : Tbl Bool := []
  /-- Pending tenants once start-up has ended, with the reason (Table 18-8). -/
  pend : Tbl Nat := []
  /-- Tiles that run a BIST pass after a domain reset before their slots can seat (R389). -/
  bistDue : Nat := 0
  /-- A host command took the tenant out of service during start-up (R406). -/
  hostOut : Tbl Bool := []
  /-- THERM_N is low, and FRC since which every sensor has been below 100 °C (R424). -/
  hot : Bool := false
  coolFrom : Option Nat := none
  /-- SMB_ALERT_N is low (R424). -/
  smbAlert : Bool := false
  /-- Words latched by an SMBus read of code 0x10 (R427). -/
  smbWords : List W32 := []
  /-- The data of the last SMBus Block Read (R426). -/
  smbData : List Byte := []
  /-- The JTAG instruction in force, and the word that its selection captured for TDO. -/
  jtag : JtagIns := .idcode
  tdo : Nat := 0
deriving DecidableEq, Repr

end Sys2Proof.Machine
end

