-- ==== Sys2Proof/Types/Ten.lean ====
section
/-! DEFINITION. Tenants, mailboxes and queue pairs (chapter 15). -/
namespace Sys2Proof.Machine

/-- A handle range (Table 15-2). -/
structure Range where
  first : Nat
  count : Nat
  read : Bool
  write : Bool
deriving DecidableEq, Repr

/-- A TENANTS entry that is enabled, with the tenant's program objects. -/
structure TenantCfg where
  classC : Bool := false
  rank : Nat := 0
  link : Nat := 0
  canRights : Nat := 0
  vf : Nat := 1
  tile : Nat := 0
  slot : Nat := 0
  ranges : List Range := []
  /-- Fail-state mode and value by OUTNO; an output with no entry takes HOLD. -/
  fails : Tbl (Nat × Nat) := []
  elem : Option ElaProg := none
  sch : Option SchProg := none
deriving DecidableEq, Repr

/-- Table 15-3. -/
inductive Svc where
  | out | in_ | frozen | drain
deriving DecidableEq, Repr

/-- Where a tenant command comes from: the supervisor or the link of a host function (R326, R327). -/
structure TenCmd where
  code : Nat
  /-- The host function it was written through: l a virtual function of link l, 4 + l the physical function of link l. -/
  via : Option Nat := none
deriving DecidableEq, Repr

/-- A tenant. -/
structure Tenant where
  gen : Nat := 1
  cfg : Option TenantCfg := none
  svc : Svc := .out
  drained : Bool := false
  /-- FRC at which FREEZING was set. -/
  freezing : Option Nat := none
  /-- Command in progress, and START or RESTORE held for a commit or drain (R331). -/
  cmd : Option TenCmd := none
  held : Option TenCmd := none
  lastCmd : Nat := 0
  result : Nat := 0
  /-- A commit of this tenant is in progress. -/
  commit : Bool := false
  /-- A kind 0 record was committed since the last start: only the host starts the tenant (R50). -/
  amended : Bool := false
  /-- TEN_SEQ: committed amendments (R53). -/
  seq : Nat := 0
  /-- Device time and cycle count at the freeze (Table 15-10). -/
  saved : Nat := 0
  savedCycle : Nat := 0
deriving DecidableEq, Repr

/-- A mailbox message of 64 bytes (R334), in either direction. -/
structure MbxMsg where
  op : Nat
  len : Nat := 0
  status : Nat := 0
  tag : Nat := 0
  gen : Nat := 0
  payload : List Byte := []
deriving DecidableEq, Repr

/-- A request that was taken and not yet answered, with the FRC of its doorbell. -/
structure MbxReq where
  msg : MbxMsg
  at_ : Nat
deriving DecidableEq, Repr

/-- An item held for a device-to-host slot. -/
structure MbxItem where
  reply : Bool
  msg : MbxMsg
deriving DecidableEq, Repr

/-- A mailbox: of tenant t under t, of link h under 4096 + 16 h. -/
structure Mailbox where
  /-- Full request slots in the order of their doorbells, with the FRC of the doorbell. -/
  order : List (Nat × Nat) := []
  taken : List MbxReq := []
  held : List MbxItem := []
  /-- Requests answered TIMEOUT that the firmware has not served yet (R336). -/
  late : List MbxReq := []
  /-- The last doorbell was rung through the physical function (R326). -/
  pf : Bool := false
deriving DecidableEq, Repr

/-- A submission descriptor (Table 15-7). -/
structure Desc where
  op : Nat
  irq : Bool := false
  fence : Bool := false
  count : Nat := 0
  tag : Nat := 0
  addr : Nat := 0
  len : Nat := 0
  arg0 : Nat := 0
  arg1 : Nat := 0
deriving DecidableEq, Repr

/-- A descriptor that was fetched and not completed, with the generation at its fetch. -/
structure Fetched where
  desc : Desc
  gen : Nat
  /-- Submission head after this descriptor. -/
  head : Nat := 0
deriving DecidableEq, Repr

/-- A queue pair or virtual-port ring beside its registers. -/
structure QPair where
  fetched : List Fetched := []
  /-- Receive buffers posted on a virtual-port ring, oldest first (R344). -/
  bufs : List Fetched := []
  /-- Next completion entry and its phase. -/
  cqTail : Nat := 0
  phase : Bool := true
  error : Bool := false
  /-- The last tail was written through the physical function (R326). -/
  pf : Bool := false
deriving DecidableEq, Repr

/-- A completion entry (Table 15-8), and the receive completion of R344 with its frame's particulars. -/
structure Completion where
  tag : Nat
  sqHead : Nat
  status : Nat
  phase : Bool
  done : Nat
  gen : Nat
deriving DecidableEq, Repr

/-- What a host sees of link h beside HST_LINKSTAT. -/
structure HostLink where
  up : Bool := false
  width : Nat := 0
  speed : Nat := 0
  vfen : Nat := 0
  /-- HST_PERST_N released (R404). -/
  perst : Bool := false
deriving DecidableEq, Repr

end Sys2Proof.Machine
end

