-- ==== Sys2Proof/Types/Struct.lean ====
section
/-! DEFINITION. Program objects, staged amendments and the amendment journal (chapter 02). What a program object holds is
not laid out byte by byte in the spec: it stands here as loaded. -/
namespace Sys2Proof.Machine

/-- A program object in the program area of a bank (R37): its signature, the kind (1 element, 2 scheme) and tenant of its
header, and its content. -/
structure ProgObj where
  sig : Signed := {}
  magic : Bool := true
  kind : Nat
  tenant : Nat
  length : Nat := 0
  elem : Option ElaProg := none
  sch : Option SchProg := none
deriving DecidableEq, Repr

/-- The program area of a bank: its length and the objects at their offsets. -/
structure ProgArea where
  length : Nat := 0
  objs : List (Nat × ProgObj) := []
deriving DecidableEq, Repr

/-- A boot bank (R40): whether its supervisor firmware passes secure boot, its image and its program area. -/
structure Bank where
  firmware : Bool := false
  /-- SHA-384 of the firmware. -/
  fwDigest : Digest := 0
  image : ImageObj := {}
  area : ProgArea := {}
deriving DecidableEq, Repr

/-- An amendment record, with the program area of the running bank as it finds it. -/
structure AmdObj where
  obj : ImageObj := {}
  area : ProgArea := {}
deriving DecidableEq, Repr

/-- What a journal entry records (R54, R272). -/
inductive JrnlItem where
  | amd (a : AmdObj)
  | change (tenant : Nat) (pkg : ChgPkg)
deriving DecidableEq, Repr

/-- An entry of the amendment journal; only a complete entry is replayed. -/
structure JrnlEntry where
  item : JrnlItem
  bytes : Nat
  complete : Bool := false
deriving DecidableEq, Repr

/-- The amendment journal, oldest entry first; it belongs to one image digest (R54). -/
structure Journal where
  image : Digest := 0
  entries : List JrnlEntry := []
deriving DecidableEq, Repr

/-- SYS_AMDSTAT.STATE. -/
inductive AmdSt where
  | empty | verifying | staged | committing | done | failed
deriving DecidableEq, Repr

/-- A committed kind 1 amendment that waits for its slot window (R51). -/
structure AmdAct where
  tenant : Nat
  act : Nat
  rec_ : AmdObj
  /-- FRC of the commit's end. -/
  at_ : Nat := 0
deriving DecidableEq, Repr

/-- A staging slot (R52). -/
structure AmdSlot where
  st : AmdSt := .empty
  rec_ : Option AmdObj := none
  tenant : Nat := 0
  kind : Nat := 0
  result : Nat := 0
  /-- ACT_CYCLE given with the commit. -/
  act : Nat := 0
  /-- The commit waits for the drain of its tenant before it resets it (R53). -/
  waits : Bool := false
  /-- The link window that a mailbox request came from. -/
  window : Option Nat := none
deriving DecidableEq, Repr

end Sys2Proof.Machine
end

