-- ==== Sys2Proof/Syntax.lean ====
section
/-! DEFINITION. The commands of the module: one constructor per row of spec/opcode_table.json, in the table's order.

Operands carry what the row's text lets its sender or its surroundings decide, and nothing that the state holds. Names
used throughout: `r` the requester of a register access; `t` a tenant; `n`, `k`, `i` a port, stream, loop, converter,
controller, publication or subscription as the command says; `w` a window (a tenant's number, or 4096 + 16 h for the page
of link h) and `q` a queue pair of it; `tile` and `slot` a slot of the element array; `link` a host link; `via` the host function
through which a tenant command is written: l the tenant's virtual function on link l, 4 + l the physical function of
link l, none for the supervisor; `phi` the position of an event within an FRC count in
1/256 ns; records, programs and blobs that the module reads from memory outside the model are operands, none where
the read fails. -/
namespace Sys2Proof
open Machine

inductive Instr where
  /-- REG64_LOW_READ (R10). A read of the low word of a 64-bit register returns it and latches the high word for that
  requester. -/
  | reg64LowRead (r : Requester) (a : Nat)
  /-- REG64_HIGH_READ (R10). A read of the high word of a 64-bit register returns the latched value once, or the
  current high word when no latch is held. -/
  | reg64HighRead (r : Requester) (a : Nat)
  /-- REG64_LOW_WRITE (R10). A write of the low word of a 64-bit register is held for that requester until the high
  word is written. -/
  | reg64LowWrite (r : Requester) (a : Nat) (v : W32)
  /-- REG64_HIGH_WRITE (R10). A write of the high word applies it together with any held low word, or alone when none
  is held. -/
  | reg64HighWrite (r : Requester) (a : Nat) (v : W32)
  /-- REGISTER_WRITE (R7). A write to a register or address with no row of its own takes effect by its access code;
  RWS fields after the seal and absent addresses ignore it. -/
  | registerWrite (r : Requester) (a : Nat) (size : Nat) (v : W32)
  /-- LOCKSTEP_MISMATCH (R13). A lockstep mismatch in either supervisor pair halts both pairs and starts a supervisor
  warm restart. -/
  | lockstepMismatch (pair : Nat)
  /-- SUP_RESTART_COMPLETE (R14). The supervisor warm restart completes; held mailbox requests, staged amendments and
  staged keys become serviceable again. -/
  | supRestartComplete
  /-- CREDIT_RETURN (R23). A consumer returns a credit to its owner at a boundary, which may release a waiting
  producer. -/
  | creditReturn (bnd : Nat) (owner : Nat) (gen : Nat)
  /-- OUTPUT_CREDIT_EXPIRY (R22). The retention time of a filter output entry passes and its boundary-5 credit
  returns. -/
  | outputCreditExpiry (n : Nat) (tap : Nat)
  /-- TENANT_DRAIN_COMPLETE (R341). Every engine reports the tenant drained; the tenant enters OUT, DRAINED is set and
  its credit shares are restored. -/
  | tenantDrainComplete (t : Nat)
  /-- QCR_CLR_SEL (R26). CLR_SEL clears the drop counter of the selected owner. -/
  | qcrClrSel
  /-- QCR_CLR_BND (R26). CLR_BND clears the drop counters of every owner at the selected boundary. -/
  | qcrClrBnd
  /-- POWER_ON (R403). Main power becomes good and the supply phase sequences the rails, locks TBPLL, starts the FRC
  and sets device time from TMB_RTC. -/
  | powerOn (standby : Nat) (pins : LatchPins) (vbat : Bool) (ref : Bool)
  /-- SUPERVISOR_PHASE (R403). After the supply phase or release of SYSRST_N the device securely boots the selected
  bank, finishes any erasure, loads the vault and releases RSTOUT_N. -/
  | supervisorPhase (bankA : Bank) (bankB : Bank)
  /-- IMAGE_LOAD (R38). The loader checks the structure image in step order, applies it only when every check passes,
  and records any failure code. -/
  | imageLoad (bankA : Bank) (bankB : Bank)
  /-- CONFIRM (R42). A write of 1 to CONFIRM makes a trial boot permanent by setting PREF to the booted bank and
  clearing TRIAL. -/
  | confirm
  /-- ROLLFLOOR_WRITE (R44). A write of SYS_ROLLFLOOR takes effect only when it moves the floor forward and not past
  the running version. -/
  | rollfloorWrite (v : Nat)
  /-- SEAL (R45). A write of 1 to SYS_SEAL.SEAL seals the device so that RWS fields freeze. -/
  | seal
  /-- SEAL_TIMEOUT (R45). 100 ms after the apply step with HOLD_SEAL set, the device seals. -/
  | sealTimeout
  /-- STAGE (R52). The STAGE command starts checking the amendment record of the selected staging slot. -/
  | stage (r : Option AmdObj)
  /-- STAGE_DONE (R52). The staging checks end and leave the slot STAGED or FAILED with its result code. -/
  | stageDone (k : Nat)
  /-- COMMIT (R52). The COMMIT command appends the staged record to the journal and applies it, waiting for a drain
  where needed. -/
  | commit
  /-- COMMIT_DONE (R55). The amendment commit completes, the journal entry is marked complete and the slot becomes
  DONE. -/
  | commitDone (k : Nat)
  /-- DISCARD (R52). The DISCARD command empties the selected staging slot. -/
  | discard
  /-- AMD_ACTIVATION (R51). A committed kind 1 amendment takes effect at the start of the tenant's slot window that
  ACT_CYCLE selects. -/
  | amdActivation (t : Nat)
  /-- TIME_COMMIT_NOW (R64). TMB_CMT MODE 1 replaces OFS, ANC and RATE together at once, folding and restarting the
  hold timer as its flags say. -/
  | timeCommitNow (fold : Bool) (servo : Bool)
  /-- TIME_COMMIT_AT (R64). TMB_CMT MODE 2 makes a commit pending for the FRC count in TMB_CMT_AT, or applies it at
  once when that count has passed. -/
  | timeCommitAt (fold : Bool) (servo : Bool)
  /-- TIME_COMMIT_CANCEL (R64). TMB_CMT MODE 3 cancels the pending commit. -/
  | timeCommitCancel
  /-- TIME_COMMIT_APPLY (R64). The FRC reaches TMB_CMT_AT and the pending commit applies. -/
  | timeCommitApply
  /-- CLAIM_LOCK (R67). TMB_SYNC REQ 1 claims lock and moves the synchronisation state to LOCKED where the table
  allows. -/
  | claimLock
  /-- ENTER_HOLDOVER (R67). TMB_SYNC REQ 2 moves LOCKED to HOLDOVER. -/
  | enterHoldover
  /-- DECLARE_LOST (R67). TMB_SYNC REQ 3 moves LOCKED or HOLDOVER to LOST. -/
  | declareLost
  /-- HOLD_TIMER_EXPIRY (R67). The hold timer expires in LOCKED and the state becomes HOLDOVER. -/
  | holdTimerExpiry
  /-- HOLDOVER_LIMIT_EXPIRY (R67). TMB_HOLD.LIMIT seconds pass in HOLDOVER and the state becomes LOST. -/
  | holdoverLimitExpiry
  /-- REFERENCE_LOST (R394). The reference is detected lost; REF_LOST is set, the PLLs hold frequency and a LOCKED
  state goes to HOLDOVER. -/
  | referenceLost
  /-- REFERENCE_RESTORED (R394). The reference has stayed within 2 % for 10 ms and TBPLL relocks with continuous
  phase. -/
  | referenceRestored
  /-- RTC_SECOND (R69). At each whole second of device time while locked, TMB_RTC is set from device time. -/
  | rtcSecond
  /-- SYNC_RX (R72). A received one-step Sync is stamped, captured for the servo when configured, and forwarded with
  correction. -/
  | syncRx
  /-- PDELAY_REQ (R74). A received Pdelay_Req is answered by the hardware responder within 10 µs and never forwarded.
  -/
  | pdelayReq
  /-- PDELAY_RESP (R74). A received Pdelay_Resp is matched to the port's own request and the raw link delay is written
  to TMB_PDRAW. -/
  | pdelayResp
  /-- PTP_UNSUPPORTED (R72). A two-step Sync, Follow_Up, Delay_Req, Delay_Resp or Pdelay_Resp_Follow_Up is counted and
  forwarded or discarded as Table 03-3 states. -/
  | ptpUnsupported
  /-- PTP_GENERAL (R72). An Announce, Signaling or Management message is delivered to the supervisor and switched as
  an ordinary frame. -/
  | ptpGeneral
  /-- PDELAY_INTERVAL (R74). Every 2^PD_LOG seconds a PDINIT port sends its own Pdelay_Req and marks a missed previous
  response. -/
  | pdelayInterval (n : Nat)
  /-- PPS_OUT_RISE (R76). At every whole second of device time PPS_OUT rises, unless gated while not locked. -/
  | ppsOutRise
  /-- PPS_OUT_FALL (R76). WIDTH ms after its rise, PPS_OUT falls. -/
  | ppsOutFall
  /-- PPS_IN_EDGE (R77). An accepted PPS_IN rising edge is stamped into TMB_PPSIN_NS, or ignored and counted as early.
  -/
  | ppsInEdge
  /-- PPS_LOST (R77). No PPS_IN edge is accepted for 1.5 s and PPS_LOST is set. -/
  | ppsLost
  /-- TTU_SET (R82). The system SET action schedules an entry that drives the channel's pin high at its instant. -/
  | ttuSet (n : Nat)
  /-- TTU_CLEAR (R82). The system CLEAR action schedules an entry that drives the pin low at its instant. -/
  | ttuClear (n : Nat)
  /-- TTU_TOGGLE (R82). The system TOGGLE action schedules an entry that inverts the pin at its instant. -/
  | ttuToggle (n : Nat)
  /-- TTU_PULSE (R82). The system PULSE action schedules a rise at its instant and a fall WIDTH later. -/
  | ttuPulse (n : Nat) (width : Nat)
  /-- TTU_FIRE (R82). The system FIRE action schedules a fire of the channel's internal target at its instant. -/
  | ttuFire (n : Nat)
  /-- TTU_START_PERIODIC (R85). START_PERIODIC starts a system channel firing at an exact rational period, or fails
  with result 5. -/
  | ttuStartPeriodic (n : Nat) (width : Nat)
  /-- TTU_STOP (R85). STOP ends a periodic channel. -/
  | ttuStop (n : Nat)
  /-- TTU_FLUSH (R84). FLUSH discards the channel's pending entries and returns its pin to IDLE. -/
  | ttuFlush (n : Nat)
  /-- TIMED_OUTPUT_REQUEST (R83). A tenant's timed-output request reaches Thyme and is accepted, refused or discarded
  as stale. -/
  | timedOutputRequest
  /-- ENTRY_EXECUTE (R78). A pending entry's instant falls due and its edge or fire is placed never early, or dropped
  under NEEDLOCK. -/
  | entryExecute (n : Nat)
  /-- PERIODIC_INSTANT (R85). A periodic channel reaches its next exact instant, fires its target and starts any pin
  pulse. -/
  | periodicInstant (n : Nat)
  /-- FRAME_RECEIVE (R89). A frame received on a port passes the MAC checks, address filter, duplicate discard and
  classification, and is admitted or discarded. -/
  | frameReceive (n : Nat) (phi : Nat) (f : Frame) (lockLost : Bool) (fcsOk : Bool) (corr : Nat) (uncorr : Nat)
  /-- PAUSE (R95). A received PAUSE frame is counted and, with PAUSE_ACT, holds all egress of the port for its quanta.
  -/
  | pause (n : Nat) (quanta : Nat)
  /-- PFC (R95). A received PFC frame is counted and, with PFC_ACT, holds the egress of the enabled classes. -/
  | pfc (n : Nat) (enables : Nat) (quanta : List Nat)
  /-- PAUSE_HOLD_END (R95). The time of a PAUSE or PFC hold runs out and egress resumes. -/
  | pauseHoldEnd (n : Nat)
  /-- PAUSE_CAP_END (R95). A hold lasts PAUSE_CAP µs and ends; PAUSE_CAPPED is set and the port ignores pause for 1
  ms. -/
  | pauseCapEnd (n : Nat)
  /-- PAUSE_IGNORE_END (R95). The 1 ms after a capped hold ends and the port acts on PAUSE and PFC again. -/
  | pauseIgnoreEnd (n : Nat)
  /-- FILT_REQ_NORMAL (R98). REQ 1 requests NORMAL filter mode, taking effect at the next frame boundary. -/
  | filtReqNormal (n : Nat)
  /-- FILT_REQ_TEST (R98). REQ 2 requests TEST filter mode, accepted only in lifecycle TEST or on a SPARE port. -/
  | filtReqTest (n : Nat)
  /-- FILT_REQ_RECOVERY (R98). REQ 3 requests RECOVERY filter mode at any time. -/
  | filtReqRecovery (n : Nat)
  /-- FILTER_ENTRY_WRITE (R99). A high-word write of MAC_FENT commits the entry together with its held MAC_FMASK. -/
  | filterEntryWrite (r : Requester) (n : Nat) (e : Nat) (hi : W32)
  /-- LOSS_OF_LOCK (R103). A port loses lock; any frame in reception is aborted and the link-down filter or UP_HOLD
  timer restarts. -/
  | lossOfLock (n : Nat) (receiving : Bool) (lf : Line) (rf : Bool)
  /-- LOCK_REGAINED (R102). A port regains lock; within DOWN_FILT it counts a glitch, and when DOWN it starts the
  UP_HOLD timer. -/
  | lockRegained (n : PortLine)
  /-- UP_HOLD_EXPIRY (R105). Lock has been held for UP_HOLD ms and the link goes UP. -/
  | upHoldExpiry (n : Nat)
  /-- DOWN_FILT_EXPIRY (R102). A loss of lock lasts DOWN_FILT µs and the link goes DOWN. -/
  | downFiltExpiry (n : Nat)
  /-- ADMIN_DOWN (R102). A write of 1 to ADMIN_DOWN forces the link DOWN at once. -/
  | adminDown (n : Nat) (receiving : Bool)
  /-- RX_IDLE_TIMEOUT (R107). RX_IDLE ms pass on an UP link without a counted frame and MAC_STAT.RX_IDLE is set. -/
  | rxIdleTimeout (n : Nat)
  /-- MAC_CNTCLR (R108). A write of MAC_CNTCLR clears the selected port counters. -/
  | macCntclr (n : Nat) (mask : Nat)
  /-- FRAME_TRANSMIT (R92). A frame starts transmission on a port after its size check, padding and one-step
  insertion. -/
  | frameTransmit (n : Nat) (phi : Nat)
  /-- DISCARD_TICK (R114). At each 25 ms tick, window positions older than 16 ticks are forgotten and empty source
  entries released. -/
  | discardTick
  /-- ST_MODE_WRITE (R111). A write of ST_MODE changes the station node between PRP and HSR only while both station
  ports are DOWN. -/
  | stModeWrite (v : Bool)
  /-- FDB_READ (R124). SWC_FDBCMD READ copies forwarding entry INDEX into SWC_FDBKEY and SWC_FDBACT. -/
  | fdbRead
  /-- FDB_WRITE (R124). SWC_FDBCMD WRITE replaces entry INDEX in one commit, or is refused for a duplicate key. -/
  | fdbWrite
  /-- INBUF_WRITE (R131). A write of SWC_INBUF sets a cell budget unless the budgets would exceed the buffer. -/
  | inbufWrite (p : Nat) (c : Nat) (v : Nat)
  /-- SWC_ICNT_READ (R131). A read of SWC_ICNT returns and clears the input counters. -/
  | swcIcntRead (r : Requester) (i : Nat) (c : Nat)
  /-- PRP_CLEAR_PB (R135). PRP_CNTCLR PB clears every counter of the PB node. -/
  | prpClearPb
  /-- PRP_CLEAR_ST (R135). PRP_CNTCLR ST clears every counter of the ST node. -/
  | prpClearSt
  /-- SV_FRAME (R140). Sesame takes an SV frame, finds its stream, authenticates and checks it, writes its records and
  offers their descriptors. -/
  | svFrame
  /-- STREAM_TIMEOUT (R151). The stream timer expires; the stream forgets its previous sample and a VALID stream goes
  LOST. -/
  | streamTimeout (n : Nat)
  /-- SVX_CLEAR_SEL (R156). SVX_SCLR SEL clears the counters of the selected stream. -/
  | svxClearSel
  /-- SVX_CLEAR_ALL (R156). SVX_SCLR ALL clears the counters of every stream. -/
  | svxClearAll
  /-- DISCOVERY_POP (R152). SVX_DISCPOP removes the oldest discovery entry. -/
  | discoveryPop
  /-- SVX_UNKNOWN_READ (R156). A read of SVX_UNKNOWN returns and clears its count. -/
  | svxUnknownRead (r : Requester)
  /-- SVX_PARSE_READ (R156). A read of SVX_PARSE returns and clears its count. -/
  | svxParseRead (r : Requester)
  /-- FILTER_STEP (R170). At a stream's share of its engine round, the engine takes pending descriptors, runs the
  stages and writes the tap outputs. -/
  | filterStep (n : Nat)
  /-- DC_FREEZE (R162). FLT_DCFRZ CMD 1 commands a freeze of every DCB stage of the stream, now or at smpCnt AT. -/
  | dcFreeze (now : Bool) (at_ : Nat)
  /-- DC_RELEASE (R162). FLT_DCFRZ CMD 2 commands the release of the freeze, now or at smpCnt AT. -/
  | dcRelease (now : Bool) (at_ : Nat)
  /-- DC_CANCEL (R162). FLT_DCFRZ CMD 3 cancels the pending freeze command. -/
  | dcCancel
  /-- FLT_CLEAR_SEL (R174). FLT_SCLR SEL clears the chain counters of the selected stream. -/
  | fltClearSel
  /-- FLT_CLEAR_ALL (R174). FLT_SCLR ALL clears the chain counters of every stream. -/
  | fltClearAll
  /-- GROUP_CYCLE_START (R177). A start edge of a tile-cycle group increments its cycle count, loads an armed preset,
  or is ignored as early. -/
  | groupCycleStart (g : Nat)
  /-- FREEWHEEL_START (R177). No start edge arrives within P + 2 µs and every tile of the group starts the cycle
  itself. -/
  | freewheelStart (g : Nat)
  /-- ARM_PRESET (R177). ELA_GRPCTL ARM arms ELA_GRPPRE to replace the cycle count at the next start. -/
  | armPreset (g : Nat)
  /-- FETCH (R178). At 1,000 ns before a slot window the sequencer snapshots the slot's point inputs. -/
  | fetch (tile : Nat) (slot : Nat)
  /-- CORE_WAKE (R178). WAKE × 10 ns before a window in use, the tile core is ungated. -/
  | coreWake (tile : Nat) (slot : Nat)
  /-- WINDOW_OPEN (R185). A slot window opens; the cursor advances or seats, bindings select records and the program
  runs. -/
  | windowOpen (tile : Nat) (slot : Nat)
  /-- PROGRAM_COMMIT (R191). The element program reaches END and the commit issues its buffered requests in node
  order. -/
  | programCommit (tile : Nat) (slot : Nat) (stalls : Nat)
  /-- BUDGET_STOP (R194). BUDGET cycles pass before the commit completes; the program overruns and issues nothing. -/
  | budgetStop (tile : Nat) (slot : Nat) (stalls : Nat)
  /-- WINDOW_CLOSE (R195). A slot window closes, applying a pending block or freeze of its tenant. -/
  | windowClose (tile : Nat) (slot : Nat)
  /-- SLOT_ECC_ERROR (R195). An uncorrectable error in slot memory blocks the tenant at once. -/
  | slotEccError (t : Nat)
  /-- ELA_CLEAR_SEL (R201). ELA_TCLR SEL clears the counters and PEAK of the selected tenant. -/
  | elaClearSel
  /-- ELA_CLEAR_ALL (R201). ELA_TCLR ALL clears the counters and PEAK of every tenant. -/
  | elaClearAll
  /-- TINJ_WRITE (R194). A write of ELA_TINJ adds cycles to the next executions of the selected tenant, only in
  lifecycle TEST. -/
  | tinjWrite (extra : Nat) (count : Nat)
  /-- ELA_GRPEV_READ (R201). A read of ELA_GRPEV returns and clears the free-wheel and early counts. -/
  | elaGrpevRead (r : Requester) (g : Nat)
  /-- PNT_READ (R197). PNT_CMD READ copies a point into PNT_DATA and PNT_TIME. -/
  | pntRead
  /-- PNT_WRITE (R199). PNT_CMD WRITE writes PNT_DATA and PNT_TIME to a point, only in lifecycle TEST. -/
  | pntWrite
  /-- POINT_WRITE (R199). A point write reaches the point database and is applied, refused for rights or handle, or
  discarded as stale. -/
  | pointWrite
  /-- PNT_REFUSED_READ (R201). A read of PNT_REFUSED returns and clears its count. -/
  | pntRefusedRead (r : Requester)
  /-- PNT_BADHANDLE_READ (R201). A read of PNT_BADHANDLE returns and clears its count. -/
  | pntBadhandleRead (r : Requester)
  /-- PNT_STALE_READ (R201). A read of PNT_STALE returns and clears its count. -/
  | pntStaleRead (r : Requester)
  /-- PUBLICATION_REQUEST (R205). A publication request reaches the publisher and makes a new state, is held pending,
  or is counted as SAME. -/
  | publicationRequest
  /-- PENDING_RELEASE (R207). At the first cycle its spacing allows, a pending state is released. -/
  | pendingRelease (i : Nat)
  /-- RETRANSMISSION (R208). A retransmission of the current state falls due and is released without agreement. -/
  | retransmission (i : Nat)
  /-- GOOSE_FRAME (R217). The subscriber takes a GOOSE frame, checks it against each matching entry and delivers or
  discards it. -/
  | gooseFrame
  /-- SUBSCRIPTION_TIMEOUT (R221). A subscription's timeout expires; it becomes STALE and its points are written
  invalid. -/
  | subscriptionTimeout (i : Nat)
  /-- GPB_CLEAR_SEL (R223). GPB_PCLR SEL clears the counters of the selected publication. -/
  | gpbClearSel
  /-- GPB_CLEAR_ALL (R223). GPB_PCLR ALL clears the counters of every publication. -/
  | gpbClearAll
  /-- GSB_CLEAR_SEL (R223). GSB_SCLR SEL clears the counters of the selected subscription. -/
  | gsbClearSel
  /-- GSB_CLEAR_ALL (R223). GSB_SCLR ALL clears the counters of every subscription. -/
  | gsbClearAll
  /-- GSB_UNKNOWN_READ (R223). A read of GSB_UNKNOWN returns and clears its count. -/
  | gsbUnknownRead (r : Requester)
  /-- HELLO (R230). An accepted HELLO from the partner moves the pairing state to HANDSHAKE where the table allows. -/
  | hello
  /-- HEARTBEAT (R227). An accepted HEARTBEAT updates PAR_POFS, PAR_PDLY, group skew and the partner's run map. -/
  | heartbeat
  /-- DIGEST (R239). A partner DIGEST is matched against the local state to release it AGREED or DIVERGED, or is held.
  -/
  | digest
  /-- SUMMARY (R243). A partner SUMMARY is compared with the own summary and closes a disagreement when they match. -/
  | summary
  /-- NOTICE (R235). A partner NOTICE sets the common delivery cycle of a held class H GOOSE delivery. -/
  | notice
  /-- SEAT (R236). A partner SEAT message proposes a cursor phase and activation cycle for a class H tenant. -/
  | seat
  /-- JOIN_MESSAGE (R237). A partner JOIN message carries a join request or a join record. -/
  | joinMessage
  /-- SNAPSHOT (R247). The standby receives SNAPSHOT blocks and keeps the last snapshot whose tag verified. -/
  | snapshot
  /-- HEALTH (R250). A partner HEALTH message is placed in SGE_PREP. -/
  | health
  /-- CAPFIRE (R379). A partner CAPFIRE fires the own capture group of the same master, converted by PAR_POFS. -/
  | capfire
  /-- SUPMSG (R253). A partner SUPMSG carries opaque supervisor messages such as agreed activation values. -/
  | supmsg
  /-- BEACON (R228). A beacon from the partner over the station node is accepted and resets beacon silence. -/
  | beacon
  /-- HELLO_SEND (R225). Every 10 ms while not PAIRED the pairing block sends HELLO. -/
  | helloSend
  /-- HEARTBEAT_SEND (R225). Every 100 µs the pairing block sends HEARTBEAT with exchange stamps. -/
  | heartbeatSend
  /-- BEACON_SEND (R228). Every 1 ms the pairing block sends a beacon over the station node. -/
  | beaconSend
  /-- SILENCE_DETECT (R230). Silence on the partner link reaches DETECT and the pairing state becomes ISOLATED or
  LOST. -/
  | silenceDetect
  /-- BEACON_SILENCE_DETECT (R230). Beacon silence reaches DETECT and ISOLATED becomes LOST. -/
  | beaconSilenceDetect
  /-- HANDSHAKE_TIMEOUT (R230). HANDSHAKE lasts 1 s without PAIRED and returns to SEEK. -/
  | handshakeTimeout
  /-- AGREEMENT_WINDOW_EXPIRY (R239). WINDOW passes without a partner DIGEST and the state is released ALONE. -/
  | agreementWindowExpiry (t : Nat) (pubno : Nat)
  /-- DIGEST_HOLD_EXPIRY (R239). A held partner DIGEST finds no local state by its deadline and counts as UNMATCHED.
  -/
  | digestHoldExpiry (i : Nat)
  /-- NOTICE_DELIVERY_APPLY (R235). Just before the fetch instant of cycle D, held class H deliveries and timeout
  writes are applied. -/
  | noticeDeliveryApply (t : Nat)
  /-- SEAT_ACTIVATION (R236). At the agreed activation cycle a class H tenant seats or re-seats with the common phase.
  -/
  | seatActivation (t : Nat)
  /-- JOINWAIT_EXPIRY (R236). No partner SEAT arrives within JOINWAIT and the tenant seats alone. -/
  | joinwaitExpiry (t : Nat)
  /-- SILENCE (R244). PAR_TCMD SILENCE makes the publisher build and discard the tenant's frames. -/
  | silence
  /-- UNSILENCE (R244). PAR_TCMD UNSILENCE ends the silence of the tenant. -/
  | unsilence
  /-- JOIN (R237). PAR_TCMD JOIN asks the donor for a join at the donor's count plus 2. -/
  | join
  /-- SHIP (R246). PAR_TCMD SHIP takes and ships a class C snapshot at once. -/
  | ship
  /-- TAKEOVER (R248). PAR_TCMD TAKEOVER restores the kept snapshot and starts the class C tenant as at a warm
  restart. -/
  | takeover
  /-- PAIR_RELEASE (R248). PAR_TCMD RELEASE stops an active class C tenant and returns it to standby. -/
  | pairRelease
  /-- JOIN_CAPTURE (R237). At the close of window j the donor captures the join record and sends it. -/
  | joinCapture (t : Nat)
  /-- JOIN_APPLY (R237). The joiner applies a timely join record with matching TEN_SEQ and enters RUN at window j + 1,
  or counts JOIN_FAIL. -/
  | joinApply (t : Nat)
  /-- SNAPSHOT_TAKE (R246). Every SNAP ms the active module snapshots each active class C tenant and ships it, or
  skips it. -/
  | snapshotTake (t : Nat)
  /-- PAR_CLEAR_LINK (R255). PAR_TCLR LINK clears PAR_LCNT. -/
  | parClearLink
  /-- PAR_CLEAR_ALL (R255). PAR_TCLR ALL clears the pairing counters of every tenant. -/
  | parClearAll
  /-- PAR_CLEAR_SEL (R255). PAR_TCLR SEL clears the pairing counters of the selected tenant. -/
  | parClearSel
  /-- HEALTH_REPORT (R250). Every 100 ms Sage writes the health report to SGE_LREP and sends it to the partner and
  hosts. -/
  | healthReport
  /-- PARTNER_REPORT_LOST (R250). No partner report arrives for 300 ms and PREP_LOST is set. -/
  | partnerReportLost
  /-- TILE_BIST (R249). Sage runs the rotating BIST of a tile in an idle slot and records a failure. -/
  | tileBist (tile : Nat) (fail : Bool)
  /-- SRAM_SCRUB (R249). Sage scrubs on-die SRAM, correcting single-bit errors and reporting uncorrectable ones. -/
  | sramScrub (corr : Nat) (uncorr : Bool) (slot : Option SramPlace)
  /-- DRAM_SCRUB (R249). Sage scrubs DRAM and reports uncorrectable errors. -/
  | dramScrub (corr : Nat) (uncorr : Option DramPlace)
  /-- PORT_LOOPBACK (R249). Every 10 s Sage runs the SerDes loopback of each OFF port, or SPARE port that is DOWN. -/
  | portLoopback (n : Nat) (fail : Bool)
  /-- REGULATOR_CHECK (R391). Every 10 ms Sage checks each rail and VIN_SERDES against its window. -/
  | regulatorCheck (rails : Nat) (serdesLow : Bool)
  /-- TEMPERATURE_CHECK (R249). Every 10 ms Sage reads the junction sensors against the 105 °C limit. -/
  | temperatureCheck (temp : Int)
  /-- RUNTIME_TICK (R257). A runtime tick increments SCH_TICK and activates the cyclic tasks due. -/
  | runtimeTick
  /-- FREEWHEEL_TICK (R257). No tick arrives within 252 µs and every core makes the tick itself. -/
  | freewheelTick
  /-- EVENT_ACTIVATION (R261). A point change, GOOSE delivery or timed trigger queues an activation of an event task.
  -/
  | eventActivation
  /-- ACTIVATION_END (R262). A task activation ends and its output image is written at boundary 9. -/
  | activationEnd (t : Nat) (k : Nat) (r : SchResult)
  /-- WDOG_ABORT (R264). An event activation still running WDOG ticks after its start is aborted. -/
  | wdogAbort (t : Nat) (k : Nat)
  /-- START_WARM (R265). SCH_TCMD START_WARM starts a stopped scheme program keeping its retained variables. -/
  | startWarm
  /-- START_COLD (R265). SCH_TCMD START_COLD starts a stopped scheme program with every variable initialised. -/
  | startCold
  /-- SCH_STOP (R266). SCH_TCMD STOP stops the scheme program. -/
  | schStop
  /-- CHG_STAGE (R269). SCH_TCMD CHG_STAGE starts checking and loading an online change package. -/
  | chgStage (pkg : Option ChgPkg)
  /-- CHANGE_STAGED (R269). The change package checks end and the change is STAGED or failed. -/
  | changeStaged (t : Nat)
  /-- CHG_COMMIT (R269). SCH_TCMD CHG_COMMIT arms the switch at the next common cycle boundary. -/
  | chgCommit
  /-- CHG_DISCARD (R269). SCH_TCMD CHG_DISCARD discards the staged change. -/
  | chgDiscard
  /-- CHANGE_SWITCH (R270). At the common cycle boundary the runtime carries data over and switches to the new
  program. -/
  | changeSwitch (t : Nat)
  /-- CHANGE_TIMEOUT (R269). No common cycle boundary comes within WAIT and the change fails with TIMEOUT. -/
  | changeTimeout (t : Nat)
  /-- SCH_CLEAR_SEL (R274). SCH_TCLR SEL clears the counters and PEAK of the selected tenant. -/
  | schClearSel
  /-- SCH_CLEAR_ALL (R274). SCH_TCLR ALL clears the counters and PEAK of every tenant. -/
  | schClearAll
  /-- SCH_TICKEV_READ (R274). A read of SCH_TICKEV returns and clears the free-wheel tick count. -/
  | schTickevRead (r : Requester)
  /-- LOOP_PASS (R278). A loop-engine start edge begins a pass that latches inputs and evaluates each loop in order.
  -/
  | loopPass
  /-- LOOP_FREEWHEEL (R278). No start edge arrives within Ts + 2 µs and the engine starts the pass itself. -/
  | loopFreewheel
  /-- LOOP_RUN (R286). LOP_CMD RUN puts the loop in RUN bumplessly at its next evaluation. -/
  | loopRun (n : Nat)
  /-- LOOP_HOLD (R286). LOP_CMD HOLD holds the loop's output at its next evaluation. -/
  | loopHold (n : Nat)
  /-- LOOP_SAFE (R286). LOP_CMD SAFE ramps the loop's output to SAFE with cause COMMAND. -/
  | loopSafe (n : Nat)
  /-- LOOP_OFF (R286). LOP_CMD OFF stops the loop's output writes. -/
  | loopOff (n : Nat)
  /-- COEF_WRITE (R290). A write of a loop coefficient word is checked and applied, or ignored with COEF_REFUSED. -/
  | coefWrite (n : Nat) (w : Nat) (v : Nat)
  /-- GAIN_WRITE (R290). A write of a gain table entry applies unless NaN or infinite. -/
  | gainWrite (g : Nat) (i : Nat) (v : Nat)
  /-- LOP_EV_READ (R293). A read of LOP_EV returns and clears the edge event counts. -/
  | lopEvRead (r : Requester)
  /-- LOP_FCNT_READ (R293). A read of LOP_FCNT returns and clears the loop's fault counts. -/
  | lopFcntRead (r : Requester) (n : Nat)
  /-- ADC_SCAN (R296). ADC_CMD SCAN requests a scan of the SCANMASK inputs. -/
  | adcScan (k : Nat)
  /-- ADC_INJECT (R296). ADC_CMD INJECT requests an injection, aborting a running scan conversion. -/
  | adcInject (k : Nat)
  /-- ADC_CAL (R295). ADC_CMD CAL requests a calibration, refused while the reference is not settled. -/
  | adcCal (k : Nat)
  /-- ADC_STOP (R296). ADC_CMD STOP ends a running scan after its conversion and discards a pending scan. -/
  | adcStop (k : Nat)
  /-- CONVERTER_FIRE (R295). A Thyme fire of TARGET 1 or 2 requests a scan or injection as TGT selects. -/
  | converterFire (k : Nat)
  /-- CONVERSION_DONE (R300). A conversion ends; its corrected result, raw code and stamp are written and the next
  request served. -/
  | conversionDone (k : Nat) (code : Int)
  /-- CALIBRATION_DONE (R301). A calibration ends and replaces ADC_SELFCAL, unless the reference was disabled. -/
  | calibrationDone (k : Nat) (gain : Nat) (ofs : Nat)
  /-- REFERENCE_ENABLE (R298). A write of ADC_REF.EN enables or disables the reference buffer. -/
  | referenceEnable (en : Bool)
  /-- REFERENCE_SETTLED (R298). 2 ms after enable the reference is settled and SETTLED is set. -/
  | referenceSettled
  /-- CONVERTER_DISABLE (R302). Clearing ADC_CFG.EN ends every activity and discards pending requests. -/
  | converterDisable (k : Nat)
  /-- ADC_RES_READ (R300). A read of ADC_RES clears NEW and OVW and latches the result stamp. -/
  | adcResRead (r : Requester) (i : Nat)
  /-- ADC_EV_READ (R304). A read of ADC_EV returns and clears the converter event counts. -/
  | adcEvRead (r : Requester) (k : Nat)
  /-- CAN_FRAME_RX (R315). A CAN frame received without error is stamped and written to the ring, or dropped when the
  ring is full. -/
  | canFrameRx (k : Nat) (f : CanFrame) (sof : Nat)
  /-- CAN_ERROR (R309). A detected bus error is written as an ERROR entry and the error counters and state change. -/
  | canError (k : Nat) (lec : Nat) (own : Option CanOwn) (major : Bool)
  /-- CAN_TX_REQ (R310). CAN_TXCMD REQ makes a transmit buffer pending. -/
  | canTxReq (k : Nat) (mask : Nat)
  /-- CAN_TX_CANCEL (R313). CAN_TXCMD CANCEL removes a pending buffer or marks its frame CANCEL_LATE. -/
  | canTxCancel (k : Nat) (mask : Nat) (busy : Option Nat)
  /-- CAN_TX_COMPLETE (R314). A transmission completes and its result and stamp are written. -/
  | canTxComplete (k : Nat) (sof : Nat) (lost : Bool) (tdc : Nat)
  /-- RRD_WRITE (R316). A write of CAN_RRD frees ring entries when it lies between RRD and RWR. -/
  | rrdWrite (k : Nat) (v : Nat)
  /-- NODE_WATCH_TIMEOUT (R318). An enabled node watch is not met for TMO ms and is marked lost. -/
  | nodeWatchTimeout (k : Nat) (m : Nat)
  /-- STUCK_DOMINANT (R319). CANn_RXD stays dominant for 2 ms and transmission is stopped. -/
  | stuckDominant (k : Nat)
  /-- INIT_SET (R308). Setting INIT puts the controller in INIT at the end of the current frame. -/
  | initSet (k : Nat) (busy : Bool)
  /-- INIT_CLEAR (R306). Clearing INIT leaves INIT only when the timing is valid, else CFG_REFUSED. -/
  | initClear (k : Nat)
  /-- CAN_CNT_READ (R321). A read of CAN_CNT returns and clears the controller counter. -/
  | canCntRead (r : Requester) (k : Nat) (j : Nat)
  /-- START (R330). TEN_CMD START puts an out-of-service tenant in service. -/
  | start (t : Nat) (via : Option Nat)
  /-- RESET (R341). TEN_CMD RESET increments the generation and drains the tenant. -/
  | reset (t : Nat) (via : Option Nat)
  /-- FREEZE (R330). TEN_CMD FREEZE sets FREEZING until scheme and element are frozen. -/
  | freeze (t : Nat) (via : Option Nat)
  /-- FREEZE_TIMEOUT (R330). FREEZING lasts 1 s and the freeze ends with result TIMEOUT. -/
  | freezeTimeout (t : Nat)
  /-- RESUME (R330). TEN_CMD RESUME returns a frozen tenant to service as saved. -/
  | resume (t : Nat) (via : Option Nat)
  /-- SAVE (R346). TEN_CMD SAVE starts writing the encrypted snapshot of a frozen tenant by DMA. -/
  | save (t : Nat) (via : Option Nat)
  /-- SAVE_DONE (R348). The snapshot has been written and SAVE ends with its result. -/
  | saveDone (t : Nat) (ok : Bool)
  /-- RESTORE (R347). TEN_CMD RESTORE starts reading and checking a snapshot. -/
  | restore (t : Nat) (via : Option Nat)
  /-- RESTORE_DONE (R347). The snapshot checks end and the tenant is restored into service, or left unchanged. -/
  | restoreDone (t : Nat) (snap : Option Snapshot)
  /-- RELEASE (R196). TEN_CMD RELEASE ends BLOCKED and seats the tenant with initialised state. -/
  | release (t : Nat) (via : Option Nat)
  /-- DOORBELL (R335). A write to MBX_H2D_DB marks request slots full for the device to take in order. -/
  | doorbell (w : Nat) (mask : Nat)
  /-- D2H_SLOT_FREE (R337). A write of 1 to MBX_D2H_DB frees a reply slot and lets held items be written. -/
  | d2hSlotFree (w : Nat) (mask : Nat)
  /-- MAILBOX_REPLY (R335). The device writes a reply or notification to a free slot, sets its doorbell bit and raises
  vector 0. -/
  | mailboxReply (w : Nat)
  /-- MAILBOX_TIMEOUT (R336). A request unanswered 450 ms after its doorbell is answered TIMEOUT. -/
  | mailboxTimeout (w : Nat)
  /-- INFO (R338). The INFO message returns the tenant's identity, state and program digests. -/
  | info (t : Nat)
  /-- FORCE_SET (R268). The FORCE_SET message binds a forced value to a point of the tenant's scheme program. -/
  | forceSet (t : Nat)
  /-- FORCE_CLEAR (R268). The FORCE_CLEAR message removes one force or all. -/
  | forceClear (t : Nat)
  /-- FORCE_LIST (R338). The FORCE_LIST message returns up to 4 forces. -/
  | forceList (t : Nat)
  /-- SCH_CMD (R338). The SCH_CMD message starts or stops the tenant's scheme program. -/
  | schCmd (t : Nat)
  /-- MBX_CHG_STAGE (R338). The CHG_STAGE message stages an online change for the tenant. -/
  | mbxChgStage (t : Nat) (pkg : Option ChgPkg)
  /-- MBX_CHG_COMMIT (R338). The CHG_COMMIT message commits the staged online change. -/
  | mbxChgCommit (t : Nat)
  /-- MBX_CHG_DISCARD (R338). The CHG_DISCARD message discards the staged online change. -/
  | mbxChgDiscard (t : Nat)
  /-- CAN_SEND (R338). The CAN_SEND message sends a frame on a controller within CANRIGHTS. -/
  | canSend (t : Nat)
  /-- TIME (R338). The TIME message returns the synchronisation state, UTC offset and last step. -/
  | time (t : Nat)
  /-- AMD_STAGE (R338). The AMD_STAGE message stages an amendment record for a tenant of its link. -/
  | amdStage (link : Nat) (r : Option AmdObj)
  /-- AMD_COMMIT (R338). The AMD_COMMIT message commits a staged amendment with its ACT_CYCLE. -/
  | amdCommit (link : Nat)
  /-- AMD_DISCARD (R338). The AMD_DISCARD message empties a staging slot. -/
  | amdDiscard (link : Nat)
  /-- ATTEST (R365). The ATTEST message queues an attestation request with its nonce. -/
  | attest (link : Nat)
  /-- SQ_TAIL_WRITE (R342). A write of QP_SQTAIL posts descriptors, or is ignored while FULL or past capacity. -/
  | sqTailWrite (w : Nat) (q : Nat) (v : Nat)
  /-- CQ_HEAD_WRITE (R342). A write of QP_CQHEAD frees completion entries. -/
  | cqHeadWrite (w : Nat) (q : Nat) (v : Nat)
  /-- QP_ENABLE (R343). A write of QP_CFG.EN enables or stops a queue pair and clears ERROR. -/
  | qpEnable (w : Nat) (q : Nat) (v : Nat)
  /-- DESCRIPTOR_FETCH (R342). While it holds a boundary-14 credit the device fetches the next descriptor of a queue
  pair. -/
  | descriptorFetch (w : Nat) (q : Nat) (d : Desc)
  /-- PT_READ (R343). A PT_READ descriptor copies point records to the host under the tenant's rights. -/
  | ptRead (w : Nat) (q : Nat) (handles : List Nat)
  /-- PT_WRITE (R343). A PT_WRITE descriptor writes point records from the host under the tenant's rights. -/
  | ptWrite (w : Nat) (q : Nat) (recs : List (Nat × Nat × Nat))
  /-- RING_READ (R343). A RING_READ descriptor copies raw or tap records of a consumed stream. -/
  | ringRead (w : Nat) (q : Nat)
  /-- CAP_READ (R380). A CAP_READ descriptor reads the oldest complete record of a capture unit. -/
  | capRead (w : Nat) (q : Nat)
  /-- QP_CAN_SEND (R343). A CAN_SEND descriptor sends a whole CAN frame. -/
  | qpCanSend (w : Nat) (q : Nat) (frame : List Byte)
  /-- NOP (R343). A NOP descriptor completes without effect. -/
  | nop (w : Nat) (q : Nat)
  /-- RX_BUF (R344). An RX_BUF descriptor posts a receive buffer on a virtual-port ring. -/
  | rxBuf (link : Nat) (cls : Nat)
  /-- TX_FRAME (R344). A TX_FRAME descriptor sends one host frame through the virtual port. -/
  | txFrame (link : Nat) (frame : Frame)
  /-- HOST_RX_DELIVERY (R344). A frame for a host virtual port is written to a posted buffer with its receive
  completion. -/
  | hostRxDelivery (link : Nat) (cls : Nat)
  /-- DMA_TIMEOUT (R326). A DMA read gets no completion in 50 ms and its queue pair or command ends in error. -/
  | dmaTimeout (w : Nat) (q : Option Nat)
  /-- TEN_PT_READ (R333). TEN_PTCMD READ reads a point within the tenant's read rights. -/
  | tenPtRead (t : Nat) (via : Option Nat)
  /-- TEN_PT_WRITE (R333). TEN_PTCMD WRITE writes a point within the tenant's write rights. -/
  | tenPtWrite (t : Nat) (via : Option Nat)
  /-- FUNCTION_LEVEL_RESET (R327). A Function Level Reset of a virtual function resets its mailbox and queue-pair
  registers. -/
  | functionLevelReset (link : Nat) (vf : Nat)
  /-- HOST_LINK_RESET (R327). A physical-function FLR, hot reset or link loss acts as an FLR of every function of the
  link. -/
  | hostLinkReset (link : Nat) (loss : Bool)
  /-- PERST_RELEASE (R404). Release of HST_PERST_N lets the host link train after phase 2. -/
  | perstRelease (link : Nat)
  /-- TEN_CNT_READ (R350). A read of TEN_CNT returns and clears the tenant counter. -/
  | tenCntRead (r : Requester) (t : Nat) (k : Nat)
  /-- DERIVE (R354). KVS_CMD DERIVE fills the staging with a key derived from a DERIVE parent. -/
  | derive
  /-- IMPORT (R354). KVS_CMD IMPORT unwraps a key blob into the staging under a WRAP parent. -/
  | importKey (blob : Option KeyBlob)
  /-- GENERATE (R354). KVS_CMD GENERATE fills the staging from the random-bit generator. -/
  | generate
  /-- VERIFY (R355). KVS_CMD VERIFY compares the staged key's check value with KVS_KCV. -/
  | verify
  /-- KEY_COMMIT (R356). KVS_CMD COMMIT replaces the slot's key with the verified staging at one instant. -/
  | keyCommit
  /-- KEY_DISCARD (R356). KVS_CMD DISCARD empties the slot's staging. -/
  | keyDiscard
  /-- INVALIDATE (R357). KVS_CMD INVALIDATE erases a slot and orphans its active descendants. -/
  | invalidate
  /-- VAULT_INIT (R363). KVS_CMD VAULT_INIT erases every slot record, draws a new vault root and issues the
  attestation key. -/
  | vaultInit
  /-- KEY_COMMAND_DONE (R356). A Hazel command completes and reports its result. -/
  | keyCommandDone
  /-- EXPIRY_CHECK (R359). Once a second while locked Hazel compares each NOTAFTER with device time and stores
  remaining grace. -/
  | expiryCheck
  /-- GRACE_END (R357). An orphan's grace end is reached and the slot becomes EXPIRED. -/
  | graceEnd (n : Nat)
  /-- TAMPER (R361). An enabled tamper source is detected and the vault root and volatile key tier are cleared within
  1 µs. -/
  | tamper (src : Nat)
  /-- ZEROISE (R360). TMP_CMD ZEROISE with key 0xA5 fires tamper source 6. -/
  | zeroise (key : Nat)
  /-- IDENTITY_REDERIVE (R363). After TMP_STAT.ACTIVE clears, Hazel derives slot 2 again from slot 0. -/
  | identityRederive (levels : Nat)
  /-- APPLY (R364). ATT_LCCMD APPLY checks a lifecycle token, burns the fuse and starts the erasure. -/
  | apply (token : Option LcToken)
  /-- ERASURE_DONE (R364). The lifecycle erasure completes and ERASE_PEND clears. -/
  | erasureDone
  /-- REQUEST (R365). ATT_CMD REQUEST queues an attestation request with ATT_NONCE and ATT_ADDR. -/
  | request
  /-- STATEMENT_BUILD (R366). At its turn, Hazel captures, signs and writes an attestation statement. -/
  | statementBuild (ok : Bool)
  /-- RECORD_WRITE (R371). Walnut writes the next queued record with its snapshot and CRC to MRAM. -/
  | recordWrite
  /-- SWTRIG (R368). A write of EVR_SWTRIG fires software source 48 + SRC. -/
  | swtrig (src : Nat) (arg : Nat)
  /-- EVR_CNT_READ (R385). A read of EVR_CNT returns and clears the Walnut counter. -/
  | evrCntRead (r : Requester) (k : Nat)
  /-- ROW_CLOSE (R375). A capture row closes when its values are present or CLOSE µs pass, and is stored in the
  record. -/
  | rowClose (u : Nat)
  /-- DCR_ARM (R377). DCR_CMD ARM arms every unit of the master's group. -/
  | dcrArm
  /-- DCR_DISARM (R377). DCR_CMD DISARM returns every unit of the master's group to IDLE. -/
  | dcrDisarm
  /-- DCR_FIRE (R378). DCR_CMD FIRE fires the group of the selected unit. -/
  | dcrFire
  /-- DCR_FREE (R380). DCR_CMD FREE frees the oldest complete record of the selected unit. -/
  | dcrFree
  /-- HOLDOFF_END (R377). The hold-off ends and the unit rearms or goes IDLE. -/
  | holdoffEnd (u : Nat)
  /-- DCR_UCNT_READ (R385). A read of DCR_UCNT returns and clears the unit counter. -/
  | dcrUcntRead (r : Requester) (k : Nat)
  /-- LTL_INC (R382). A write of LTL_INC adds to a firmware counter, or is refused for a hardware counter. -/
  | ltlInc (c : Nat) (add : Nat)
  /-- LTL_HADD (R382). A write of LTL_HADD adds to a firmware histogram bin, or is refused for a hardware histogram.
  -/
  | ltlHadd (h : Nat) (b : Nat) (add : Nat)
  /-- HISTOGRAM_SAMPLE (R382). At its period, Almond samples a hardware histogram quantity and adds to its bin. -/
  | histogramSample (h : Nat)
  /-- ON_SECONDS_TICK (R382). Each second with main power Almond increments ON_SECONDS and, when hot, HOT_SECONDS. -/
  | onSecondsTick
  /-- ALMOND_FLUSH (R383). Almond writes its pending changes to the alternating MRAM copies within 10 ms. -/
  | almondFlush
  /-- RANK_OPEN (R405). 1 s after the previous rank opened, the next start rank opens. -/
  | rankOpen
  /-- TENANT_AUTOSTART (R405). A tenant of an open rank is started once the condition for its class holds. -/
  | tenantAutostart (t : Nat)
  /-- START_END (R406). Start-up ends when every tenant has started or TMO seconds pass, and pending tenants are
  reported. -/
  | startEnd
  /-- SYSRST_ASSERT (R398). SYSRST_N goes low and every domain but the kept ones is held in reset. -/
  | sysrstAssert
  /-- SYSRST_RELEASE (R398). SYSRST_N is released, PAIR_SIDE is latched and start-up begins at the supervisor phase.
  -/
  | sysrstRelease (pins : LatchPins)
  /-- WARM_RESTART_CMD (R397). SYS_RSTCMD KIND 1 with key 0xC3 starts a supervisor warm restart. -/
  | warmRestartCmd (key : Nat)
  /-- SYSRST_CMD (R397). SYS_RSTCMD KIND 2 with key 0xC3 causes a SYSRST_N reset. -/
  | sysrstCmd (key : Nat)
  /-- WDOG_KICK (R399). A write of 0x5A to SYS_WDOG.KICK restarts the watchdog period. -/
  | wdogKick (key : Nat)
  /-- WATCHDOG_EXPIRY (R399). The watchdog period passes without a kick and a supervisor warm restart starts. -/
  | watchdogExpiry
  /-- BROWN_OUT (R392). VIN_MAIN below 2.85 V for 2 µs is a loss of main power, leaving STANDBY on VBAT. -/
  | brownOut
  /-- SUPPLY_WARNING (R392). VIN_MAIN below 3.05 V for 2 µs sets WARN and flushes Almond. -/
  | supplyWarning
  /-- WARNING_CLEAR (R392). VIN_MAIN above 3.1 V for 1 ms clears WARN. -/
  | warningClear
  /-- RAIL_FAULT (R391). A rail outside ±10 % for 10 µs causes a power-on reset. -/
  | railFault
  /-- VBAT_LOSS (R397). VBAT falls below 1.5 V; BAT content is lost without main power, otherwise VBAT_LOW is set. -/
  | vbatLoss
  /-- DOMAIN_OFF (R389). PWR_DCMD OFF switches off domain 14 or 15. -/
  | domainOff (d : Nat)
  /-- DOMAIN_ON (R389). PWR_DCMD ON switches domain 14 or 15 on again. -/
  | domainOn (d : Nat)
  /-- DOMAIN_RESET (R389). PWR_DCMD RESET resets a tile-quarter or scheme domain. -/
  | domainReset (d : Nat)
  /-- DOMAIN_TRANSITION_DONE (R389). A domain switch-on or reset completes and TRANSITION clears. -/
  | domainTransitionDone (d : Nat)
  /-- PLL_STOP (R393). 1 ms after the last domain needing it is off, a PLL stops. -/
  | pllStop (p : Nat)
  /-- SMBUS_BLOCK_READ (R426). An SMBus Block Read returns the register its command code selects, latching the report
  at code 0x10. -/
  | smbusBlockRead (code : Nat)
  /-- SMBUS_ALERT_RESPONSE (R424). An Alert Response Address read answered with the device's address releases
  SMB_ALERT_N. -/
  | smbusAlertResponse (won : Bool)
  /-- JTAG_INSTRUCTION (R425). A JTAG instruction is accepted, or pin-control instructions select BYPASS unless
  SYSRST_N is low. -/
  | jtagInstruction (ins : JtagIns)
  /-- CELL_TIME (R129). In each 12.8 ns cell time the fabric runs three request-grant-accept iterations and moves one
  cell per matched input and output. -/
  | cellTime
  /-- FRAME_TRANSMITTED (R130). A frame finishes transmission; TX_FRAMES and TX_OCTETS count it and the egress stage
  frees its position for the waiting frame. -/
  | frameTransmitted (n : Nat)
  /-- SUPERVISOR_FRAME_SEND (R120). The supervisor or Thyme hands a frame, such as a host-side Sync or a PRP
  supervision frame, to fabric input 13 for classification and twinning. -/
  | supervisorFrameSend (f : Frame) (thyme : Bool)
  /-- PULSE_IN_EDGE (R282). A filtered rising edge on PULSE_IN0 to PULSE_IN3 is counted and clears the input's LOST
  bit. -/
  | pulseInEdge (p : PulseEdge)
  /-- HOST_LINK_UP (R404). A host link completes training, HST_LINKSTAT.UP is set and Walnut source HST_LINK fires for
  up. -/
  | hostLinkUp (link : Nat) (width : Nat) (speed : Nat) (vfen : Nat)
  /-- BUS_OFF_RECOVERY (R319). A bus-off controller completes recovery under the standard and returns to error active
  with STATE_CHG set. -/
  | busOffRecovery (k : Nat)
  /-- STUCK_DOMINANT_RELEASE (R319). After a stuck-dominant condition or an error in LISTEN or RESTRICTED, 11
  recessive bits are seen and transmission or participation resumes. -/
  | stuckDominantRelease (k : Nat)
  /-- AUTONEG_FAIL (R88). A 1000BASE-X Clause 37 negotiation finds no full duplex, sets AN_FAIL, keeps the port down
  and restarts negotiation. -/
  | autonegFail (n : Nat) (rf : Nat)
deriving DecidableEq, Repr

end Sys2Proof
end

