-- ==== Sys2Proof/Decode.lean ====
section
/-! DEFINITION. The host's reading of table words. The command table gives no row any bits (its rows list no fields), so
no word spells a command. -/
namespace Sys2Proof

/-- The command that a word of the table's bits spells: none, since no row of the table has bits. -/
def decodeTableWord (_nbits _w : Nat) : Option Instr := none

end Sys2Proof
end

