-- ==== Sys2Proof/Registers.lean ====
section
/-! DEFINITION. The names of the registers of the management space (Tables 19-1 and 19-2), written from the
spec's register sections, and the retention classes of Table 00-4. Their addresses, reset values and access
codes are in Machine/RegTable.lean. -/
namespace Sys2Proof

/-- The retention classes of Table 00-4. -/
inductive Retention where
  | nv | bat | por | sys | sup | dom | ten
deriving DecidableEq, Repr

/-- Every register of Table 19-1 and of a tenant window (Table 19-2), by its name in the manual.
An indexed register is one name; its indexes are arguments wherever it is used. -/
inductive Reg where
  | SYS_ID | SYS_RSTCAUSE | SYS_RSTCMD | SYS_WDOG | SYS_STARTCFG | SYS_STARTSTAT | SYS_PSEL | SYS_PREASON
  | SYS_BOOTCFG | SYS_BOOTSTAT | SYS_IMGSTAT | SYS_IMGVER | SYS_ROLLFLOOR | SYS_SEAL | SYS_AMDSEL
  | SYS_AMDADDR | SYS_AMDCMD | SYS_AMDACT | SYS_AMDSTAT | SYS_AMDJRNL | SYS_PENDMAP | PWR_STAT | PWR_IE
  | PWR_DSTAT | PWR_DCMD | PWR_VMON | CLK_STAT | TMB_FRC | TMB_DT | TMB_OFS | TMB_ANC | TMB_RATE
  | TMB_RATE_NX | TMB_OFS_NX | TMB_ANC_NX | TMB_CMT_AT | TMB_CMT | TMB_STEPLIM | TMB_LASTSTEP | TMB_SYNC
  | TMB_HOLD | TMB_STAT | TMB_IE | TMB_RTC | TMB_PTPCFG | TMB_PTPUNS | TMB_SRVCFG | TMB_SRVOFS | TMB_PPSCFG
  | TMB_PPSIN_NS | TMB_PDLY | TMB_ASYM | TMB_PDRAW | TTU_SCHED_NS | TTU_SCHED_FR | TTU_SCHED_CMD
  | TTU_SCHED_STAT | TTU_CHCFG | TTU_CHSTAT | TTU_CHNEXT_NS | TTU_CHPREM | TTU_CHPER | TTU_CHLAST_NS
  | MAC_CFG | MAC_LINKCFG | MAC_PAUSECFG | MAC_STAT | MAC_IE | MAC_FILTCTL | MAC_CNTCLR | MAC_FENT
  | MAC_FMASK | MAC_CNT | MAC_HASH | SWC_PCFG | SWC_PCPMAP | SWC_DEFACT | SWC_FDBSEL | SWC_FDBKEY
  | SWC_FDBACT | SWC_FDBCMD | SWC_STAT | SWC_INBUF | SWC_ICNT | SWC_HSA | SWC_PCNT | PRP_NODECFG | PRP_STAT
  | PRP_SRCUSE | PRP_CNTCLR | PRP_CNT | SVX_CTL | SVX_STAT | SVX_IE | SVX_SUMMARY | SVX_UNKNOWN | SVX_PARSE
  | SVX_SSEL | SVX_SSTATE | SVX_SLAST | SVX_SWIDX | SVX_SLASTTS | SVX_SCLR | SVX_SCNT | SVX_DISCPOP
  | SVX_DISC_SA | SVX_DISC_INFO | SVX_DISC_CONF | SVX_DISC_TS | SVX_DISC_FRAMES | SVX_DISC_SVID | FLT_STAT
  | FLT_IE | FLT_SSEL | FLT_SSTATE | FLT_DCFRZ | FLT_SCLR | FLT_TAPGD | FLT_SCNT | FLT_ENGLOAD | ELA_STAT
  | ELA_IE | ELA_GRPCFG | ELA_GRPCNT | ELA_GRPPRE | ELA_GRPCTL | ELA_GRPEV | ELA_TSEL | ELA_TSTATE
  | ELA_TBUDGET | ELA_TUSE | ELA_TCUR | ELA_TCLR | ELA_TINJ | ELA_TCNT | ELA_TILECFG | ELA_TILESTAT
  | ELA_BLKMAP | PNT_STAT | PNT_IE | PNT_HANDLE | PNT_CMD | PNT_DATA | PNT_TIME | PNT_REFUSED
  | PNT_BADHANDLE | PNT_STALE | GPB_STAT | GPB_IE | GPB_UTCOFS | GPB_PSEL | GPB_PSTNUM | GPB_PSQNUM
  | GPB_PNEXT | GPB_PCLR | GPB_PCNT | GSB_STAT | GSB_IE | GSB_UNKNOWN | GSB_SSEL | GSB_SSTATE | GSB_SSTNUM
  | GSB_SSQNUM | GSB_SLASTTS | GSB_SCLR | GSB_SCNT | SCH_STAT | SCH_IE | SCH_TICK | SCH_TICKEV
  | SCH_CORELOAD | SCH_TSEL | SCH_TSTATE | SCH_TCMD | SCH_CHGADDR | SCH_CHGSTAT | SCH_TASKSEL
  | SCH_TASKSTAT | SCH_TASKTIME | SCH_TCLR | SCH_TCNT | LOP_CFG | LOP_STAT | LOP_IE | LOP_PASSCNT
  | LOP_PASSTIME | LOP_EV | LOP_PULSECFG | LOP_PULSECNT | LOP_PSTAT | LOP_FBSRC | LOP_SPSRC | LOP_FFSRC
  | LOP_OUTH | LOP_OWN | LOP_COEF | LOP_DET | LOP_HOLD | LOP_CMD | LOP_STATE | LOP_OUT | LOP_SP | LOP_ERR
  | LOP_INTEG | LOP_FCNT | LOP_GAIN | ADC_REF | ADC_CFG | ADC_CMD | ADC_INJ | ADC_KSTAT | ADC_IE
  | ADC_STATE | ADC_SELFCAL | ADC_EV | ADC_CORR | ADC_WIN | ADC_RES | ADC_RAW | ADC_RESTS | CAN_CFG
  | CAN_NBT | CAN_DBT | CAN_TDC | CAN_STAT | CAN_IE | CAN_ERR | CAN_RWR | CAN_RRD | CAN_TXCMD
  | CAN_NODESTAT | CAN_TXSTAT | CAN_CNT | CAN_NODE | CAN_NODETMO | HST_LINKSTAT | PAR_CFG | PAR_STATE
  | PAR_STAT | PAR_IE | PAR_POFS | PAR_PDLY | PAR_GSKEW | PAR_BADDR | PAR_TSEL | PAR_TSTATE | PAR_TCOMPL
  | PAR_TCMD | PAR_TSNAP | PAR_TCLR | PAR_TCNT | PAR_LCNT | SGE_CTL | SGE_STAT | SGE_IE | SGE_SCORE
  | SGE_TILEFAIL | SGE_LREP | SGE_PREP | KVS_STAT | KVS_IE | KVS_GRACE | KVS_SEL | KVS_SLOTSTAT
  | KVS_SLOTTIME | KVS_NOTAFTER | KVS_LABEL | KVS_PARENT | KVS_ADDR | KVS_KCV | KVS_CMD | KVS_RESULT
  | KVS_COUNT | ATT_LC | ATT_LCADDR | ATT_LCCMD | ATT_LCSTAT | ATT_NONCE | ATT_ADDR | ATT_CMD | ATT_STAT
  | ATT_DEVID | TMP_CFG | TMP_STAT | TMP_LOG | TMP_CMD | QCR_SEL | QCR_AVAIL | QCR_DROPS | QCR_CLR
  | QCR_EXH | QCR_EXH_IE | DCR_STAT | DCR_IE | DCR_USEL | DCR_USTATE | DCR_CMD | DCR_UCNT | LTL_SEL
  | LTL_CNT | LTL_INC | LTL_HSEL | LTL_HADD | LTL_STAT | LTL_HBIN | EVR_STAT | EVR_IE | EVR_NEXTSEQ
  | EVR_SWTRIG | EVR_CNT | EVR_SRCCFG | EVR_SETADR | TEN_STATUS | TEN_CMD | TEN_CMDSTAT | TEN_ALERT
  | TEN_ALERT_IE | TEN_SNAPADDR | TEN_SNAPCFG | TEN_INFO | MBX_H2D_DB | MBX_D2H_DB | MBX_STAT
  | TEN_PTHANDLE | TEN_PTCMD | TEN_PTSTAT | TEN_PTDATA | TEN_PTTIME | QP_CFG | QP_SQBASE | QP_CQBASE
  | QP_SQTAIL | QP_SQHEAD | QP_CQHEAD | QP_STAT | QP_CNT | TEN_CNT
deriving DecidableEq, Repr

end Sys2Proof
end

