-- ==== Sys2Proof/Machine/RegTable.lean ====
section
/-! DEFINITION. Addresses, index ranges, widths, reset values, retention classes and access codes of every
register: Tables 19-1 and 19-2 with the field maps of the chapters (R7, R8, R10, R12, R410, R413, R414). -/
namespace Sys2Proof.Machine

/-- One entry of the register map. A register with indexes i and j lies at base + s0 * i + s1 * j.
The masks give the bits of each access code of Table 00-3; a bit in none of them is read-only or reserved. -/
structure RegInfo where
  base : Nat
  n0 : Nat := 1
  s0 : Nat := 0
  n1 : Nat := 1
  s1 : Nat := 0
  wide : Bool := false
  reset : Nat := 0
  cls : Retention := .sys
  rw : Nat := 0
  w1c : Nat := 0
  w1s : Nat := 0
  rws : Nat := 0
  rc : Nat := 0
  wo : Nat := 0
deriving DecidableEq, Repr

/-- The register map (R413, R414). -/
def regInfo : Reg → RegInfo
  | .SYS_ID => { base := 0, reset := 0x864000b1, cls := .nv }
  | .SYS_RSTCAUSE => { base := 0x10, reset := 1, cls := .por, w1c := 0x7f }
  | .SYS_RSTCMD => { base := 0x14, wo := 0xff03 }
  | .SYS_WDOG => { base := 0x18, reset := 0x1f4, rw := 0xffff, wo := 0xff000000 }
  | .SYS_STARTCFG => { base := 0x100, reset := 0x3c, rw := 0x3ff }
  | .SYS_STARTSTAT => { base := 0x104 }
  | .SYS_PSEL => { base := 0x108, rw := 0xfff }
  | .SYS_PREASON => { base := 0x10c }
  | .SYS_BOOTCFG => { base := 0x200, cls := .nv, rw := 3, wo := 4 }
  | .SYS_BOOTSTAT => { base := 0x204 }
  | .SYS_IMGSTAT => { base := 0x208 }
  | .SYS_IMGVER => { base := 0x210, wide := true }
  | .SYS_ROLLFLOOR => { base := 0x218, wide := true, cls := .nv, rw := 0xffffffffffffffff }
  | .SYS_SEAL => { base := 0x220, wo := 1 }
  | .SYS_AMDSEL => { base := 0x240, rw := 3 }
  | .SYS_AMDADDR => { base := 0x248, wide := true, rw := 0xffffffffffffffff }
  | .SYS_AMDCMD => { base := 0x250, wo := 3 }
  | .SYS_AMDACT => { base := 0x254, rw := 0xffffffff }
  | .SYS_AMDSTAT => { base := 0x258 }
  | .SYS_AMDJRNL => { base := 0x25c }
  | .SYS_PENDMAP => { base := 0x1000, n0 := 128, s0 := 4 }
  | .PWR_STAT => { base := 0x10000, w1c := 0x1f }
  | .PWR_IE => { base := 0x10004, rw := 0x1f }
  | .PWR_DSTAT => { base := 0x10008 }
  | .PWR_DCMD => { base := 0x1000c, wo := 0x3f }
  | .PWR_VMON => { base := 0x10010 }
  | .CLK_STAT => { base := 0x20000, w1c := 1 }
  | .TMB_FRC => { base := 0x30000, wide := true, cls := .por }
  | .TMB_DT => { base := 0x30008, wide := true, cls := .por }
  | .TMB_OFS => { base := 0x30010, wide := true, cls := .por }
  | .TMB_ANC => { base := 0x30018, wide := true, cls := .por }
  | .TMB_RATE => { base := 0x30020, cls := .por }
  | .TMB_RATE_NX => { base := 0x30024, cls := .por, rw := 0xffffffff }
  | .TMB_OFS_NX => { base := 0x30028, wide := true, cls := .por, rw := 0xffffffffffffffff }
  | .TMB_ANC_NX => { base := 0x30030, wide := true, cls := .por, rw := 0xffffffffffffffff }
  | .TMB_CMT_AT => { base := 0x30038, wide := true, rw := 0xffffffffffffffff }
  | .TMB_CMT => { base := 0x30040, wo := 0xf }
  | .TMB_STEPLIM => { base := 0x30044, reset := 0x3e8, rw := 0xffffffff }
  | .TMB_LASTSTEP => { base := 0x30048, wide := true, cls := .por }
  | .TMB_SYNC => { base := 0x30050, cls := .por, wo := 0x30000 }
  | .TMB_HOLD => { base := 0x30054, reset := 0xa0bb8, rw := 0xffffffff }
  | .TMB_STAT => { base := 0x30058, w1c := 0x3ff }
  | .TMB_IE => { base := 0x3005c, rw := 0x3ff }
  | .TMB_RTC => { base := 0x30060, wide := true, cls := .bat }
  | .TMB_PTPCFG => { base := 0x30068, rw := 0xfff00ff }
  | .TMB_PTPUNS => { base := 0x3006c, rc := 0xffffffff }
  | .TMB_SRVCFG => { base := 0x30070, rw := 0xf }
  | .TMB_SRVOFS => { base := 0x30078, wide := true }
  | .TMB_PPSCFG => { base := 0x30080, reset := 0x640000, rw := 0xffff0003 }
  | .TMB_PPSIN_NS => { base := 0x30088, wide := true }
  | .TMB_PDLY => { base := 0x300c0, n0 := 8, s0 := 0x10, rw := 0xffffffff }
  | .TMB_ASYM => { base := 0x300c4, n0 := 8, s0 := 0x10, rw := 0xffffffff }
  | .TMB_PDRAW => { base := 0x300c8, n0 := 8, s0 := 0x10 }
  | .TTU_SCHED_NS => { base := 0x40000, wide := true, rw := 0xffffffffffffffff }
  | .TTU_SCHED_FR => { base := 0x40008, rw := 0xff }
  | .TTU_SCHED_CMD => { base := 0x4000c, wo := 0xffffffff }
  | .TTU_SCHED_STAT => { base := 0x40010 }
  | .TTU_CHCFG => { base := 0x40100, n0 := 32, s0 := 0x40, rws := 0xffffff1f }
  | .TTU_CHSTAT => { base := 0x40104, n0 := 32, s0 := 0x40 }
  | .TTU_CHNEXT_NS => { base := 0x40108, n0 := 32, s0 := 0x40, wide := true }
  | .TTU_CHPREM => { base := 0x40114, n0 := 32, s0 := 0x40, reset := 0x10000, rw := 0xffffffff }
  | .TTU_CHPER => { base := 0x40118, n0 := 32, s0 := 0x40, wide := true, rw := 0x3ffffffff }
  | .TTU_CHLAST_NS => { base := 0x40120, n0 := 32, s0 := 0x40, wide := true }
  | .MAC_CFG => { base := 0x50000, n0 := 8, s0 := 0x400, rw := 0x80000000, rws := 0xff0ff7 }
  | .MAC_LINKCFG => { base := 0x50004, n0 := 8, s0 := 0x400, reset := 0x2804000, rw := 0xffffffff }
  | .MAC_PAUSECFG => { base := 0x50008, n0 := 8, s0 := 0x400, reset := 0x3e8, rw := 0x3fff }
  | .MAC_STAT => { base := 0x5000c, n0 := 8, s0 := 0x400, w1c := 0xfff }
  | .MAC_IE => { base := 0x50010, n0 := 8, s0 := 0x400, rw := 0xfff }
  | .MAC_FILTCTL => { base := 0x50014, n0 := 8, s0 := 0x400, reset := 4, rw := 4, wo := 3 }
  | .MAC_CNTCLR => { base := 0x50018, n0 := 8, s0 := 0x400, wo := 0xffffffff }
  | .MAC_FENT => { base := 0x50040, n0 := 8, s0 := 0x400, n1 := 16, s1 := 0x10, wide := true, rw := 0x8000ffffffffffff }
  | .MAC_FMASK => { base := 0x50048, n0 := 8, s0 := 0x400, n1 := 16, s1 := 0x10, wide := true, rw := 0xffffffffffff }
  | .MAC_CNT => { base := 0x50140, n0 := 8, s0 := 0x400, n1 := 24, s1 := 8, wide := true }
  | .MAC_HASH => { base := 0x50200, n0 := 8, s0 := 0x400, n1 := 128, s1 := 4, reset := 0xffffffff, rw := 0xffffffff }
  | .SWC_PCFG => { base := 0x60000, n0 := 15, s0 := 0x20, reset := 0x10000, rw := 0xffff0000 }
  | .SWC_PCPMAP => { base := 0x60004, n0 := 12, s0 := 0x20, reset := 0xfac688, rw := 0xffffff }
  | .SWC_DEFACT => { base := 0x60008, n0 := 12, s0 := 0x20, reset := 0x20002000, rw := 0x2fff2fff }
  | .SWC_FDBSEL => { base := 0x60200, rw := 0xfff }
  | .SWC_FDBKEY => { base := 0x60208, wide := true, rw := 0x8fffffffffffffff }
  | .SWC_FDBACT => { base := 0x60210, rw := 0x2fff }
  | .SWC_FDBCMD => { base := 0x60214, wo := 3 }
  | .SWC_STAT => { base := 0x60218, w1c := 3 }
  | .SWC_INBUF => { base := 0x60400, n0 := 15, s0 := 0x20, n1 := 8, s1 := 4, reset := 0x400, rw := 0x3ffff }
  | .SWC_ICNT => { base := 0x60600, n0 := 15, s0 := 0x20, n1 := 8, s1 := 4, rc := 0xffffffff }
  | .SWC_HSA => { base := 0x60800, n0 := 4, s0 := 0x20, n1 := 4, s1 := 8, wide := true, rw := 0x8000ffffffffffff }
  | .SWC_PCNT => { base := 0x60a00, n0 := 12, s0 := 0x100, n1 := 17, s1 := 8, wide := true }
  | .PRP_NODECFG => { base := 0x70000, rw := 1 }
  | .PRP_STAT => { base := 0x70004, w1c := 3 }
  | .PRP_SRCUSE => { base := 0x70008 }
  | .PRP_CNTCLR => { base := 0x7000c, wo := 3 }
  | .PRP_CNT => { base := 0x70100, n0 := 2, s0 := 0x100, n1 := 13, s1 := 8, wide := true }
  | .SVX_CTL => { base := 0x80000, rw := 1 }
  | .SVX_STAT => { base := 0x80004, w1c := 0x7f }
  | .SVX_IE => { base := 0x80008, rw := 0x7f }
  | .SVX_SUMMARY => { base := 0x8000c }
  | .SVX_UNKNOWN => { base := 0x80010, rc := 0xffffffff }
  | .SVX_PARSE => { base := 0x80014, rc := 0xffffffff }
  | .SVX_SSEL => { base := 0x80020, rw := 0xfff }
  | .SVX_SSTATE => { base := 0x80024 }
  | .SVX_SLAST => { base := 0x80028 }
  | .SVX_SWIDX => { base := 0x8002c }
  | .SVX_SLASTTS => { base := 0x80030, wide := true }
  | .SVX_SCLR => { base := 0x80038, wo := 3 }
  | .SVX_SCNT => { base := 0x80040, n0 := 13, s0 := 4 }
  | .SVX_DISCPOP => { base := 0x80084, wo := 1 }
  | .SVX_DISC_SA => { base := 0x80088, wide := true }
  | .SVX_DISC_INFO => { base := 0x80090 }
  | .SVX_DISC_CONF => { base := 0x80094 }
  | .SVX_DISC_TS => { base := 0x80098, wide := true }
  | .SVX_DISC_FRAMES => { base := 0x800a0 }
  | .SVX_DISC_SVID => { base := 0x800c0, n0 := 16, s0 := 4 }
  | .FLT_STAT => { base := 0x90000, w1c := 0x1f }
  | .FLT_IE => { base := 0x90004, rw := 0x1f }
  | .FLT_SSEL => { base := 0x90008, rw := 0xfff }
  | .FLT_SSTATE => { base := 0x9000c }
  | .FLT_DCFRZ => { base := 0x90010, wo := 0xe0003fff }
  | .FLT_SCLR => { base := 0x90014, wo := 3 }
  | .FLT_TAPGD => { base := 0x90020, n0 := 4, s0 := 4 }
  | .FLT_SCNT => { base := 0x90040, n0 := 6, s0 := 4 }
  | .FLT_ENGLOAD => { base := 0x90080, n0 := 16, s0 := 4 }
  | .ELA_STAT => { base := 0xa0000, w1c := 0xff }
  | .ELA_IE => { base := 0xa0004, rw := 0xff }
  | .ELA_GRPCFG => { base := 0xa0010, n0 := 4, s0 := 4, rws := 0x80000003 }
  | .ELA_GRPCNT => { base := 0xa0020, n0 := 4, s0 := 0x10, wide := true }
  | .ELA_GRPPRE => { base := 0xa0028, n0 := 4, s0 := 0x10, wide := true, rw := 0xffffffffffffffff }
  | .ELA_GRPCTL => { base := 0xa0060, n0 := 4, s0 := 4, wo := 1 }
  | .ELA_GRPEV => { base := 0xa0070, n0 := 4, s0 := 4, rc := 0xffffffff }
  | .ELA_TSEL => { base := 0xa0100, rw := 0xfff }
  | .ELA_TSTATE => { base := 0xa0104 }
  | .ELA_TBUDGET => { base := 0xa0108 }
  | .ELA_TUSE => { base := 0xa010c }
  | .ELA_TCUR => { base := 0xa0110 }
  | .ELA_TCLR => { base := 0xa0114, wo := 3 }
  | .ELA_TINJ => { base := 0xa0118, wo := 0xffffff00 }
  | .ELA_TCNT => { base := 0xa0140, n0 := 8, s0 := 4 }
  | .ELA_TILECFG => { base := 0xa0400, n0 := 128, s0 := 8, reset := 0x1e, rw := 0xff, rws := 0x80030000 }
  | .ELA_TILESTAT => { base := 0xa0404, n0 := 128, s0 := 8 }
  | .ELA_BLKMAP => { base := 0xa0800, n0 := 128, s0 := 4 }
  | .PNT_STAT => { base := 0xb0000, w1c := 7 }
  | .PNT_IE => { base := 0xb0004, rw := 7 }
  | .PNT_HANDLE => { base := 0xb0008, rw := 0xffffffff }
  | .PNT_CMD => { base := 0xb000c, wo := 3 }
  | .PNT_DATA => { base := 0xb0010, wide := true, rw := 0xffffffffffffffff }
  | .PNT_TIME => { base := 0xb0018, wide := true, rw := 0xffffffffffffffff }
  | .PNT_REFUSED => { base := 0xb0020, rc := 0xffffffff }
  | .PNT_BADHANDLE => { base := 0xb0024, rc := 0xffffffff }
  | .PNT_STALE => { base := 0xb0028, rc := 0xffffffff }
  | .GPB_STAT => { base := 0xc0000, w1c := 7 }
  | .GPB_IE => { base := 0xc0004, rw := 7 }
  | .GPB_UTCOFS => { base := 0xc0008, rw := 0x8000ffff }
  | .GPB_PSEL => { base := 0xc0010, rw := 0x1fff }
  | .GPB_PSTNUM => { base := 0xc0014 }
  | .GPB_PSQNUM => { base := 0xc0018 }
  | .GPB_PNEXT => { base := 0xc001c }
  | .GPB_PCLR => { base := 0xc0020, wo := 3 }
  | .GPB_PCNT => { base := 0xc0040, n0 := 6, s0 := 4 }
  | .GSB_STAT => { base := 0xd0000, w1c := 0x3f }
  | .GSB_IE => { base := 0xd0004, rw := 0x3f }
  | .GSB_UNKNOWN => { base := 0xd0008, rc := 0xffffffff }
  | .GSB_SSEL => { base := 0xd0010, rw := 0x3fff }
  | .GSB_SSTATE => { base := 0xd0014 }
  | .GSB_SSTNUM => { base := 0xd0018 }
  | .GSB_SSQNUM => { base := 0xd001c }
  | .GSB_SLASTTS => { base := 0xd0020, wide := true }
  | .GSB_SCLR => { base := 0xd0028, wo := 3 }
  | .GSB_SCNT => { base := 0xd0040, n0 := 14, s0 := 4 }
  | .SCH_STAT => { base := 0xe0000, w1c := 0xff }
  | .SCH_IE => { base := 0xe0004, rw := 0xff }
  | .SCH_TICK => { base := 0xe0008, wide := true }
  | .SCH_TICKEV => { base := 0xe0010, rc := 0xffffffff }
  | .SCH_CORELOAD => { base := 0xe0040, n0 := 16, s0 := 4 }
  | .SCH_TSEL => { base := 0xe0100, rw := 0xfff }
  | .SCH_TSTATE => { base := 0xe0104 }
  | .SCH_TCMD => { base := 0xe0108, wo := 7 }
  | .SCH_CHGADDR => { base := 0xe0110, wide := true, rw := 0xffffffffffffffff }
  | .SCH_CHGSTAT => { base := 0xe0118 }
  | .SCH_TASKSEL => { base := 0xe0120, rw := 0x1f }
  | .SCH_TASKSTAT => { base := 0xe0124 }
  | .SCH_TASKTIME => { base := 0xe0128 }
  | .SCH_TCLR => { base := 0xe012c, wo := 3 }
  | .SCH_TCNT => { base := 0xe0140, n0 := 8, s0 := 4 }
  | .LOP_CFG => { base := 0x100000, rws := 0x7f0003 }
  | .LOP_STAT => { base := 0x100004, w1c := 0xff }
  | .LOP_IE => { base := 0x100008, rw := 0xff }
  | .LOP_PASSCNT => { base := 0x100010, wide := true }
  | .LOP_PASSTIME => { base := 0x100018 }
  | .LOP_EV => { base := 0x10001c, rc := 0xffffffff }
  | .LOP_PULSECFG => { base := 0x100040, n0 := 4, s0 := 4, reset := 0x9600960, rw := 0xffffffff }
  | .LOP_PULSECNT => { base := 0x100050, n0 := 4, s0 := 4 }
  | .LOP_PSTAT => { base := 0x100060, reset := 0xf }
  | .LOP_FBSRC => { base := 0x100400, n0 := 64, s0 := 0x80, rws := 0xffffffff }
  | .LOP_SPSRC => { base := 0x100404, n0 := 64, s0 := 0x80, rws := 0xffffffff }
  | .LOP_FFSRC => { base := 0x100408, n0 := 64, s0 := 0x80, rws := 0xffffffff }
  | .LOP_OUTH => { base := 0x10040c, n0 := 64, s0 := 0x80, rws := 0xffffffff }
  | .LOP_OWN => { base := 0x100410, n0 := 64, s0 := 0x80, rws := 0xc03f0fff }
  | .LOP_COEF => { base := 0x100414, n0 := 64, s0 := 0x80, n1 := 14, s1 := 4, rw := 0xffffffff }
  | .LOP_DET => { base := 0x10044c, n0 := 64, s0 := 0x80, reset := 0x4000100, rw := 0xffffff00 }
  | .LOP_HOLD => { base := 0x100450, n0 := 64, s0 := 0x80, rw := 0xffff }
  | .LOP_CMD => { base := 0x100454, n0 := 64, s0 := 0x80, wo := 7 }
  | .LOP_STATE => { base := 0x100458, n0 := 64, s0 := 0x80 }
  | .LOP_OUT => { base := 0x10045c, n0 := 64, s0 := 0x80 }
  | .LOP_SP => { base := 0x100460, n0 := 64, s0 := 0x80 }
  | .LOP_ERR => { base := 0x100464, n0 := 64, s0 := 0x80 }
  | .LOP_INTEG => { base := 0x100468, n0 := 64, s0 := 0x80 }
  | .LOP_FCNT => { base := 0x10046c, n0 := 64, s0 := 0x80, rc := 0xffffffff }
  | .LOP_GAIN => { base := 0x104000, n0 := 64, s0 := 0x400, n1 := 256, s1 := 4, rw := 0xffffffff }
  | .ADC_REF => { base := 0x120000, rw := 1 }
  | .ADC_CFG => { base := 0x120100, n0 := 2, s0 := 0x100, rw := 0xc0ff0000 }
  | .ADC_CMD => { base := 0x120104, n0 := 2, s0 := 0x100, wo := 7 }
  | .ADC_INJ => { base := 0x120108, n0 := 2, s0 := 0x100, rw := 0x37777 }
  | .ADC_KSTAT => { base := 0x12010c, n0 := 2, s0 := 0x100, w1c := 0x1ff }
  | .ADC_IE => { base := 0x120110, n0 := 2, s0 := 0x100, rw := 0x1ff }
  | .ADC_STATE => { base := 0x120114, n0 := 2, s0 := 0x100 }
  | .ADC_SELFCAL => { base := 0x120118, n0 := 2, s0 := 0x100 }
  | .ADC_EV => { base := 0x12011c, n0 := 2, s0 := 0x100, rc := 0xffffffff }
  | .ADC_CORR => { base := 0x120400, n0 := 16, s0 := 0x20, reset := 0x80000000, rw := 0xffffffff }
  | .ADC_WIN => { base := 0x120404, n0 := 16, s0 := 0x20, reset := 0x7fff8000, rw := 0xffffffff }
  | .ADC_RES => { base := 0x120408, n0 := 16, s0 := 0x20, rc := 0xc0000000 }
  | .ADC_RAW => { base := 0x12040c, n0 := 16, s0 := 0x20 }
  | .ADC_RESTS => { base := 0x120410, n0 := 16, s0 := 0x20, wide := true }
  | .CAN_CFG => { base := 0x140000, n0 := 4, s0 := 0x100, reset := 1, rw := 0x8fff003f }
  | .CAN_NBT => { base := 0x140004, n0 := 4, s0 := 0x100, rw := 0xfffffffc }
  | .CAN_DBT => { base := 0x140008, n0 := 4, s0 := 0x100, rw := 0xfffffffe }
  | .CAN_TDC => { base := 0x14000c, n0 := 4, s0 := 0x100, rw := 0x7f }
  | .CAN_STAT => { base := 0x140010, n0 := 4, s0 := 0x100, w1c := 0x3ff }
  | .CAN_IE => { base := 0x140014, n0 := 4, s0 := 0x100, rw := 0x3ff }
  | .CAN_ERR => { base := 0x140018, n0 := 4, s0 := 0x100 }
  | .CAN_RWR => { base := 0x140020, n0 := 4, s0 := 0x100 }
  | .CAN_RRD => { base := 0x140024, n0 := 4, s0 := 0x100, rw := 0xffffffff }
  | .CAN_TXCMD => { base := 0x140028, n0 := 4, s0 := 0x100, wo := 0xffff }
  | .CAN_NODESTAT => { base := 0x140030, n0 := 4, s0 := 0x100 }
  | .CAN_TXSTAT => { base := 0x140040, n0 := 4, s0 := 0x100, n1 := 8, s1 := 4 }
  | .CAN_CNT => { base := 0x1400c0, n0 := 4, s0 := 0x100, n1 := 5, s1 := 4, rc := 0xffffffff }
  | .CAN_NODE => { base := 0x172000, n0 := 4, s0 := 0x100, n1 := 16, s1 := 0x10, wide := true, rw := 0x9fffffff1fffffff }
  | .CAN_NODETMO => { base := 0x172008, n0 := 4, s0 := 0x100, n1 := 16, s1 := 0x10, rw := 0xffff }
  | .HST_LINKSTAT => { base := 0x180000, n0 := 4, s0 := 0x10 }
  | .PAR_CFG => { base := 0x190000, rw := 1 }
  | .PAR_STATE => { base := 0x190004 }
  | .PAR_STAT => { base := 0x190008, w1c := 0x7ff }
  | .PAR_IE => { base := 0x19000c, rw := 0x7ff }
  | .PAR_POFS => { base := 0x190010, wide := true }
  | .PAR_PDLY => { base := 0x190018 }
  | .PAR_GSKEW => { base := 0x190020, n0 := 4, s0 := 4 }
  | .PAR_BADDR => { base := 0x190030, wide := true, rw := 0x8000ffffffffffff }
  | .PAR_TSEL => { base := 0x190040, rw := 0xfff }
  | .PAR_TSTATE => { base := 0x190044 }
  | .PAR_TCOMPL => { base := 0x190048 }
  | .PAR_TCMD => { base := 0x19004c, wo := 7 }
  | .PAR_TSNAP => { base := 0x190050 }
  | .PAR_TCLR => { base := 0x190054, wo := 7 }
  | .PAR_TCNT => { base := 0x190080, n0 := 12, s0 := 4 }
  | .PAR_LCNT => { base := 0x1900c0, n0 := 6, s0 := 8, wide := true }
  | .SGE_CTL => { base := 0x1a0000, reset := 0xf, rw := 0xf }
  | .SGE_STAT => { base := 0x1a0004, w1c := 0x1ff }
  | .SGE_IE => { base := 0x1a0008, rw := 0x1ff }
  | .SGE_SCORE => { base := 0x1a000c, cls := .sup, rw := 0xff }
  | .SGE_TILEFAIL => { base := 0x1a0010, n0 := 4, s0 := 4, w1c := 0xffffffff }
  | .SGE_LREP => { base := 0x1a0040, n0 := 16, s0 := 4 }
  | .SGE_PREP => { base := 0x1a0080, n0 := 16, s0 := 4 }
  | .KVS_STAT => { base := 0x1b0000, w1c := 0x7f }
  | .KVS_IE => { base := 0x1b0004, rw := 0x7f }
  | .KVS_GRACE => { base := 0x1b0008, reset := 0x3c, rw := 0x1ffff }
  | .KVS_SEL => { base := 0x1b0010, rw := 0x3fff }
  | .KVS_SLOTSTAT => { base := 0x1b0014 }
  | .KVS_SLOTTIME => { base := 0x1b0018, wide := true }
  | .KVS_NOTAFTER => { base := 0x1b0020, rw := 0xffffffff }
  | .KVS_LABEL => { base := 0x1b0024, rw := 0xffffffff }
  | .KVS_PARENT => { base := 0x1b0028, rw := 0x3fff }
  | .KVS_ADDR => { base := 0x1b0030, wide := true, rw := 0xffffffffffffffff }
  | .KVS_KCV => { base := 0x1b0040, n0 := 4, s0 := 4, rw := 0xffffffff }
  | .KVS_CMD => { base := 0x1b0050, wo := 0xf }
  | .KVS_RESULT => { base := 0x1b0054 }
  | .KVS_COUNT => { base := 0x1b0058 }
  | .ATT_LC => { base := 0x1c0000, cls := .nv }
  | .ATT_LCADDR => { base := 0x1c0008, wide := true, rw := 0xffffffffffffffff }
  | .ATT_LCCMD => { base := 0x1c0010, wo := 1 }
  | .ATT_LCSTAT => { base := 0x1c0014 }
  | .ATT_NONCE => { base := 0x1c0040, n0 := 8, s0 := 4, rw := 0xffffffff }
  | .ATT_ADDR => { base := 0x1c0060, wide := true, rw := 0xffffffffffffffff }
  | .ATT_CMD => { base := 0x1c0068, wo := 1 }
  | .ATT_STAT => { base := 0x1c006c }
  | .ATT_DEVID => { base := 0x1c0080, n0 := 12, s0 := 4, cls := .nv }
  | .TMP_CFG => { base := 0x1d0000, reset := 0x7c, cls := .bat, rw := 0x7f, w1s := 0x80000000 }
  | .TMP_STAT => { base := 0x1d0004, cls := .bat, w1c := 0x7f }
  | .TMP_LOG => { base := 0x1d0008, wide := true, cls := .bat }
  | .TMP_CMD => { base := 0x1d0010, wo := 0xff01 }
  | .QCR_SEL => { base := 0x1e0000, rw := 0xf0fff }
  | .QCR_AVAIL => { base := 0x1e0004 }
  | .QCR_DROPS => { base := 0x1e0008 }
  | .QCR_CLR => { base := 0x1e000c, wo := 3 }
  | .QCR_EXH => { base := 0x1e0010, w1c := 0xffff }
  | .QCR_EXH_IE => { base := 0x1e0014, rw := 0xffff }
  | .DCR_STAT => { base := 0x1f0000, w1c := 0x1f }
  | .DCR_IE => { base := 0x1f0004, rw := 0x1f }
  | .DCR_USEL => { base := 0x1f0008, rw := 0xf }
  | .DCR_USTATE => { base := 0x1f000c, cls := .por }
  | .DCR_CMD => { base := 0x1f0010, wo := 7 }
  | .DCR_UCNT => { base := 0x1f0040, n0 := 7, s0 := 4, rc := 0xffffffff }
  | .LTL_SEL => { base := 0x200000, rw := 0xff }
  | .LTL_CNT => { base := 0x200008, wide := true, cls := .nv }
  | .LTL_INC => { base := 0x200010, wo := 0xff00ffff }
  | .LTL_HSEL => { base := 0x200018, rw := 0x1f }
  | .LTL_HADD => { base := 0x20001c, wo := 0xffffffff }
  | .LTL_STAT => { base := 0x200020, w1c := 1 }
  | .LTL_HBIN => { base := 0x200100, n0 := 64, s0 := 8, wide := true, cls := .nv }
  | .EVR_STAT => { base := 0x400000, w1c := 7 }
  | .EVR_IE => { base := 0x400004, rw := 7 }
  | .EVR_NEXTSEQ => { base := 0x400008, cls := .nv }
  | .EVR_SWTRIG => { base := 0x40000c, wo := 0xffffffff }
  | .EVR_CNT => { base := 0x400010, n0 := 3, s0 := 4, rc := 0xffffffff }
  | .EVR_SRCCFG => { base := 0x400100, n0 := 64, s0 := 4, reset := 0x80000000, rw := 0x800007ff }
  | .EVR_SETADR => { base := 0x400500, n0 := 7, s0 := 0x100, n1 := 48, s1 := 4, reset := 0xffffffff, rw := 0xffffffff }
  | .TEN_STATUS => { base := 0x10000000, n0 := 4096, s0 := 0x10000, reset := 0x10000, cls := .ten }
  | .TEN_CMD => { base := 0x10000004, n0 := 4096, s0 := 0x10000, cls := .ten, wo := 7 }
  | .TEN_CMDSTAT => { base := 0x10000008, n0 := 4096, s0 := 0x10000, cls := .ten }
  | .TEN_ALERT => { base := 0x1000000c, n0 := 4096, s0 := 0x10000, cls := .ten, w1c := 0x3f }
  | .TEN_ALERT_IE => { base := 0x10000010, n0 := 4096, s0 := 0x10000, cls := .ten, rw := 0x3f }
  | .TEN_SNAPADDR => { base := 0x10000018, n0 := 4096, s0 := 0x10000, wide := true, cls := .ten, rw := 0xffffffffffffffff }
  | .TEN_SNAPCFG => { base := 0x10000020, n0 := 4096, s0 := 0x10000, cls := .ten, rw := 0xffffffff }
  | .TEN_INFO => { base := 0x10000024, n0 := 4096, s0 := 0x10000 }
  | .MBX_H2D_DB => { base := 0x10000040, n0 := 4096, s0 := 0x10000, cls := .ten, w1s := 0xff }
  | .MBX_D2H_DB => { base := 0x10000044, n0 := 4096, s0 := 0x10000, cls := .ten, w1c := 0xff }
  | .MBX_STAT => { base := 0x10000048, n0 := 4096, s0 := 0x10000, cls := .ten, w1c := 3 }
  | .TEN_PTHANDLE => { base := 0x10000060, n0 := 4096, s0 := 0x10000, cls := .ten, rw := 0xffffffff }
  | .TEN_PTCMD => { base := 0x10000064, n0 := 4096, s0 := 0x10000, cls := .ten, wo := 3 }
  | .TEN_PTSTAT => { base := 0x10000068, n0 := 4096, s0 := 0x10000, cls := .ten, w1c := 1 }
  | .TEN_PTDATA => { base := 0x10000070, n0 := 4096, s0 := 0x10000, wide := true, cls := .ten, rw := 0xffffffffffffffff }
  | .TEN_PTTIME => { base := 0x10000078, n0 := 4096, s0 := 0x10000, wide := true, cls := .ten, rw := 0xffffffffffffffff }
  | .QP_CFG => { base := 0x10000100, n0 := 4096, s0 := 0x10000, n1 := 8, s1 := 0x40, cls := .ten, rw := 0x8000000f }
  | .QP_SQBASE => { base := 0x10000108, n0 := 4096, s0 := 0x10000, n1 := 8, s1 := 0x40, wide := true, cls := .ten, rw := 0xffffffffffffffff }
  | .QP_CQBASE => { base := 0x10000110, n0 := 4096, s0 := 0x10000, n1 := 8, s1 := 0x40, wide := true, cls := .ten, rw := 0xffffffffffffffff }
  | .QP_SQTAIL => { base := 0x10000118, n0 := 4096, s0 := 0x10000, n1 := 8, s1 := 0x40, cls := .ten, rw := 0xfff }
  | .QP_SQHEAD => { base := 0x1000011c, n0 := 4096, s0 := 0x10000, n1 := 8, s1 := 0x40, cls := .ten }
  | .QP_CQHEAD => { base := 0x10000120, n0 := 4096, s0 := 0x10000, n1 := 8, s1 := 0x40, cls := .ten, rw := 0xfff }
  | .QP_STAT => { base := 0x10000124, n0 := 4096, s0 := 0x10000, n1 := 8, s1 := 0x40, cls := .ten }
  | .QP_CNT => { base := 0x10000128, n0 := 4096, s0 := 0x10000, n1 := 8, s1 := 0x40 }
  | .TEN_CNT => { base := 0x10000300, n0 := 4096, s0 := 0x10000, n1 := 16, s1 := 4, rc := 0xffffffff }

/-- The blocks of Table 19-1 in address order: base, size and registers; the tenant windows come last. -/
def regBlocks : List (Nat × Nat × List Reg) :=
  [
    (0x0, 0x10000, [.SYS_ID, .SYS_RSTCAUSE, .SYS_RSTCMD, .SYS_WDOG, .SYS_STARTCFG, .SYS_STARTSTAT, .SYS_PSEL,
      .SYS_PREASON, .SYS_BOOTCFG, .SYS_BOOTSTAT, .SYS_IMGSTAT, .SYS_IMGVER, .SYS_ROLLFLOOR,
      .SYS_SEAL, .SYS_AMDSEL, .SYS_AMDADDR, .SYS_AMDCMD, .SYS_AMDACT, .SYS_AMDSTAT, .SYS_AMDJRNL,
      .SYS_PENDMAP]),
    (0x10000, 0x10000, [.PWR_STAT, .PWR_IE, .PWR_DSTAT, .PWR_DCMD, .PWR_VMON]),
    (0x20000, 0x10000, [.CLK_STAT]),
    (0x30000, 0x10000, [.TMB_FRC, .TMB_DT, .TMB_OFS, .TMB_ANC, .TMB_RATE, .TMB_RATE_NX, .TMB_OFS_NX, .TMB_ANC_NX,
      .TMB_CMT_AT, .TMB_CMT, .TMB_STEPLIM, .TMB_LASTSTEP, .TMB_SYNC, .TMB_HOLD, .TMB_STAT, .TMB_IE,
      .TMB_RTC, .TMB_PTPCFG, .TMB_PTPUNS, .TMB_SRVCFG, .TMB_SRVOFS, .TMB_PPSCFG, .TMB_PPSIN_NS,
      .TMB_PDLY, .TMB_ASYM, .TMB_PDRAW]),
    (0x40000, 0x10000, [.TTU_SCHED_NS, .TTU_SCHED_FR, .TTU_SCHED_CMD, .TTU_SCHED_STAT, .TTU_CHCFG, .TTU_CHSTAT,
      .TTU_CHNEXT_NS, .TTU_CHPREM, .TTU_CHPER, .TTU_CHLAST_NS]),
    (0x50000, 0x10000, [.MAC_CFG, .MAC_LINKCFG, .MAC_PAUSECFG, .MAC_STAT, .MAC_IE, .MAC_FILTCTL, .MAC_CNTCLR,
      .MAC_FENT, .MAC_FMASK, .MAC_CNT, .MAC_HASH]),
    (0x60000, 0x10000, [.SWC_PCFG, .SWC_PCPMAP, .SWC_DEFACT, .SWC_FDBSEL, .SWC_FDBKEY, .SWC_FDBACT, .SWC_FDBCMD,
      .SWC_STAT, .SWC_INBUF, .SWC_ICNT, .SWC_HSA, .SWC_PCNT]),
    (0x70000, 0x10000, [.PRP_NODECFG, .PRP_STAT, .PRP_SRCUSE, .PRP_CNTCLR, .PRP_CNT]),
    (0x80000, 0x10000, [.SVX_CTL, .SVX_STAT, .SVX_IE, .SVX_SUMMARY, .SVX_UNKNOWN, .SVX_PARSE, .SVX_SSEL, .SVX_SSTATE,
      .SVX_SLAST, .SVX_SWIDX, .SVX_SLASTTS, .SVX_SCLR, .SVX_SCNT, .SVX_DISCPOP, .SVX_DISC_SA,
      .SVX_DISC_INFO, .SVX_DISC_CONF, .SVX_DISC_TS, .SVX_DISC_FRAMES, .SVX_DISC_SVID]),
    (0x90000, 0x10000, [.FLT_STAT, .FLT_IE, .FLT_SSEL, .FLT_SSTATE, .FLT_DCFRZ, .FLT_SCLR, .FLT_TAPGD, .FLT_SCNT,
      .FLT_ENGLOAD]),
    (0xa0000, 0x10000, [.ELA_STAT, .ELA_IE, .ELA_GRPCFG, .ELA_GRPCNT, .ELA_GRPPRE, .ELA_GRPCTL, .ELA_GRPEV, .ELA_TSEL,
      .ELA_TSTATE, .ELA_TBUDGET, .ELA_TUSE, .ELA_TCUR, .ELA_TCLR, .ELA_TINJ, .ELA_TCNT,
      .ELA_TILECFG, .ELA_TILESTAT, .ELA_BLKMAP]),
    (0xb0000, 0x10000, [.PNT_STAT, .PNT_IE, .PNT_HANDLE, .PNT_CMD, .PNT_DATA, .PNT_TIME, .PNT_REFUSED, .PNT_BADHANDLE,
      .PNT_STALE]),
    (0xc0000, 0x10000, [.GPB_STAT, .GPB_IE, .GPB_UTCOFS, .GPB_PSEL, .GPB_PSTNUM, .GPB_PSQNUM, .GPB_PNEXT, .GPB_PCLR,
      .GPB_PCNT]),
    (0xd0000, 0x10000, [.GSB_STAT, .GSB_IE, .GSB_UNKNOWN, .GSB_SSEL, .GSB_SSTATE, .GSB_SSTNUM, .GSB_SSQNUM,
      .GSB_SLASTTS, .GSB_SCLR, .GSB_SCNT]),
    (0xe0000, 0x10000, [.SCH_STAT, .SCH_IE, .SCH_TICK, .SCH_TICKEV, .SCH_CORELOAD, .SCH_TSEL, .SCH_TSTATE, .SCH_TCMD,
      .SCH_CHGADDR, .SCH_CHGSTAT, .SCH_TASKSEL, .SCH_TASKSTAT, .SCH_TASKTIME, .SCH_TCLR, .SCH_TCNT]),
    (0x100000, 0x20000, [.LOP_CFG, .LOP_STAT, .LOP_IE, .LOP_PASSCNT, .LOP_PASSTIME, .LOP_EV, .LOP_PULSECFG,
      .LOP_PULSECNT, .LOP_PSTAT, .LOP_FBSRC, .LOP_SPSRC, .LOP_FFSRC, .LOP_OUTH, .LOP_OWN, .LOP_COEF,
      .LOP_DET, .LOP_HOLD, .LOP_CMD, .LOP_STATE, .LOP_OUT, .LOP_SP, .LOP_ERR, .LOP_INTEG, .LOP_FCNT,
      .LOP_GAIN]),
    (0x120000, 0x10000, [.ADC_REF, .ADC_CFG, .ADC_CMD, .ADC_INJ, .ADC_KSTAT, .ADC_IE, .ADC_STATE, .ADC_SELFCAL,
      .ADC_EV, .ADC_CORR, .ADC_WIN, .ADC_RES, .ADC_RAW, .ADC_RESTS]),
    (0x140000, 0x40000, [.CAN_CFG, .CAN_NBT, .CAN_DBT, .CAN_TDC, .CAN_STAT, .CAN_IE, .CAN_ERR, .CAN_RWR, .CAN_RRD,
      .CAN_TXCMD, .CAN_NODESTAT, .CAN_TXSTAT, .CAN_CNT, .CAN_NODE, .CAN_NODETMO]),
    (0x180000, 0x10000, [.HST_LINKSTAT]),
    (0x190000, 0x10000, [.PAR_CFG, .PAR_STATE, .PAR_STAT, .PAR_IE, .PAR_POFS, .PAR_PDLY, .PAR_GSKEW, .PAR_BADDR,
      .PAR_TSEL, .PAR_TSTATE, .PAR_TCOMPL, .PAR_TCMD, .PAR_TSNAP, .PAR_TCLR, .PAR_TCNT, .PAR_LCNT]),
    (0x1a0000, 0x10000, [.SGE_CTL, .SGE_STAT, .SGE_IE, .SGE_SCORE, .SGE_TILEFAIL, .SGE_LREP, .SGE_PREP]),
    (0x1b0000, 0x10000, [.KVS_STAT, .KVS_IE, .KVS_GRACE, .KVS_SEL, .KVS_SLOTSTAT, .KVS_SLOTTIME, .KVS_NOTAFTER,
      .KVS_LABEL, .KVS_PARENT, .KVS_ADDR, .KVS_KCV, .KVS_CMD, .KVS_RESULT, .KVS_COUNT]),
    (0x1c0000, 0x10000, [.ATT_LC, .ATT_LCADDR, .ATT_LCCMD, .ATT_LCSTAT, .ATT_NONCE, .ATT_ADDR, .ATT_CMD, .ATT_STAT,
      .ATT_DEVID]),
    (0x1d0000, 0x10000, [.TMP_CFG, .TMP_STAT, .TMP_LOG, .TMP_CMD]),
    (0x1e0000, 0x10000, [.QCR_SEL, .QCR_AVAIL, .QCR_DROPS, .QCR_CLR, .QCR_EXH, .QCR_EXH_IE]),
    (0x1f0000, 0x10000, [.DCR_STAT, .DCR_IE, .DCR_USEL, .DCR_USTATE, .DCR_CMD, .DCR_UCNT]),
    (0x200000, 0x10000, [.LTL_SEL, .LTL_CNT, .LTL_INC, .LTL_HSEL, .LTL_HADD, .LTL_STAT, .LTL_HBIN]),
    (0x400000, 0x400000, [.EVR_STAT, .EVR_IE, .EVR_NEXTSEQ, .EVR_SWTRIG, .EVR_CNT, .EVR_SRCCFG, .EVR_SETADR]),
    (0x10000000, 0x10000000, [.TEN_STATUS, .TEN_CMD, .TEN_CMDSTAT, .TEN_ALERT, .TEN_ALERT_IE, .TEN_SNAPADDR, .TEN_SNAPCFG,
      .TEN_INFO, .MBX_H2D_DB, .MBX_D2H_DB, .MBX_STAT, .TEN_PTHANDLE, .TEN_PTCMD, .TEN_PTSTAT,
      .TEN_PTDATA, .TEN_PTTIME, .QP_CFG, .QP_SQBASE, .QP_CQBASE, .QP_SQTAIL, .QP_SQHEAD, .QP_CQHEAD,
      .QP_STAT, .QP_CNT, .TEN_CNT])]

end Sys2Proof.Machine
end

