-- ==== Sys2Proof/Types/Loop.lean ====
section
/-! DEFINITION. State of the loop engine and of the local converters (chapters 12 and 13). Loop values are binary32
words. -/
namespace Sys2Proof.Machine

/-- LOP_STATE.STATE (Table 12-5). -/
inductive LoopSt where
  | off | run | hold | fhold | ramp | safe
deriving DecidableEq, Repr

/-- What a loop remembers of one of its sources (R280): the last value, the SMPCNT last used, passes without a fresh
value. -/
structure LoopSrc where
  val : Nat := 0
  smp : Option Nat := none
  miss : Nat := 0
deriving DecidableEq, Repr

/-- What the pass latch gave a loop (R279, R280): feedback, feed-forward and set-point source, each with its freshness. -/
structure LoopIn where
  fb : LoopSrc × Bool := ({}, false)
  ff : LoopSrc × Bool := ({}, false)
  sp : LoopSrc × Bool := ({}, false)
deriving DecidableEq, Repr

/-- One control loop. -/
structure Loop where
  st : LoopSt := .off
  cause : Nat := 0
  /-- Last output written since the image was applied. -/
  out : Option Nat := none
  sp : Nat := 0
  target : Nat := 0
  err : Nat := 0
  integ : Nat := 0
  sat : Bool := false
  spLost : Bool := false
  fb : LoopSrc := {}
  ff : LoopSrc := {}
  spx : LoopSrc := {}
  /-- RUN was entered and the law has not been evaluated since (R284). -/
  entering : Bool := false
  /-- Detectors (R285): run of identical fresh values, failed plausibility checks, previous fresh value and the output
  written with it. -/
  frz : Nat := 0
  implausible : Nat := 0
  prev : Option (Nat × Nat) := none
  /-- Passes spent in FHOLD; ramp pass and output that the ramp starts from. -/
  held : Nat := 0
  m : Nat := 0
  outH : Nat := 0
  /-- Command waiting for the next evaluation: 1 RUN, 2 HOLD, 3 SAFE, 4 OFF. -/
  cmd : Option Nat := none
  /-- The owner was reset, blocked or frozen since the last evaluation. -/
  ownerHit : Bool := false
  /-- Inputs that the pass in progress has latched. -/
  got : LoopIn := {}
deriving DecidableEq, Repr

/-- A pulse input (R282): edges since the last pass latch, edges of the last PGATE passes by pass count, passes without an
edge. -/
structure Pulse where
  edges : Nat := 0
  hist : List (Nat × Nat) := []
  idle : Nat := 0
deriving DecidableEq, Repr

/-- A pass in progress (R279): the stamp and FRC count of its start, whether its inputs are latched, the evaluation position, and
the loops from there on. -/
structure LoopPass where
  stamp : Stamp
  from_ : Nat
  latched : Bool := false
  q : Nat := 0
  rest : List Nat := []
deriving DecidableEq, Repr

/-- The loop engine. -/
structure LoopEngine where
  pass : Option LoopPass := none
  /-- Evaluation order: loop numbers in the order of the LOOPS entries. -/
  order : List Nat := []
  loops : Tbl Loop := []
  /-- FRC of the last start, whether the engine made it, and FRC at which the pass ends. -/
  last : Option Nat := none
  free : Bool := false
  busyTo : Nat := 0
  pulses : Tbl Pulse := []
  /-- Conversions of each input that the last pass had seen (R280). -/
  seen : Tbl Nat := []
deriving DecidableEq, Repr

/-- ADC_STATE.ACT. -/
inductive AdcAct where
  | idle | scan | inj | cal
deriving DecidableEq, Repr

/-- A converter (R295 to R297). -/
structure Adc where
  act : AdcAct := .idle
  /-- Local input being converted, and FRC at which the acquisition or the calibration began. -/
  cur : Nat := 0
  from_ : Nat := 0
  /-- Slots of the injection still to convert. -/
  inj : List Nat := []
  /-- A scan is in progress, its inputs still to convert; STOP ends it with the running conversion. -/
  scanOn : Bool := false
  scan : List Nat := []
  stopped : Bool := false
  /-- The aborted input. -/
  restart : Option Nat := none
  /-- FRC at which a conversion last ended (R303). -/
  doneAt : Option Nat := none
  injPend : Bool := false
  calPend : Bool := false
  scanPend : Bool := false
deriving DecidableEq, Repr

/-- Both converters and the reference buffer. -/
structure Converters where
  conv : Tbl Adc := []
  /-- FRC at which the reference buffer was enabled. -/
  refFrom : Option Nat := none
  /-- Conversions completed, by input. -/
  count : Tbl Nat := []
deriving DecidableEq, Repr

end Sys2Proof.Machine
end

