-- ==== Sys2Proof/Types/Out.lean ====
section
/-! DEFINITION. What leaves the module: the model's own log, in order of leaving. -/
namespace Sys2Proof.Machine

/-- One thing that left the module. -/
inductive Out where
  /-- A frame put on the medium of a port, with its padded length and whether it was cut off (R92, R104). -/
  | frame (port : Nat) (f : Frame) (len : Nat) (cut : Bool)
  /-- A level of TRIGOUTn, with the device time of its placing (R78). -/
  | pin (n : Nat) (level : Bool) (at_ : Stamp)
  /-- A level of PPS_OUT (R76). -/
  | pps (level : Bool)
  /-- A supervisor interrupt of Thyme TARGET 11 (Table 03-4). -/
  | supIrq (channel : Nat)
  /-- A frame handed to the supervisor with its stamp (R121, Table 03-3). -/
  | supervisor (f : Frame) (stamp : Stamp)
  /-- An MSI-X vector: link, function (0 the physical function) and vector (R325). -/
  | msix (link fn vector : Nat)
  /-- Bytes written to host memory through a function (R326). -/
  | dma (link fn addr : Nat) (data : List Byte)
  /-- A DMA error reported under Advanced Error Reporting: an advisory non-fatal error of a function (R326). -/
  | aer (link fn : Nat)
  /-- A completion entry written to a completion ring (R342). -/
  | completion (window q : Nat) (c : Completion)
  /-- What a port puts on its line beside frames changes (R88, R101, R102). -/
  | line (port : Nat) (x : LineTx)
  /-- A frame written to a posted buffer of a virtual-port receive ring, with the INFO byte, delivered length and phase of
  its completion (R344). -/
  | hostFrame (link cls addr : Nat) (f : SwFrame) (info len : Nat) (phase : Bool)
  /-- An attestation statement written for a link's host or, without a link, to DRAM (R365): its bytes before the chain,
  and what it says. -/
  | statement (link : Option Nat) (addr : Nat) (head : List Byte) (x : Statement)
  /-- A change report written to the DRAM area of the package, and to the report address of a CHG_STAGE message: dropped
  forces by handle, variables not carried over by name, discarded event activations by task name (R271, Table 15-5). -/
  | changeReport (tenant area : Nat) (host : Option Nat) (dropped uncarried : List Nat) (evts : List (Nat × Option EvtSrc))
  /-- What a CAN controller drives onto its bus (Table 14-1): a frame of its own, the dominant ACK bit in another's frame, an
  error frame with its active or passive flag. -/
  | canFrame (k : Nat) (f : CanFrame)
  | canAck (k : Nat)
  | canErrorFrame (k : Nat) (passive : Bool)
  /-- A snapshot written to a host buffer through a function: its header, and what it holds (R346, R326). -/
  | snapshot (link fn tenant addr : Nat) (head : List Byte) (s : Snapshot)
deriving DecidableEq, Repr

end Sys2Proof.Machine
end

