-- ==== Sys2Proof/Types/Rec.lean ====
section
/-! DEFINITION. State of Walnut, the capture units and Almond (chapter 17). -/
namespace Sys2Proof.Machine

/-- An accepted fire in Walnut's trigger queue, with the snapshot it took (R369, Table 17-2). -/
structure Fire where
  source : Nat
  arg : Nat
  arg2 : Nat := 0
  stamp : Stamp
  stampSrc : Nat
  /-- FRC of the fire, and of the last accepted fire of its source before it. -/
  frc : Nat := 0
  before : Option Nat := none
  set : Nat
  words : List W32
  powerOn : Bool := false
  supDown : Bool := false
  boots : Nat := 0
deriving DecidableEq, Repr

/-- Walnut (R368 to R372). -/
structure Walnut where
  /-- Trigger queue, first in first out, at most 64 entries. -/
  queue : List Fire := []
  /-- FRC of the last accepted fire of each source, absent where there was none. -/
  last : Tbl (Option Nat) := []
  /-- Fires lost since the last record written. -/
  lostSince : Nat := 0
  /-- FRC before which no further record is written (at most one every 2 µs). -/
  nextWrite : Nat := 0
deriving DecidableEq, Repr

/-- The kind of a capture channel (Table 17-4, SRC.KIND). -/
inductive CapKind where
  | none | raw | tap | conv | point | bit
deriving DecidableEq, Repr

/-- One capture channel (Table 17-4). -/
structure CapChan where
  kind : CapKind := .none
  stream : Nat := 0
  tap : Nat := 0
  bit : Nat := 0
  ch : Nat := 0
  handle : Nat := 0
  skew : Int := 0
  /-- SRC as configured. -/
  src : Nat := 0
deriving DecidableEq, Repr

/-- A capture unit's configuration (Table 17-3). -/
structure CapCfg where
  unit : Nat
  peer : Bool := false
  rearm : Bool := false
  overwrite : Bool := false
  ts100ns : Bool := false
  countMode : Bool := false
  group : Nat := 0
  rate : Nat := 0
  owner : Nat := 0xFFFF
  na : Nat := 1
  nd : Nat := 0
  pre : Nat := 1
  post : Nat := 1
  hold : Nat := 1
  close : Nat := 10
  nslot : Nat := 1
  chans : List CapChan := []
deriving DecidableEq, Repr

/-- A row of a record (R375): the stamp of channel 0's record, analogue values and digital words. -/
structure CapRow where
  stamp : Stamp
  analog : List W32
  digital : List W16
deriving DecidableEq, Repr

/-- A row that is open: its smpCnt, stamp and the FRC at which it closes at the latest (R375). -/
structure CapOpen where
  smp : Nat
  stamp : Stamp
  close : Nat
deriving DecidableEq, Repr

/-- A complete capture record (R380, Table 17-6). -/
structure CapRecord where
  slot : Nat
  overflow : Bool := false
  ended : Bool := false
  partner : Bool := false
  lateFire : Bool := false
  fireUnit : Nat := 0xFF
  trigRow : Nat := 0
  seq : Nat := 0
  fireStamp : Stamp := 0
  /-- The configuration and SKEW64 of each channel as the record completed (R381). -/
  cfg : Option CapCfg := none
  skews : List Int := []
  rows : List CapRow := []
deriving DecidableEq, Repr

/-- DCR_USTATE.STATE (Table 17-5). -/
inductive CapSt where
  | idle | arming | armed | recording | holdoff
deriving DecidableEq, Repr

/-- One capture unit. -/
structure CapUnit where
  cfg : Option CapCfg := none
  st : CapSt := .idle
  /-- Slot reserved by the arm. -/
  slot : Option Nat := none
  /-- Pre-trigger rows written since the arm, in ARMING. -/
  preCount : Nat := 0
  /-- The last PRE + 16 rows, newest first; in RECORDING every row of the record, newest first. -/
  rows : List CapRow := []
  /-- Rows still to be written in RECORDING. -/
  remaining : Nat := 0
  /-- The record in progress. -/
  cur : CapRecord := { slot := 0 }
  /-- In RECORDING, no row at or after the fire stamp has closed yet: the trigger row is awaited (R378). -/
  awaiting : Bool := false
  /-- Open rows, oldest first. -/
  opens : List CapOpen := []
  /-- Complete records not freed, oldest first. -/
  records : List CapRecord := []
  recSeq : Nat := 0
  /-- Hold-off end in FRC counts (time mode) or fires left to ignore (count mode). -/
  holdEnd : Nat := 0
  /-- Counters RECORDS, EARLY, IGNORED, OVF, OVERWRITTEN, MISSING, LATEFIRE (DCR_UCNT). -/
  cnt : Tbl Nat := []
deriving DecidableEq, Repr

/-- A group fire of the present FRC count (R378, R384): the earliest stamp and its source; some unit was ARMED. -/
structure CapFire where
  stamp : Stamp
  unit : Nat
  partner : Bool
  armed : Bool
deriving DecidableEq, Repr

/-- Almond (R382, R383): values in force and values in MRAM, from which reads are served. Counter k has key k; bin b of
histogram h has key 1024 + 64 h + b. -/
structure Almond where
  cur : Tbl Nat := []
  mram : Tbl Nat := []
  /-- FRC of the last sample of each hardware histogram and of the last second counted. -/
  sampleAt : Tbl Nat := []
  secAt : Nat := 0
deriving DecidableEq, Repr

end Sys2Proof.Machine
end

