-- ==== Sys2Proof/Types/Plan.lean ====
section
/-! DEFINITION. The structure that an image or a record describes, taken apart (Table 02-2). -/
namespace Sys2Proof.Machine

/-- A PORTS entry (Table 04-1). -/
structure PortEntry where
  role : Nat := 0
  speed : Nat := 0
  flags : Nat := 0
  maxfrm : Nat := 0
  pfcMask : Nat := 0
  upHold : Nat := 1
  downFilt : Nat := 1
  pauseCap : Nat := 1
  rxIdle : Nat := 0
deriving DecidableEq, Repr

/-- A TILES tile entry (Table 02-7). -/
structure TileEntry where
  group : Nat := 0
  wake : Nat := 0
  budgets : List Nat := []
deriving DecidableEq, Repr

/-- A THYME channel entry (Table 02-9). -/
structure ThyEntry where
  kind : Nat := 0
  target : Nat := 0
  arg : Nat := 0
  flags : Nat := 0
  owner : Nat := 0
deriving DecidableEq, Repr

/-- A PROGRAMS reference (Table 02-10). -/
structure ProgRef where
  kind : Nat
  tenant : Nat
  ofs : Nat
  length : Nat
  digest : Digest
deriving DecidableEq, Repr

/-- A LOOPS entry (Table 12-1). -/
structure LoopEntry where
  loop : Nat
  flags : Nat := 0
  owner : Nat := 0
  fb : Nat := 0
  sp : Nat := 0
  ff : Nat := 0
  outh : Nat := 0
  gtab : Nat := 0
  coef : List Nat := []
  det : Nat := 0
  holdn : Nat := 0
deriving DecidableEq, Repr

/-- A SCHEME entry (R256). -/
structure SchEntry where
  tenant : Nat
  core : Nat
  units : Nat
  load : Nat
deriving DecidableEq, Repr

/-- A structure by its sections; optional sections that are absent are empty. -/
structure Plan where
  /-- TYPEs of the sections present. -/
  present : List Nat := []
  ports : List PortEntry := []
  domains : Nat := 0
  split : Bool := false
  nvf : List Nat := []
  tileOn : Nat := 0
  groups : List Nat := []
  tiles : List TileEntry := []
  /-- Enabled tenants, without programs. -/
  tens : Tbl (Option TenantCfg) := []
  streams : Tbl (Option StreamCfg) := []
  /-- Consumer entries: stream, tenant, MAND. -/
  cons : List (Nat × Nat × Bool) := []
  topos : Tbl (Option TopoCfg) := []
  budgets : List Nat := []
  /-- Shares by boundary × 4096 + owner. -/
  shares : Tbl Nat := []
  banks : List Nat := []
  regions : List Nat := []
  caps : List CapCfg := []
  loopRate : Nat := 0
  loops : List LoopEntry := []
  /-- Gain g of table t under 256 t + g. -/
  gains : Tbl Nat := []
  tickCh : Nat := 0
  schemes : List SchEntry := []
  thyme : List ThyEntry := []
  pair : PairCfg := { port := 0 }
  refs : List ProgRef := []
  keys : Tbl (Option KeyAttr) := []
  pubs : List PubCfg := []
  subs : List SubCfg := []
deriving DecidableEq, Repr

end Sys2Proof.Machine
end

