-- ==== Sys2Proof/Types/Time.lean ====
section
/-! DEFINITION. State of the timebase and of the Thyme timed trigger unit (chapter 03). -/
namespace Sys2Proof.Machine

/-- TMB_SYNC.STATE (Table 03-1). -/
inductive SyncState where
  | free | locked | holdover | lost
deriving DecidableEq, Repr

/-- A pending MODE 2 commit (R64): the FRC count of TMB_CMT_AT, FOLD and SERVO. -/
structure PendingCommit where
  at_ : Nat
  fold : Bool
  servo : Bool
deriving DecidableEq, Repr

/-- A port's peer-delay request that has no response yet (R74). -/
structure PdelayOut where
  seq : Nat
  t1 : Option Stamp := none
deriving DecidableEq, Repr

/-- The timebase (R61 to R77) beside its registers. -/
structure Timebase where
  /-- The free-running counter, in nanoseconds since power-on (R61). -/
  frc : Nat := 0
  /-- TMB_SYNC.STATE. -/
  sync : SyncState := .free
  /-- The pending commit; TMB_SYNC.PENDING. -/
  pending : Option PendingCommit := none
  /-- FRC at which the hold timer last restarted (R67). -/
  holdFrom : Nat := 0
  /-- FRC of the entry to HOLDOVER. -/
  holdoverAt : Nat := 0
  /-- A servo capture the firmware has not read (R75). -/
  srvUnread : Bool := false
  /-- PPS_OUT is high; FRC at which it falls (R76). -/
  ppsHigh : Bool := false
  ppsFall : Nat := 0
  /-- FRC of the last rise of PPS_OUT. -/
  ppsRise : Option Nat := none
  /-- TMB_RTC (R69): RTC_VALID, the value as ticks of 1/32768 s, the FRC at which it had that value, and the FRC at
  which it was last set. -/
  rtcValid : Bool := false
  rtc : Nat := 0
  rtcFrom : Nat := 0
  rtcSecond : Option Nat := none
  /-- PTP frames handed to Thyme and not yet handled (R72), oldest first. -/
  ptpRx : List RxFrame := []
  /-- FRC of the last accepted PPS_IN edge, and whether its loss was reported (R77). -/
  ppsIn : Option Nat := none
  ppsLost : Bool := false
  /-- Outstanding peer-delay request of each port, last sequence number used, FRC of the last interval. -/
  pdOut : Tbl (Option PdelayOut) := []
  pdSeq : Tbl Nat := []
  pdNext : Tbl Nat := []
deriving DecidableEq, Repr

/-- A running periodic channel (R85): the instant of occurrence k is base + 256 k num / den, exactly. -/
structure TtuRun where
  base : Stamp
  k : Nat := 0
  /-- Period num / den in nanoseconds. -/
  num : Nat
  den : Nat
  width : Nat
  late : Bool := false
deriving DecidableEq, Repr

/-- A tenant's timed-output request on its way to Thyme at boundary 8 (R83). -/
structure TtuReq where
  tenant : Nat
  gen : Nat
  ch : Nat
  act : TtuAct
  instant : Stamp
deriving DecidableEq, Repr

/-- One Thyme channel beside TTU_CHCFG. -/
structure TtuChan where
  /-- Pending entries, in order of instant, equal instants in order of arrival. -/
  q : List TtuEntry := []
  run : Option TtuRun := none
  level : Bool := false
  /-- Latest falling instant of the pulses now high (R81). -/
  highTo : Option Stamp := none
  late : Nat := 0
  refused : Nat := 0
  skipped : Nat := 0
  stepskip : Nat := 0
  /-- Instant of the last executed entry, whole nanoseconds (TTU_CHLAST_NS). -/
  last : Nat := 0
deriving DecidableEq, Repr

end Sys2Proof.Machine
end

