-- ==== Sys2Proof/Machine/State.lean ====
section
/-! DEFINITION. The state of the module: registers, and the state of every block, as plain data; the reasons a step
can stop; and the state right after reset. -/
namespace Sys2Proof.Machine

/-- The sampled-value ingest (chapter 06) beside its registers. -/
structure Sesame where
  /-- Frames handed to Sesame and not yet taken (boundary 1), oldest first. -/
  queue : List RxFrame := []
  /-- The stream table (R138). -/
  cfg : Tbl (Option StreamCfg) := []
  /-- Stream states (Table 06-6). -/
  streams : Tbl Stream := []
  /-- Descriptors at boundary 4 that the filter chain has not taken, per stream, oldest first (R148). -/
  descs : Tbl (List SampleDesc) := []
  /-- The discovery list, oldest first (R152). -/
  disc : List Discovery := []
deriving DecidableEq, Repr

/-- The GOOSE publisher and subscriber (chapter 09) beside their registers. -/
structure Goose where
  /-- Publication entries (R203). -/
  pubs : Tbl Pub := []
  /-- Requests at boundaries 7 and 10 that the publisher has not taken, oldest first. -/
  reqs : List PubReq := []
  /-- Subscription entries. -/
  subs : Tbl Sub := []
  /-- Frames handed to the subscriber (boundary 2), oldest first. -/
  queue : List RxFrame := []
deriving DecidableEq, Repr

/-- The filter chain (chapter 07). -/
structure Filter where
  /-- Filter topologies by stream (chapter 07). -/
  topo : Tbl (Option TopoCfg) := []
  /-- The chain of each stream (chapter 07). -/
  chains : Tbl FltChain := []
  /-- Removed streams with descriptors or outputs outstanding, under their last entries (R154). -/
  gone : Tbl (Option (StreamCfg × TopoCfg)) := []
deriving DecidableEq, Repr

/-- Pairing (chapter 10) beside its registers. -/
structure Pairing where
  /-- The PAIRING section in force. -/
  cfg : Option PairCfg := none
  /-- PAR_STATE.STATE (Table 10-4). -/
  st : PairSt := .seek
  /-- FRC of the entry to the state. -/
  since : Nat := 0
  /-- Partner frames handed over by the PARTNER port and the station node, oldest first; the front one was accepted. -/
  rx : List RxFrame := []
  /-- The front frame of rx passed the checks (R226). -/
  accepted : Bool := false
  /-- Frame counter last sent, last accepted since the last HELLO exchange (R226). -/
  txCtr : Nat := 0
  /-- Redundancy sequence number of the next beacon (R228). -/
  beaconSeq : Nat := 0
  floor : Option Nat := none
  /-- FRC of the last accepted partner frame and of the last accepted beacon (R230). -/
  heard : Option Nat := none
  beacon : Option Nat := none
  /-- FRC of the last HELLO, HEARTBEAT, beacon and health report sent. -/
  helloAt : Option Nat := none
  hbAt : Option Nat := none
  beaconAt : Option Nat := none
  /-- What the partner's last HELLO said (R229). -/
  partner : Option HelloInfo := none
  /-- Partner HEARTBEAT: its state, group starts, tenants in RUN; its egress stamp and own ingress stamp. -/
  peerSt : Nat := 0
  peerStarts : List (Option (Nat × Stamp)) := []
  peerRun : List Nat := []
  hbIn : Option (Stamp × Stamp) := none
  /-- NOTICEs of the partner that found no own delivery yet: entry, stNum, digest, arrival cycle; and the own deliveries
  applied alone, with their cycle, whose NOTICE would come too late (R235). -/
  peerNotes : List (Nat × Nat × Nat × Nat) := []
  lateNotes : List (Nat × Nat × Nat × Nat) := []
  /-- Groups aligned, by bit (PAR_STATE.ALIGNED). -/
  aligned : Nat := 0
  /-- Pairing's view of each tenant (chapter 10). -/
  ten : Tbl PairTen := []
  /-- States of class H publications in agreement (R239). -/
  agree : List Agree := []
  /-- Partner digests held until the own state comes (R239). -/
  digs : List HeldDigest := []
  /-- Own GOOSE deliveries held for the partner's NOTICE (R235). -/
  notices : List HeldNotice := []
  /-- SUPMSGs received for the supervisor, oldest first; next piece and bytes of the one in reception. -/
  sup : List (List Byte) := []
  supPart : Option (Nat × List Byte) := none
  /-- PAR_GSKEW as measured, by group. -/
  skew : Tbl Int := []
deriving DecidableEq, Repr

/-- Sage (R249, R250) beside its registers. -/
structure Sage where
  /-- Sequence number of the last report. -/
  seq : Nat := 0
  /-- Words of the last local and the last partner report (SGE_LREP, SGE_PREP). -/
  lrep : List W32 := []
  prep : List W32 := []
  /-- FRC of the last report. -/
  reportAt : Nat := 0
  /-- FRC of the last partner report; PREP_LOST was set for it. -/
  peerAt : Option Nat := none
  peerLost : Bool := false
  /-- FRC of the last BIST of each tile. -/
  tested : Tbl (Option Nat) := []
  /-- Corrections since the last report. -/
  sramCorr : Nat := 0
  dramCorr : Nat := 0
  /-- Domains out of their windows, highest temperature in 0.1 °C, and the hardware suspicion of R245. -/
  regFault : Nat := 0
  temp : Int := 0
  suspect : Bool := false
  /-- A lockstep mismatch since the last report. -/
  lockstep : Bool := false
  /-- A report waits for the next beacon (R228). -/
  beacon : Bool := false
deriving DecidableEq, Repr

/-- What the register files and counters decide in one FRC count (R9, R26, R108, R437): the counters as the present count
began, less what a clear has taken since, and the status bits that hardware has set in it. -/
structure Instant where
  /-- Registers as the count began. -/
  rf : Tbl W64 := []
  /-- Bits that hardware has set in this count, by address of the register. -/
  raised : Tbl Nat := []
  /-- Place of the last write to each point in this count (R199). -/
  pts : Tbl Nat := []
  drops : Tbl Nat := []
  streams : Tbl Stream := []
  chains : Tbl FltChain := []
  ela : Tbl ElaTen := []
  pubs : Tbl Pub := []
  subs : Tbl Sub := []
  par : Tbl PairTen := []
  sch : Tbl SchTen := []
  caps : Tbl CapUnit := []
  /-- Group fires of this count by master, and the units that they have fired as they stood ARMED (R378, R384). -/
  capFires : Tbl (Option CapFire) := []
  capArmed : Tbl (Option CapUnit) := []
  /-- Controllers whose ring an owner's reset has emptied in this count (Table 14-3). -/
  cans : Tbl Bool := []
  /-- Slots as they stood before a COMMIT of this count (R356). -/
  keys : Tbl (Option KeySlot) := []
  /-- Tenants that were reset in this count (Table 15-12). -/
  resets : Tbl Bool := []
  /-- Credits outstanding, and how much had left the module, as the count began. -/
  used : Tbl Nat := []
  outs : Nat := 0
deriving DecidableEq, Repr

/-- The module. A register has one home: the structured fields below hold what a block works with, and `rf` holds
every register that is a stored value; Machine/Views.lean computes what a read of a register returns from both. -/
structure State where
  /-- Timebase. -/
  tb : Timebase := {}
  /-- Thyme channels 0 to 31 (R78). -/
  ttu : Tbl TtuChan := []
  /-- Tenants' timed-output requests at boundary 8, oldest first. -/
  ttuReqs : List TtuReq := []
  /-- Start edges waiting at internal targets 1 to 8 (Table 03-4), oldest first. -/
  edges : Tbl (List Edge) := []
  /-- Events whose tasks have not been activated yet (R261): tenant and source, oldest first. -/
  evts : List (Nat × EvtSrc) := []
  /-- Tenants 0 to 4095 (chapter 15). -/
  ten : Tbl Tenant := []
  /-- Slot of a tile (32 × tile + slot): tenant and BUDGET of the TILES section. -/
  slots : Tbl (Option (Nat × Nat)) := []
  /-- Tenants in the element array (Table 08-3). -/
  ela : Tbl ElaTen := []
  /-- Tile-cycle groups. -/
  groups : Tbl Group := []
  /-- Tile cores that are ungated (R178). -/
  awake : Tbl Bool := []
  /-- The point database (R197), by handle. -/
  pts : Tbl Point := []
  /-- Point writes of boundaries 6 and 9 that the database has not taken, oldest first. -/
  pntQ : List PointReq := []
  /-- The scheme runtime (chapter 11). -/
  sch : Runtime := {}
  /-- Loop engine (chapter 12) and local converters (chapter 13). -/
  lop : LoopEngine := {}
  adc : Converters := {}
  /-- CAN controllers (chapter 14). -/
  can : Tbl Can := []
  /-- Mailboxes: tenant t under t, link h under 4096 + 16 h. -/
  mbx : Tbl Mailbox := []
  /-- Queue pair q of window w under 128 w + q; ring r of link h under 128 (4096 + 16 h) + 60 + r. -/
  qps : Tbl QPair := []
  /-- Host links 0 to 3 (chapter 15). -/
  links : Tbl HostLink := []
  /-- Ports 0 to 7 (chapter 04). -/
  ports : Tbl Port := []
  /-- PRP duplicate discard, source tables and sequence counters (chapter 05). -/
  prp : Prp := {}
  /-- The switch core (chapter 05). -/
  sw : Switch := {}
  svx : Sesame := {}
  flt : Filter := {}
  par : Pairing := {}
  sge : Sage := {}
  goose : Goose := {}
  /-- Walnut, the event recorder (chapter 17). -/
  evr : Walnut := {}
  /-- Capture units 0 to 15 (chapter 17). -/
  dcr : Tbl CapUnit := []
  /-- Almond's lifetime counters (chapter 17). -/
  ltl : Almond := {}
  /-- Supplies, clocks, domains, reset and start-up (chapter 18). -/
  pwr : Power := {}
  /-- Hazel and the tamper monitor (chapter 16). -/
  kvs : Vault := {}
  /-- Lifecycle and attestation. -/
  att : Attest := {}
  /-- Credits of the boundaries (Table 01-4). -/
  crd : Credits := {}
  /-- Firmware and image selection, bank failures, SEAL (chapter 02). -/
  boot : Boot := {}
  /-- The structure in force (R27, R32). -/
  plan : Plan := {}
  /-- The amendment journal in MRAM (R54) and the four staging slots (R52). -/
  jrnl : Journal := {}
  amd : Tbl AmdSlot := []
  /-- Committed kind 1 amendments that wait for their slot windows, oldest first. -/
  acts : List AmdAct := []
  /-- What each requester holds for 64-bit registers (R10). -/
  bus : List (Requester × BusPort) := []
  /-- Register contents by management address of the register; an address that is not listed holds the
  register's reset value. -/
  rf : Tbl W64 := []
  /-- Byte memories of the management space; an address that is not listed reads zero. -/
  mem : List Host.Cell := []
  /-- What left the module, oldest first: frames, pin levels, host messages, completions. No register shows it. -/
  out : List Out := []
  /-- The present FRC count, for the same-cycle rules of R437. -/
  now : Instant := {}
  /-- The model's own counter of free values: Config.freeValue is applied to it. -/
  freeN : Nat := 0
  /-- Commands that wait, first in, first out. -/
  pending : List Instr := []
deriving DecidableEq, Repr

/-- No command of this module stops it with a fault: every effect the specification gives ends in a next state. -/
inductive Fault where
deriving DecidableEq, Repr

/-- Why a command has no meaning. -/
inductive Refusal where
  /-- An arm of exec without a meaning raises it; safe, since nothing is claimed of a command that is refused. -/
  | notModelled (mnemonic : String)
deriving DecidableEq, Repr

/-- The module right after a power-on reset: main power is good, REFCLK present, VBAT good, the supply phase has ended
(R403), the supervisor phase has not run. Every register holds its reset value, the FRC is 0, domain 0 and TBPLL are
on, RSTOUT_N is low, no image is applied; Almond has counted the power-on. -/
def State.reset : State :=
  { ltl := { cur := [(0, 1)] }
    pwr := { main := true, on := 1, pll := 1, phases := 1 } }

end Sys2Proof.Machine
end

