-- ==== Sys2Proof/Machine/Table.lean ====
section
/-! DEFINITION. Operations on sparse tables, lists and bit fields that every block uses. -/
namespace Sys2Proof.Machine

/-- The value of key k; a key that is not listed holds the default d. -/
def Tbl.get {α : Type} (d : α) : Tbl α → Nat → α
  | [], _ => d
  | (j, v) :: rest, k => if j = k then v else Tbl.get d rest k

/-- Removes every entry of key k. -/
def Tbl.del {α : Type} : Tbl α → Nat → Tbl α
  | [], _ => []
  | (j, v) :: rest, k => if j = k then Tbl.del rest k else (j, v) :: Tbl.del rest k

/-- Enters key k with value v in rising order, replacing what it held. -/
def Tbl.ins {α : Type} : Tbl α → Nat → α → Tbl α
  | [], k, v => [(k, v)]
  | (j, w) :: rest, k, v =>
    if j = k then (k, v) :: rest
    else if k < j then (k, v) :: (j, w) :: rest
    else (j, w) :: Tbl.ins rest k v

/-- Writes v at key k and keeps the canonical form: an entry equal to the default is removed. -/
def Tbl.put {α : Type} [DecidableEq α] (d : α) (m : Tbl α) (k : Nat) (v : α) : Tbl α :=
  if v = d then Tbl.del m k else Tbl.ins m k v

/-- Changes the value of key k by f. -/
def Tbl.upd {α : Type} [DecidableEq α] (d : α) (m : Tbl α) (k : Nat) (f : α → α) : Tbl α :=
  Tbl.put d m k (f (Tbl.get d m k))

/-- Changes the value of every key that is listed. -/
def Tbl.each {α : Type} [DecidableEq α] (d : α) (m : Tbl α) (f : Nat → α → α) : Tbl α :=
  m.foldl (fun t e => Tbl.put d t e.1 (f e.1 (Tbl.get d m e.1))) m

/-- Every listed key rises strictly. -/
def Tbl.rising {α : Type} : Tbl α → Bool
  | [] => true
  | [_] => true
  | (j, _) :: (k, v) :: rest => decide (j < k) && Tbl.rising ((k, v) :: rest)

/-- The canonical form: keys strictly rising, no entry equal to the default. -/
def Tbl.wf {α : Type} [DecidableEq α] (d : α) (m : Tbl α) : Bool :=
  Tbl.rising m && m.all fun e => decide (e.2 ≠ d)

/-- Bits [hi:lo] of a number. -/
def bits (v hi lo : Nat) : Nat := v / 2 ^ lo % 2 ^ (hi + 1 - lo)

/-- Bit i of a number. -/
def bit (v i : Nat) : Bool := v / 2 ^ i % 2 = 1

/-- 1 or 0. -/
def b2n (b : Bool) : Nat := if b then 1 else 0

/-- v with bits [hi:lo] replaced by x. -/
def setBits (v hi lo x : Nat) : Nat :=
  v - bits v hi lo * 2 ^ lo + x % 2 ^ (hi + 1 - lo) * 2 ^ lo

/-- v with bit i set. -/
def setBit (v i : Nat) : Nat := v ||| 2 ^ i

/-- v with bit i clear. -/
def clrBit (v i : Nat) : Nat := if bit v i then v - 2 ^ i else v

/-- A w-bit field read as a signed number. -/
def signed (w v : Nat) : Int := if v % 2 ^ w < 2 ^ (w - 1) then (v % 2 ^ w : Nat) else (v % 2 ^ w : Nat) - 2 ^ w

/-- A signed number as a w-bit field (two's complement). -/
def unsigned (w : Nat) (v : Int) : Nat := (v % (2 ^ w : Nat)).toNat

/-- Adds 1 to a counter that saturates at all ones of w bits. -/
def satInc (w v : Nat) : Nat := if v + 1 < 2 ^ w then v + 1 else 2 ^ w - 1

/-- Adds n to a counter that saturates at all ones of w bits. -/
def satAdd (w v n : Nat) : Nat := if v + n < 2 ^ w then v + n else 2 ^ w - 1

/-- Changes element i of a list; a list without it stays as it is. -/
def modAt {α : Type} (l : List α) (i : Nat) (f : α → α) : List α :=
  match l, i with
  | [], _ => []
  | x :: xs, 0 => f x :: xs
  | x :: xs, i + 1 => x :: modAt xs i f

/-- The least n bytes of v, least significant first (R4). -/
def leBytes : Nat → Nat → List Byte
  | 0, _ => []
  | n + 1, v => BitVec.ofNat 8 v :: leBytes n (v / 256)

/-- Bytes, least significant first, as a number (R4). -/
def ofLe : List Byte → Nat
  | [] => 0
  | b :: bs => b.toNat + 256 * ofLe bs

/-- Folds f over 0, …, n − 1. -/
def iterUpto {α : Type} (n : Nat) (f : Nat → α → α) (a : α) : α := (List.range n).foldl (fun x i => f i x) a

/-- Applies f where b holds. -/
def applyIf {α : Type} (b : Bool) (f : α → α) (a : α) : α := if b then f a else a

end Sys2Proof.Machine
end

