-- ==== Sys2Proof/Machine/Regs.lean ====
section
/-! DEFINITION. The register file: stored values by name and index, and the address decoder of the management
space (R10, R11, R410, R413, R414). -/
namespace Sys2Proof.Machine

/-- The management address of register r at indexes i, j. -/
def regAddr (r : Reg) (i j : Nat) : Nat :=
  (regInfo r).base + (regInfo r).s0 * i + (regInfo r).s1 * j

/-- The stored value of a register: what was last put there, or its reset value. -/
def State.rg (s : State) (r : Reg) (i : Nat := 0) (j : Nat := 0) : Nat :=
  (Tbl.get (BitVec.ofNat 64 (regInfo r).reset) s.rf (regAddr r i j)).toNat

/-- Stores a value in a register. -/
def State.setRg (s : State) (r : Reg) (v : Nat) (i : Nat := 0) (j : Nat := 0) : State :=
  { s with rf := Tbl.put (BitVec.ofNat 64 (regInfo r).reset) s.rf (regAddr r i j) (BitVec.ofNat 64 v) }

/-- Bits [hi:lo] of a stored register. -/
def State.fld (s : State) (r : Reg) (hi lo : Nat) (i : Nat := 0) (j : Nat := 0) : Nat := bits (s.rg r i j) hi lo

/-- Bit b of a stored register. -/
def State.flag (s : State) (r : Reg) (b : Nat) (i : Nat := 0) (j : Nat := 0) : Bool := bit (s.rg r i j) b

/-- The bits of a mask have been set in this FRC count (R9). -/
def State.markRaised (s : State) (r : Reg) (mask : Nat) (i : Nat := 0) (j : Nat := 0) : State :=
  { s with now := { s.now with raised := Tbl.upd 0 s.now.raised (regAddr r i j) (· ||| mask) } }

/-- Sets the bits of a mask, as hardware sets status bits. -/
def State.orRg (s : State) (r : Reg) (mask : Nat) (i : Nat := 0) (j : Nat := 0) : State :=
  (s.setRg r (s.rg r i j ||| mask) i j).markRaised r mask i j

/-- Sets bit b. -/
def State.setFlag (s : State) (r : Reg) (b : Nat) (i : Nat := 0) (j : Nat := 0) : State := s.orRg r (2 ^ b) i j

/-- Clears bit b. -/
def State.clrFlag (s : State) (r : Reg) (b : Nat) (i : Nat := 0) (j : Nat := 0) : State :=
  s.setRg r (clrBit (s.rg r i j) b) i j

/-- Replaces bits [hi:lo]. -/
def State.setFld (s : State) (r : Reg) (hi lo v : Nat) (i : Nat := 0) (j : Nat := 0) : State :=
  s.setRg r (setBits (s.rg r i j) hi lo v) i j

/-! One FRC count (R9, R108, R437) -/

/-- The present FRC count begins: what the counters hold now, and no bit set in it yet. -/
def State.instant (s : State) : Instant :=
  { rf := s.rf, drops := s.crd.drops, streams := s.svx.streams, chains := s.flt.chains, ela := s.ela
    pubs := s.goose.pubs, subs := s.goose.subs, par := s.par.ten, sch := s.sch.ten, caps := s.dcr
    used := s.crd.used, outs := s.out.length }

/-- Bits of a register that hardware has set in this FRC count. -/
def State.raisedNow (s : State) (r : Reg) (i : Nat := 0) (j : Nat := 0) : Nat := Tbl.get 0 s.now.raised (regAddr r i j)

/-- What events of this FRC count have added to a counter register, or to its fields. -/
def State.countedNow (s : State) (r : Reg) (i : Nat := 0) (j : Nat := 0) : Nat :=
  s.rg r i j - (Tbl.get (BitVec.ofNat 64 (regInfo r).reset) s.now.rf (regAddr r i j)).toNat

/-- A clear of a counter register: events of the same FRC count are counted after it (R9, R108). -/
def State.clrCount (s : State) (r : Reg) (i : Nat := 0) (j : Nat := 0) : State :=
  let s := s.setRg r (s.countedNow r i j) i j
  { s with now := { s.now with rf := Tbl.put (BitVec.ofNat 64 (regInfo r).reset) s.now.rf (regAddr r i j) 0 } }

/-- Counters after their clear: what events of this FRC count have added to what they held as it began. -/
def Tbl.since (now before : Tbl Nat) : Tbl Nat := Tbl.each 0 now fun k v => v - Tbl.get 0 before k

/-- The counters of one entry of a table after their clear. -/
def Tbl.recountAt {α : Type} [DecidableEq α] (d : α) (m before : Tbl α) (k : Nat) (cnt : α → Tbl Nat)
    (put : α → Tbl Nat → α) : Tbl α :=
  Tbl.upd d m k fun x => put x (Tbl.since (cnt x) (cnt (Tbl.get d before k)))

/-- The counters of every entry of a table after their clear. -/
def Tbl.recount {α : Type} [DecidableEq α] (d : α) (m before : Tbl α) (cnt : α → Tbl Nat) (put : α → Tbl Nat → α) :
    Tbl α :=
  Tbl.each d m fun k x => put x (Tbl.since (cnt x) (cnt (Tbl.get d before k)))

/-- Adds 1 to a saturating 32-bit counter register. -/
def State.incRg (s : State) (r : Reg) (i : Nat := 0) (j : Nat := 0) : State :=
  s.setRg r (satInc 32 (s.rg r i j)) i j

/-- Adds n to a saturating 64-bit counter register. -/
def State.addRg64 (s : State) (r : Reg) (n : Nat) (i : Nat := 0) (j : Nat := 0) : State :=
  s.setRg r (satAdd 64 (s.rg r i j) n) i j

/-- What stands at a word address: a register with its indexes, and whether the word is the high one. -/
structure RegAt where
  reg : Reg
  i : Nat
  j : Nat
  high : Bool
deriving DecidableEq, Repr

/-- The word of register r at address a, if a lies in r. -/
def regMatch (a : Nat) (r : Reg) : Option RegAt :=
  let g := regInfo r
  if a < g.base then none
  else
    let o := a - g.base
    let i := if g.s0 = 0 then 0 else o / g.s0
    let o1 := if g.s0 = 0 then o else o % g.s0
    let j := if g.s1 = 0 then 0 else o1 / g.s1
    let o2 := if g.s1 = 0 then o1 else o1 % g.s1
    if i < g.n0 ∧ j < g.n1 ∧ (o2 = 0 ∨ (g.wide = true ∧ o2 = 4)) then some ⟨r, i, j, o2 = 4⟩ else none

/-- The register word at a word address of the management space (R410). -/
def regFind (a : Nat) : Option RegAt :=
  match regBlocks.find? (fun b => decide (b.1 ≤ a ∧ a < b.1 + b.2.1)) with
  | none => none
  | some b => b.2.2.findSome? (regMatch a)

/-- Word w of a 64-bit value. -/
def wordOf (v : Nat) (high : Bool) : W32 := BitVec.ofNat 32 (if high then v / 2 ^ 32 else v)

/-- A byte of the management space's memories; an unlisted address reads zero. -/
def memByte (m : List Host.Cell) (a : Nat) : Byte := Tbl.get 0 m a

/-- Writes a byte and keeps the memory canonical. -/
def memPut (m : List Host.Cell) (a : Nat) (b : Byte) : List Host.Cell := Tbl.put 0 m a b

/-- Writes bytes from address a on. -/
def memPutAll : List Host.Cell → Nat → List Byte → List Host.Cell
  | m, _, [] => m
  | m, a, b :: bs => memPutAll (memPut m a b) (a + 1) bs

/-- Reads n bytes from address a on. -/
def memGet (m : List Host.Cell) (a : Nat) : Nat → List Byte
  | 0 => []
  | n + 1 => memByte m a :: memGet m (a + 1) n

/-- The canonical form of the byte memory: addresses strictly rising, no byte equal to what an unlisted address
reads as. -/
def Memory.wf (m : List Host.Cell) : Bool := Tbl.wf 0 m

end Sys2Proof.Machine
end

