-- ==== Sys2Proof/Machine/Clock.lean ====
section
/-! DEFINITION. Device time (R63), the locked condition (R68) and the nominal sample periods. -/
namespace Sys2Proof.Machine

/-- The free-running counter. -/
def State.frc (s : State) : Nat := s.tb.frc

/-- Stamps are numbers modulo 2^72 (R5, R63). -/
def stampMod (x : Int) : Stamp := (x % (2 ^ 72 : Nat)).toNat

/-- The rate term of R63 in 1/256 ns: floor of d256 × RATE × 2^-44. -/
def rateTerm (anc rate frc phi : Nat) : Int :=
  let d : Int := signed 64 ((frc + 2 ^ 64 - anc % 2 ^ 64) % 2 ^ 64)
  (d * 256 + phi) * signed 32 rate / (2 ^ 44 : Nat)

/-- Device time of given settings at an FRC count and a position within it (R63). -/
def dtOf (ofs anc rate frc phi : Nat) : Stamp :=
  stampMod (((frc : Int) + ofs) * 256 + phi + rateTerm anc rate frc phi)

/-- Device time at an FRC count and a position within it, under the settings in force (R63). -/
def State.dtAt (s : State) (frc phi : Nat) : Stamp :=
  dtOf (s.rg .TMB_OFS) (s.rg .TMB_ANC) (s.rg .TMB_RATE) frc phi

/-- Device time at the present FRC count; phi is 0 (R63). -/
def State.dt (s : State) : Stamp := s.dtAt s.frc 0

/-- Whole nanoseconds of a stamp, bits [71:8]. -/
def stampNs (t : Stamp) : Nat := t / 256

/-- LOCKED and HOLDOVER count as locked (R68). -/
def State.locked (s : State) : Bool :=
  match s.tb.sync with
  | .locked | .holdover => true
  | .free | .lost => false

/-- TMB_SYNC.STATE. -/
def syncCode : SyncState → Nat
  | .free => 0
  | .locked => 1
  | .holdover => 2
  | .lost => 3

/-- The signed difference a − b of two stamps, in 1/256 ns, modulo 2^72. -/
def stampDiff (a b : Stamp) : Int := signed 72 ((a + 2 ^ 72 - b % 2 ^ 72) % 2 ^ 72)

/-- Stamp a moved by a signed number of 1/256 ns. -/
def stampAdd (a : Stamp) (d : Int) : Stamp := stampMod ((a : Int) + d)

/-- Samples per second of a RATE code (Table 06-1). -/
def rateHz : Nat → Nat
  | 0 => 4000
  | 1 => 4800
  | _ => 14400

/-- ⌊m × P × 256⌋ for the nominal sample period P of a RATE code (R146). -/
def periods256 (rate m : Nat) : Nat := m * 256000000000 / rateHz rate

/-- One millisecond, one microsecond and one second in FRC counts. -/
def ms : Nat := 1000000
def us : Nat := 1000
def sec : Nat := 1000000000

end Sys2Proof.Machine
end

