-- ==== Sys2Proof/Machine/Crc.lean ====
section
/-! DEFINITION. Check codes in reflected form (R97, R435, R436). -/
namespace Sys2Proof.Machine

/-- One bit of a reflected CRC register. -/
def crcBit (poly r : Nat) : Nat := if r % 2 = 1 then Nat.xor (r / 2) poly else r / 2

/-- One byte, least significant bit first. -/
def crcByte (poly r : Nat) (b : Byte) : Nat := (List.range 8).foldl (fun r _ => crcBit poly r) (Nat.xor r b.toNat)

/-- The CRC of w bits: register starting at all ones, result complemented. -/
def crcReflected (w poly : Nat) (bs : List Byte) : Nat :=
  Nat.xor (bs.foldl (crcByte poly) (2 ^ w - 1)) (2 ^ w - 1)

/-- IEEE 802.3 CRC-32 (R97). -/
def crc32 : List Byte → Nat := crcReflected 32 0xEDB88320
/-- CRC-32C (R435). -/
def crc32c : List Byte → Nat := crcReflected 32 0x82F63B78
/-- CRC-64 of INDIG (R436). -/
def crc64 : List Byte → Nat := crcReflected 64 0xC96C5795D7870F42

/-- A 48-bit address as its bytes in order of transmission (R97). -/
def addrBytes (a : Nat) : List Byte := (leBytes 6 a).reverse

/-- The hash bin of a destination address (R97). -/
def hashBin (da : Nat) : Nat := crc32 (addrBytes da) % 4096

end Sys2Proof.Machine
end

