-- ==== Sys2Proof/Config.lean ====
section
/-! DEFINITION. Free values: what the spec leaves open, as constants without a body. No proof can see their values.

Cryptographic functions that the spec names by their standards stand here as well: the spec states where they are
applied and to what, and nothing in this model computes them. -/
namespace Sys2Proof.Config

/-- A free value, one for each count of the state's counter `freeN`. -/
opaque freeValue : Nat → Nat

/-- SHA-384 of a byte string. -/
opaque sha384 : List Byte → Nat

/-- Key material that Hazel derives: parent material, label, slot, kind (R354). -/
opaque kdf : Nat → Nat → Nat → Nat → Nat

/-- The key check value of a kind and key material, 128 bits (R355). -/
opaque keyCheck : Nat → Nat → Nat

/-- SHA-384 of the public key of slot 2 (ATT_DEVID): slot 2 is derived from the fuses, so it never changes. -/
opaque deviceId : Nat

/-- Digests of the Jenfort test root and of the vendor roots in the fuses (R33, R364). -/
opaque jenfortTestRoot : Nat

/-- The analogue value that a capture unit writes for a point of TYPE B (R376 names S, U, F and unused points only). -/
opaque captureOfB : Nat → Nat

/-- Output of the random-bit generator, by count (R354). -/
opaque randomBits : Nat → Nat

/-- The source address of frames that Thyme and the pairing block build for a port. -/
opaque portAddress : Nat → Nat

/-- VIN_MAIN in mV and the package's input power in units of 10 mW (PWR_VMON), measured in each millisecond of the FRC:
they come from outside. -/
opaque vinMillivolt : Nat → Nat
opaque inputPower : Nat → Nat

/-- Bits [11:0] of the JTAG identification: the spec gives [31:12] only. -/
opaque jtagMaker : Nat

end Sys2Proof.Config
end

