-- ==== Sys2Proof/Machine/Bytes.lean ====
section
/-! DEFINITION. Fields of a byte string that is given by its bytes that are not zero: images, records, key blobs and
lifecycle tokens. -/
namespace Sys2Proof.Machine

/-- Little-endian number of n bytes at offset o. -/
def bnum (b : Bytes) (o n : Nat) : Nat :=
  b.foldl (fun a (e : Nat × Byte) => if o ≤ e.1 ∧ e.1 < o + n then a + e.2.toNat * 256 ^ (e.1 - o) else a) 0

/-- The n bytes at offset o, counted from there. -/
def bcut (b : Bytes) (o n : Nat) : Bytes :=
  b.filterMap fun (e : Nat × Byte) => if o ≤ e.1 ∧ e.1 < o + n then some (e.1 - o, e.2) else none

/-- Bytes lo to hi − 1 are zero. -/
def bzero (b : Bytes) (lo hi : Nat) : Bool :=
  b.all fun (e : Nat × Byte) => decide (e.1 < lo ∨ hi ≤ e.1 ∨ e.2 = 0)

/-- The bytes of a sorted string from position p on, n of them. -/
def bfill : Bytes → Nat → Nat → List Byte
  | _, _, 0 => []
  | [], _, n + 1 => List.replicate (n + 1) 0
  | (o, v) :: rest, p, n + 1 => if o = p then v :: bfill rest (p + 1) n else 0 :: bfill ((o, v) :: rest) (p + 1) n

/-- The n bytes at offset o as a list. -/
def blist (b : Bytes) (o n : Nat) : List Byte := bfill (bcut b o n) 0 n

/-- A number whose first byte is the most significant, as digests and addresses stand. -/
def bbig (b : Bytes) (o n : Nat) : Nat := ofLe (blist b o n).reverse

/-- A digest as bytes: 48 of them, the first most significant (R47). -/
def digestBytes (d : Digest) : List Byte := (leBytes 48 d).reverse

/-- The signature verifies over the SHA-384 of bytes 0 to n − 1 of the string (R33). -/
def Signed.covers (g : Signed) (b : Bytes) (n : Nat) : Bool := g.ok && decide (g.over_ = blist b 0 n)

/-! A key blob (Table 16-2) -/

def KeyBlob.kind (b : KeyBlob) : Nat := bnum b.bytes 4 1
def KeyBlob.use (b : KeyBlob) : Nat := bnum b.bytes 5 1
def KeyBlob.notAfter (b : KeyBlob) : Nat := bnum b.bytes 8 4
def KeyBlob.formatOk (b : KeyBlob) : Bool :=
  decide (blist b.bytes 0 4 = [0x56, 0x4B, 0x42, 0x4C] ∧ bnum b.bytes 6 2 = if b.kind = 4 then 48 else 32) &&
    bzero b.bytes 24 32

/-! A lifecycle token (Table 16-7) -/

def LcToken.src (k : LcToken) : Nat := bnum k.bytes 4 1
def LcToken.dst (k : LcToken) : Nat := bnum k.bytes 5 1
def LcToken.deviceId (k : LcToken) : List Byte := blist k.bytes 8 48
def LcToken.ownerRoot (k : LcToken) : Digest := bbig k.bytes 0x38 48
/-- MAGIC, lifecycle states that exist, and zero where the table has zero. -/
def LcToken.formatOk (k : LcToken) : Bool :=
  decide (blist k.bytes 0 4 = [0x56, 0x4C, 0x43, 0x54] ∧ k.src ≤ 4 ∧ k.dst ≤ 4) && bzero k.bytes 6 8 &&
    bzero k.bytes 0x68 0x70 && (decide (k.dst = 1) || bzero k.bytes 0x38 0x68)

end Sys2Proof.Machine
end

