-- ==== Sys2Proof/Machine/Float.lean ====
section
/-! DEFINITION. Binary32 arithmetic of the tiles and the loop engine (R182, R438): round to nearest even, subnormal
results to zero, a result that is NaN or infinite gives 0 and is marked. -/
namespace Sys2Proof.Machine

/-- A binary32 value on its way through a formula: its 32-bit word, and whether every operation so far gave a number. -/
structure FV where
  w : Nat := 0
  ok : Bool := true
deriving DecidableEq, Repr

/-- Sign bit. -/
def fNeg (w : Nat) : Bool := bit w 31

/-- The finite value of a word as m × 2^e with a signed m; a subnormal word reads as zero. -/
def fParts (w : Nat) : Int × Int :=
  let e := bits w 30 23
  if e = 0 then (0, 0)
  else
    let m : Int := 2 ^ 23 + bits w 22 0
    (if fNeg w then -m else m, (e : Int) - 150)

/-- A NaN or an infinity. -/
def fSpecial (w : Nat) : Bool := decide (bits w 30 23 = 255)

/-- Rounds (m + δ) × 2^e, with δ in (0, 1) when `sticky`, to nearest even (R182); none for an infinite result. With
`sticky`, m must have at least 26 bits. -/
def fRound (neg : Bool) (m : Nat) (e : Int) (sticky : Bool) : Option Nat :=
  let sign := if neg then 2 ^ 31 else 0
  if m = 0 then some sign
  else
    let len := Nat.log2 m + 1
    let (q, x) : Nat × Int :=
      if len ≤ 24 then (m * 2 ^ (24 - len), e - (24 - len : Nat))
      else
        let sh := len - 24
        let q := m / 2 ^ sh
        let rem := m % 2 ^ sh
        let half := 2 ^ (sh - 1)
        let up := decide (half < rem) || (decide (rem = half) && (sticky || decide (q % 2 = 1)))
        (if up then q + 1 else q, e + sh)
    let (q, x) := if q = 2 ^ 24 then (2 ^ 23, x + 1) else (q, x)
    let ex := x + 150
    if ex ≤ 0 then some sign
    else if 255 ≤ ex then none
    else some (sign + ex.toNat * 2 ^ 23 + (q - 2 ^ 23))

/-- The marked result of a rounding. -/
def fvOf (ok : Bool) (r : Option Nat) : FV :=
  match r with
  | some w => { w := w, ok := ok }
  | none => { w := 0, ok := false }

def fvRound (ok neg : Bool) (m : Nat) (e : Int) (sticky : Bool) : FV := fvOf ok (fRound neg m e sticky)

/-- A signed dyadic number rounded; zero takes the given sign. -/
def fvDyadic (ok : Bool) (m e : Int) (zeroNeg : Bool) : FV :=
  fvRound ok (if m = 0 then zeroNeg else decide (m < 0)) m.natAbs e false

/-- An operand word; a NaN or an infinity counts as not a number. -/
def fv (w : Nat) : FV := if fSpecial w then { w := 0, ok := false } else { w := w }

/-- An integer converted (R182). -/
def fInt (v : Int) : FV := fvDyadic true v 0 false

def fvNeg (a : FV) : FV := { a with w := Nat.xor a.w (2 ^ 31) }
def fvAbs (a : FV) : FV := { a with w := a.w % 2 ^ 31 }

def fvAdd (a b : FV) : FV :=
  let (ma, ea) := fParts a.w
  let (mb, eb) := fParts b.w
  let ok := a.ok && b.ok
  if ma = 0 ∧ mb = 0 then fvDyadic ok 0 0 (fNeg a.w && fNeg b.w)
  else if ma = 0 then { w := b.w, ok := ok }
  else if mb = 0 then { w := a.w, ok := ok }
  else
    let e := min ea eb
    fvDyadic ok (ma * 2 ^ (ea - e).toNat + mb * 2 ^ (eb - e).toNat) e false

def fvSub (a b : FV) : FV := fvAdd a (fvNeg b)

def fvMul (a b : FV) : FV :=
  let (ma, ea) := fParts a.w
  let (mb, eb) := fParts b.w
  fvDyadic (a.ok && b.ok) (ma * mb) (ea + eb) (fNeg a.w != fNeg b.w)

/-- A division by zero is not a number. -/
def fvDiv (a b : FV) : FV :=
  let (ma, ea) := fParts a.w
  let (mb, eb) := fParts b.w
  let ok := a.ok && b.ok
  if mb = 0 then { w := 0, ok := false }
  else
    let n := ma.natAbs * 2 ^ 60
    let d := mb.natAbs
    fvRound ok (fNeg a.w != fNeg b.w) (n / d) (ea - eb - 60) (decide (n % d ≠ 0))

/-- Square root, correctly rounded; of a negative number it is not a number. -/
def fvSqrt (a : FV) : FV :=
  let (m, e) := fParts a.w
  if m = 0 then a
  else if m < 0 then { w := 0, ok := false }
  else
    let (m, e) := if e % 2 = 0 then (m.natAbs, e) else (m.natAbs * 2, e - 1)
    let n := m * 2 ^ 60
    let r := Nat.sqrt n
    fvRound a.ok false r (e / 2 - 30) (decide (r * r ≠ n))

/-- Exact comparison of two words as numbers: a < b, a ≤ b. -/
def fLt (a b : Nat) : Bool :=
  let (ma, ea) := fParts a
  let (mb, eb) := fParts b
  let e := min ea eb
  decide (ma * 2 ^ (ea - e).toNat < mb * 2 ^ (eb - e).toNat)
def fLe (a b : Nat) : Bool := !fLt b a

def fvMax (a b : FV) : FV := { w := if fLt a.w b.w then b.w else a.w, ok := a.ok && b.ok }

/-- Constants as words. -/
def f0 : FV := {}
def f1 : FV := { w := 0x3F800000 }
def f2 : FV := { w := 0x40000000 }
/-- π and 2π in binary32. -/
def fPi : FV := { w := 0x40490FDB }
def f2Pi : FV := { w := 0x40C90FDB }

/-! Fixed-point functions, 2^-160 units, for correctly rounded results. -/

/-- The unit of the fixed-point functions. -/
def fxOne : Nat := 2 ^ 160

/-- arctan of 1/k by its series, with `n` terms left; `p` is the present power over the unit. -/
def fxAtanInv (k : Nat) : Nat → Nat → Nat → Bool → Int → Int
  | 0, _, _, _, acc => acc
  | n + 1, p, d, pos, acc =>
    fxAtanInv k n (p / (k * k)) (d + 2) (!pos) (if pos then acc + (p / d : Nat) else acc - (p / d : Nat))

/-- π in fixed point (Machin: 16 arctan 1/5 − 4 arctan 1/239). -/
def fxPi : Int := 16 * fxAtanInv 5 80 (fxOne / 5) 1 true 0 - 4 * fxAtanInv 239 30 (fxOne / 239) 1 true 0

/-- cos of a fixed-point angle by its series: term, index, angle squared. -/
def fxCosGo (x2 : Int) : Nat → Nat → Int → Int → Int
  | 0, _, _, acc => acc
  | n + 1, i, term, acc =>
    let next := -(term * x2 / fxOne) / ((i + 1) * (i + 2) : Nat)
    fxCosGo x2 n (i + 2) next (acc + term)
def fxCos (x : Int) : Int := fxCosGo (x * x / fxOne) 48 0 fxOne 0

/-- sin by its series. -/
def fxSin (x : Int) : Int := fxCosGo (x * x / fxOne) 48 1 x 0

/-- A twiddle factor part: value × 2^29 rounded to nearest and saturated to 30 signed bits (R189). -/
def twiddleRound (v : Int) : Int :=
  let r := (v * 2 ^ 29 + (fxOne / 2 : Nat)) / fxOne
  if 2 ^ 29 - 1 < r then 2 ^ 29 - 1 else if r < -(2 ^ 29 : Int) then -(2 ^ 29 : Int) else r

/-- w_k of R189: cos(2πj/N) and −sin(2πj/N) for j = H k mod N, exactly at the quarter turns. -/
def twiddle (h n k : Nat) : Int × Int :=
  let j := h * k % n
  if j = 0 then (2 ^ 29 - 1, 0)
  else if 4 * j = n then (0, -(2 ^ 29 : Int))
  else if 2 * j = n then (-(2 ^ 29 : Int), 0)
  else if 4 * j = 3 * n then (0, 2 ^ 29 - 1)
  else
    let x := 2 * fxPi * j / n
    (twiddleRound (fxCos x), twiddleRound (-(fxSin x)))

/-- arctan of a fixed-point number in [0, 1] near a table-free reduction: halves the argument twice through
t = x / (1 + sqrt(1 + x²)), then the series. -/
def fxHalf (x : Nat) : Nat := x * fxOne / (fxOne + Nat.sqrt (fxOne * fxOne + x * x))
def fxAtanSeries (x2 : Nat) : Nat → Nat → Nat → Bool → Int → Int
  | 0, _, _, _, acc => acc
  | n + 1, p, d, pos, acc =>
    fxAtanSeries x2 n (p * x2 / fxOne) (d + 2) (!pos) (if pos then acc + (p / d : Nat) else acc - (p / d : Nat))
def fxAtan (x : Nat) : Int :=
  let y := fxHalf (fxHalf (fxHalf x))
  8 * fxAtanSeries (y * y / fxOne) 48 y 1 true 0

/-- atan2(y, x) in (−π, π], rounded to binary32; of (0, 0) it is 0 (R438). For a quotient so small that its arctangent
equals it to the precision kept, the quotient itself is rounded. -/
def fvAtan2 (y x : FV) : FV :=
  let (my, ey) := fParts y.w
  let (mx, ex) := fParts x.w
  let ok := y.ok && x.ok
  if my = 0 then
    if mx < 0 then { fPi with ok := ok } else { w := 0, ok := ok }
  else
    let e := min ey ex
    let ay := my.natAbs * 2 ^ (ey - e).toNat
    let ax := mx.natAbs * 2 ^ (ex - e).toNat
    let neg := decide (my < 0)
    if 0 < mx ∧ ay * 2 ^ 40 < ax then
      -- arctan q lies just below q
      let n := ay * 2 ^ (Nat.log2 ax + 80)
      let q := n / ax
      fvRound ok neg (q - 1) (-(Nat.log2 ax + 80 : Nat)) true
    else
      let a : Int :=
        if ay ≤ ax then fxAtan (ay * fxOne / ax) else fxPi / 2 - fxAtan (ax * fxOne / ay)
      let a := if mx < 0 then fxPi - a else a
      fvRound ok neg a.natAbs (-160) true

/-- A binary32 word in fixed point. -/
def fxOf (w : Nat) : Int :=
  let (m, e) := fParts w
  let x := e + 160
  if 0 ≤ x then m * 2 ^ x.toNat else m / (2 ^ (-x).toNat : Nat)

/-- The fixed-point value rounded to binary32. -/
def fvFx (v : Int) : FV := fvRound true (decide (v < 0)) v.natAbs (-160) true

/-- cos and sin of a binary32 angle in (−π, π]. -/
def fvCos (w : Nat) : FV := fvFx (fxCos (fxOf w))
def fvSin (w : Nat) : FV := fvFx (fxSin (fxOf w))

/-- Largest r of b bits with r^50 ≤ n, found bit by bit. -/
def root50Go (n : Nat) : Nat → Nat → Nat
  | 0, acc => acc
  | b + 1, acc => if (acc + 2 ^ b) ^ 50 ≤ n then root50Go n b (acc + 2 ^ b) else root50Go n b acc

/-- M^0.02 for M ≥ 1, correctly rounded (R438). -/
def fvPow002 (a : FV) : FV :=
  let (m, e) := fParts a.w
  let s := 40
  let n := if 0 ≤ e then m.natAbs * 2 ^ (e.toNat + 50 * s) else m.natAbs * 2 ^ (50 * s) / 2 ^ (-e).toNat
  let r := root50Go n 44 0
  fvRound a.ok false r (-(s : Nat)) (decide (r ^ 50 ≠ n))

/-! Complex values -/

/-- A complex value. -/
structure CV where
  re : FV := {}
  im : FV := {}
deriving DecidableEq, Repr

def CV.ok (a : CV) : Bool := a.re.ok && a.im.ok
def cvAdd (a b : CV) : CV := { re := fvAdd a.re b.re, im := fvAdd a.im b.im }
def cvSub (a b : CV) : CV := { re := fvSub a.re b.re, im := fvSub a.im b.im }
def cvMul (a b : CV) : CV :=
  { re := fvSub (fvMul a.re b.re) (fvMul a.im b.im), im := fvAdd (fvMul a.re b.im) (fvMul a.im b.re) }
def cvScale (k : FV) (a : CV) : CV := { re := fvMul k a.re, im := fvMul k a.im }
def cvConj (a : CV) : CV := { a with im := fvNeg a.im }
def cvDiv (a b : CV) : CV :=
  let d := fvAdd (fvMul b.re b.re) (fvMul b.im b.im)
  if d.w % 2 ^ 31 = 0 then { re := { ok := false }, im := { ok := false } }
  else
    { re := fvDiv (fvAdd (fvMul a.re b.re) (fvMul a.im b.im)) d,
      im := fvDiv (fvSub (fvMul a.im b.re) (fvMul a.re b.im)) d }
def cvAbs (a : CV) : FV := fvSqrt (fvAdd (fvMul a.re a.re) (fvMul a.im a.im))
def cvArg (a : CV) : FV := fvAtan2 a.im a.re

end Sys2Proof.Machine
end

