-- ==== Sys2Proof/Machine/Prims.lean ====
section
/-! DEFINITION. The 44 primitives (R182, R183, R188 to R190, R192, R438 to R440, Table 08-5). -/
namespace Sys2Proof.Machine

/-- What a node sees of its window: bindings, SLIP, the device time of the opening, the fetched points, the group rate. -/
structure NodeEnv where
  node : Nat := 0
  binds : List BindSt := []
  /-- ALIGN = STAMP of each binding. -/
  byStamp : List Bool := []
  slip : Bool := false
  openDt : Stamp := 0
  points : List (Nat × Point) := []
  fg : Nat := 4000
deriving DecidableEq, Repr

/-- Invalid is worse than questionable, questionable worse than good (R183). -/
def worseQ (a b : Nat) : Nat := if a = 1 ∨ b = 1 then 1 else if a = 3 ∨ b = 3 then 3 else 0
def worstQ (ins : List NodeOut) : Nat := ins.foldl (fun q i => worseQ q i.q) 0

/-- Stamp of binding 0's current record. -/
def NodeEnv.stamp0 (e : NodeEnv) : Option Stamp := ((e.binds.getD 0 {}).rec_).map (·.stamp)

/-- A signal read as one type; an S signal at an F input is converted (R182). -/
def Sig.toF : Sig → FV
  | .f w => fv w
  | .s v => fInt v
  | _ => f0
def Sig.toC : Sig → CV
  | .c re im => { re := fv re, im := fv im }
  | _ => {}
def Sig.toB : Sig → Bool
  | .b v => v
  | _ => false
def Sig.toS : Sig → Int
  | .s v => v
  | _ => 0

/-- Outputs of an F, C or B value. An operation that gave no number gave 0, and those after it went on from there; Q is invalid
(R182, R438). -/
def outF (q : Nat) (v : FV) : NodeOut := { sig := .f v.w, q := if v.ok then q else 1 }
def outC (q : Nat) (v : CV) : NodeOut := { sig := .c v.re.w v.im.w, q := if v.ok then q else 1 }
def outB (q : Nat) (v : Bool) : NodeOut := { sig := .b v, q := q }
/-- A B output of a comparator or characteristic: false while Q is invalid (R183). -/
def outDecide (q : Nat) (ok v : Bool) : NodeOut := { sig := .b (v && decide (q ≠ 1)), q := if ok then q else 1 }

/-- arg steps reduced to (−π, π] (FREQ, SYNC). -/
def angStep (a b : FV) : FV :=
  let d := fvSub a b
  if fLt fPi.w d.w then fvSub d f2Pi else if fLe d.w (fvNeg fPi).w then fvAdd d f2Pi else d

/-- Σ of the steps between successive angles, oldest first. -/
def angSteps : List Nat → FV → FV
  | a :: b :: rest, acc => angSteps (b :: rest) (fvAdd acc (angStep (fv b) (fv a)))
  | _, acc => acc

/-- The sample status of an S output formed from several (R439). -/
def worstSample (ins : List NodeOut) : Sample :=
  if ins.any fun i => decide (i.st = .missed) then .missed
  else if ins.any fun i => decide (i.st = .held) then .held
  else .fresh

/-- DFT and HDFT (R189, R439): window of `len` samples of a period of N. -/
def dftRun (n h g len : Nat) (x : NodeOut) (st : NodeSt) : NodeSt × List NodeOut :=
  let st := if x.st = .held then st else
    let k := st.n
    let v := x.sig.toS
    let old := st.xs.getD (len - 1) 0
    let w := twiddle h n (k % n)
    let wo := twiddle h n ((k + n - len) % n)
    { st with n := k + 1, xs := (v :: st.xs).take len,
              m := if x.st = .missed then 0 else min len (st.m + 1),
              re := st.re + v * w.1 - old * wo.1, im := st.im + v * w.2 - old * wo.2 }
  if st.n = 0 then (st, [{ sig := .c 0 0, q := 1 }])
  else
    let w := twiddle h n ((st.n - 1) % n)
    let zr := st.re * w.1 + st.im * w.2
    let zi := st.im * w.1 - st.re * w.2
    let q := if st.m < len then 1 else x.q
    (st, [outC q { re := fvMul (fvDyadic true zr 0 false) (fv g), im := fvMul (fvDyadic true zi 0 false) (fv g) }])

/-- The first, second and third input. -/
def in0 (ins : List NodeOut) : NodeOut := ins.headD { sig := .b false, q := 1 }
def inAt (ins : List NodeOut) (i : Nat) : NodeOut := ins.getD i { sig := .b false, q := 1 }

/-- ZLOOP and ZPP: ZSCALE × V / I, or 0 with Q invalid below IMIN (R190). -/
def zDivide (q : Nat) (v i : CV) (zscale imin : Nat) : NodeOut :=
  if fLt (cvAbs i).w imin then { sig := .c 0 0, q := 1 } else outC q (cvDiv (cvScale (fv zscale) v) i)

/-- RATE and DFDT (R190): the rate, its Q and the decision. -/
def rateRun (win pick dir r : Nat) (x : NodeOut) (st : NodeSt) : NodeSt × NodeOut × NodeOut :=
  let w := x.sig.toF.w
  let st' := { st with hist := ((w, x.q) :: st.hist).take win }
  if st.hist.length < win then (st', { sig := .f 0, q := 1 }, outB 1 false)
  else
    let (old, qo) := st.hist.getD (win - 1) (0, 1)
    let v := fvMul (fvSub (fv w) (fv old)) (fv r)
    let q := worseQ x.q qo
    let b := match dir with
      | 1 => fLe pick v.w
      | 2 => fLe v.w (fvNeg (fv pick)).w
      | _ => fLe pick (fvAbs v).w
    (st', outF q v, outDecide q v.ok b)

/-- IDMT (R190): the increment of progress at multiple M ≥ 1, none while the operate time is infinite, and whether every
operation but the division by that denominator gave a number. -/
def idmtStep (curve : Nat) (c m : FV) : Option FV × Bool :=
  let pow : FV := match curve with
    | 0 => fvPow002 m | 1 => m | 2 => fvMul m m | 3 => m | 4 => fvPow002 m | _ => fvMul m m
  let d := fvSub pow f1
  let with_ (v : FV) : Option FV × Bool := (some v, v.ok)
  if curve = 7 then with_ c
  else if !fLt 0 d.w then (none, d.ok)
  else if curve ≤ 3 then with_ (fvMul d c)
  else
    let (a, b) : Nat × Nat := match curve with
      | 4 => (0x3D52F1AA, 0x3DE978D5) | 5 => (0x419CE148, 0x3EFB645A) | _ => (0x41E1999A, 0x3DF93DD9)
    with_ (fvDiv c (fvAdd (fvDiv (fv a) d) (fv b)))

/-- PTIN (R440): conversion of a point's VALUE to the node's type. -/
def ptinRun (isF : Bool) (p : Point) : NodeOut :=
  let q := let v := p.quality % 4; if v = 2 then 1 else v
  let bad : NodeOut := { sig := if isF then .f 0 else .b false, q := 1 }
  match p.type with
  | 1 => if isF then outF q (if p.value % 2 = 1 then f1 else f0) else outB q (decide (p.value % 2 = 1))
  | 2 => if isF then outF q (fInt (signed 32 p.value)) else outB q (decide (p.value % 2 ^ 32 ≠ 0))
  | 4 => if isF then outF q (fInt (p.value % 2 ^ 32 : Nat)) else outB q (decide (p.value % 2 ^ 32 ≠ 0))
  | 3 =>
    if fSpecial p.value then bad
    else if isF then outF q { w := if bits p.value 30 23 = 0 then p.value / 2 ^ 31 % 2 * 2 ^ 31 else p.value % 2 ^ 32 }
    else outB q (decide (p.value % 2 ^ 31 ≠ 0))
  | _ => bad

/-- SVIN (R185, R439): the channels of its binding, NEW, SLIP and the stamp. -/
def svinRun (e : NodeEnv) (bind first k : Nat) : List NodeOut :=
  let b := e.binds.getD bind {}
  let align := e.byStamp.getD bind false
  let chan (i : Nat) : NodeOut := match b.rec_ with
    | none => { sig := .s 0, q := 1, st := .missed }
    | some r =>
      let q := let v := r.oq.getD (first + i) 1 % 4; if v = 2 then 1 else v
      let q := if bit r.flags 0 && !align then worseQ q 3 else q
      { sig := .s (r.vals.getD (first + i) 0), q := if b.bad then 1 else q, st := b.st }
  let stamp : NodeOut := match b.rec_ with
    | none => { sig := .t 0, q := 1 }
    | some r => { sig := .t r.stamp, q := if b.bad then 1 else 0 }
  (List.range k).map chan ++ [outB 0 (decide (b.st = .fresh)), outB 0 e.slip, stamp]

/-- α of SEQ3 in binary32. -/
def cAlpha : CV := { re := { w := 0xBF000000 }, im := { w := 0x3F5DB3D7 } }

/-- Σ of complex values, first to last. -/
def cvSum : List CV → CV
  | [] => {}
  | a :: rest => rest.foldl cvAdd a
def fvSum : List FV → FV
  | [] => f0
  | a :: rest => rest.foldl fvAdd a

/-- A set and clear comparator (R190): while its input is invalid it holds its state and gives false. -/
def comparator (x : NodeOut) (st : NodeSt) (set clear : Bool) : NodeSt × List NodeOut :=
  let st := if x.q = 1 then st else { st with b := if set then true else if clear then false else st.b }
  (st, [outDecide x.q true st.b])

/-- One execution of a primitive: its new state, its outputs and its output requests. -/
def primRun (e : NodeEnv) (p : Prim) (ins : List NodeOut) (st : NodeSt) : NodeSt × List NodeOut × List ElaReq :=
  let q := worstQ ins
  let x := in0 ins
  let y := inAt ins 1
  let z := inAt ins 2
  let pure (outs : List NodeOut) : NodeSt × List NodeOut × List ElaReq := (st, outs, [])
  let keep (r : NodeSt × List NodeOut) : NodeSt × List NodeOut × List ElaReq := (r.1, r.2, [])
  match p with
  | .svin bind first k => pure (svinRun e bind first k)
  | .ptin handle isF => pure [ptinRun isF (((e.points.find? fun v => decide (v.1 = handle)).map (·.2)).getD {})]
  | .const isF v => pure [if isF then { sig := .f v } else { sig := .b (decide (v % 2 = 1)) }]
  | .dft n h g => keep (dftRun n h g n x st)
  | .hdft n h g => keep (dftRun n h g (n / 2) x st)
  | .lin ka kb kc => pure [outF q (fvAdd (fvAdd (fvMul (fv ka) x.sig.toF) (fvMul (fv kb) y.sig.toF)) (fv kc))]
  | .mag => pure [outF q (cvAbs x.sig.toC)]
  | .ang => pure [outF q (cvArg x.sig.toC)]
  | .phrot re im => pure [outC q (cvMul { re := fv re, im := fv im } x.sig.toC)]
  | .seq3 acb =>
    let a := x.sig.toC
    let b := if acb then z.sig.toC else y.sig.toC
    let c := if acb then y.sig.toC else z.sig.toC
    let third (v : CV) : CV := { re := fvDiv v.re (fInt 3), im := fvDiv v.im (fInt 3) }
    pure [outC q (third (cvAdd (cvAdd a b) c)),
          outC q (third (cvAdd (cvAdd a (cvMul cAlpha b)) (cvMul (cvConj cAlpha) c))),
          outC q (third (cvAdd (cvAdd a (cvMul (cvConj cAlpha) b)) (cvMul cAlpha c)))]
  | .delta =>
    pure [outC q (cvSub x.sig.toC y.sig.toC), outC q (cvSub y.sig.toC z.sig.toC), outC q (cvSub z.sig.toC x.sig.toC)]
  | .resid =>
    let v := x.sig.toS + y.sig.toS + z.sig.toS
    let v := if (2 ^ 31 : Int) ≤ v then 2 ^ 31 - 1 else if v < -(2 ^ 31 : Int) then -(2 ^ 31 : Int) else v
    pure [{ sig := .s v, q := q, st := worstSample ins }]
  | .zloop k0re k0im zscale imin =>
    pure [zDivide q x.sig.toC (cvAdd y.sig.toC (cvMul { re := fv k0re, im := fv k0im } z.sig.toC)) zscale imin]
  | .zpp zscale imin =>
    pure [zDivide q (cvSub x.sig.toC y.sig.toC) (cvSub z.sig.toC (inAt ins 3).sig.toC) zscale imin]
  | .mho cre cim radius =>
    let m := fvSub (fv radius) (cvAbs (cvSub x.sig.toC { re := fv cre, im := fv cim }))
    pure [outDecide q m.ok (fLe 0 m.w), outF q m]
  | .quad rr xr xb tanLang tanTilt =>
    let r := x.sig.toC.re
    let i := x.sig.toC.im
    let d := fvSub r (fvDiv i (fv tanLang))
    let lim := fvSub (fv xr) (fvMul r (fv tanTilt))
    pure [outDecide q (d.ok && lim.ok)
      (fLe d.w rr && fLe (fvNeg (fv rr)).w d.w && fLe i.w lim.w && fLe (fvNeg (fv xb)).w i.w)]
  | .dirn rre rim vmin imin =>
    let v := x.sig.toC
    let strong := fLe vmin (cvAbs v).w
    -- init: an angle is held that the next weak cycle may use; n: the angle
    let pol : Option CV :=
      if strong then some v else if st.init then some { re := fvCos st.n, im := fvSin st.n } else none
    let st' := if strong then { st with init := true, n := (cvArg v).w } else { st with init := false }
    let outs := match pol with
      | some v =>
        if fLe imin (cvAbs y.sig.toC).w then
          let tq := (cvMul (cvMul (cvConj v) y.sig.toC) { re := fv rre, im := fv rim }).re
          [outDecide q tq.ok (fLt 0 tq.w), outDecide q tq.ok (fLt tq.w 0)]
        else [outDecide q true false, outDecide q true false]
      | none => [outDecide q true false, outDecide q true false]
    (st', outs, [])
  | .ovr pick drop => keep (comparator x st (fLe pick x.sig.toF.w) (fLt x.sig.toF.w drop))
  | .unr pick drop => keep (comparator x st (fLe x.sig.toF.w pick) (fLt drop x.sig.toF.w))
  | .band lo hi loH hiH =>
    let v := x.sig.toF.w
    keep (comparator x st (fLe lo v && fLe v hi) (fLt v loH || fLt hiH v))
  | .cmps pick count =>
    let n := if x.q = 1 ∨ (x.sig.toS.natAbs : Int) < pick then 0 else min 16 (st.n + 1)
    keep ({ st with n := n }, [outDecide q true (decide (count ≤ n))])
  | .idmt curve is_ c trZero fall =>
    if q = 1 then keep (st, [outB 1 false, { sig := .f st.n, q := 1 }])
    else
      let m := fvDiv x.sig.toF (fv is_)
      let (n, ok) : Nat × Bool :=
        if fLe f1.w m.w then
          match idmtStep curve (fv c) m with
          | (some d, ok) => let v := fvAdd (fv st.n) d; (if fLt f1.w v.w then f1.w else v.w, ok)
          | (none, ok) => (st.n, ok)
        else if trZero then (0, true)
        else let v := fvSub (fv st.n) (fv fall); (if fLt v.w 0 then 0 else v.w, true)
      let ok := m.ok && ok
      keep ({ st with n := n }, [outDecide q ok (decide (n = f1.w)), { sig := .f n, q := if ok then q else 1 }])
  | .rate win pick dir r =>
    let (st', v, b) := rateRun win pick dir r x st
    (st', [b, v], [])
  | .diff taps is1 k1 is2 k2 k1is2 =>
    let terms := (taps.zip ins).map fun t => cvScale (fv t.1) t.2.sig.toC
    let d := cvAbs (cvSum terms)
    let b := fvDiv (fvSum (terms.map cvAbs)) f2
    let slope := if fLe b.w is2 then fvMul (fv k1) b
      else fvAdd (fv k1is2) (fvMul (fv k2) (fvSub b (fv is2)))
    pure [outF q d, outF q b, outDecide q (d.ok && b.ok && slope.ok) (fLe is1 d.w && fLe slope.w d.w)]
  | .hres ratio =>
    let r := fvMul (fv ratio) x.sig.toF
    pure [outDecide q r.ok (fLe r.w y.sig.toF.w)]
  | .ref tapn is_ kr =>
    let a := x.sig.toC
    let b := y.sig.toC
    let c := z.sig.toC
    let d := cvAbs (cvAdd (cvAdd (cvAdd a b) c) (cvScale (fv tapn) (inAt ins 3).sig.toC))
    let lim := fvAdd (fv is_) (fvMul (fv kr) (fvMax (fvMax (cvAbs a) (cvAbs b)) (cvAbs c)))
    pure [outDecide q (d.ok && lim.ok) (fLe lim.w d.w), outF q d]
  | .tpick pickup dropout =>
    let on := x.sig.toB
    let n := if on then min (pickup + 1) (st.n + 1) else 0
    let m := if on then 0 else min (dropout + 1) (st.m + 1)
    let b := if on then st.b || decide (n = pickup + 1) else st.b && decide (m ≠ dropout + 1)
    keep ({ st with n := n, m := m, b := b }, [outB q b])
  | .tpulse width =>
    let on := x.sig.toB
    let left := if on && !st.b && decide (st.n = 0) then width else st.n
    keep ({ st with n := left - 1, b := on }, [outB q (decide (left ≠ 0))])
  | .tint pickup decr =>
    let n := if x.sig.toB then min pickup (st.n + 1) else st.n - decr
    keep ({ st with n := n }, [outB q (decide (n = pickup))])
  | .cnt limit =>
    let up := x.sig.toB
    let down := y.sig.toB
    let n := if z.sig.toB then 0 else if up && !down then min limit (st.n + 1)
      else if down && !up then st.n - 1 else st.n
    keep ({ st with n := n }, [{ sig := .u n, q := q }, outB q (decide (n = limit))])
  | .tstamp =>
    let on := x.sig.toB
    let t := if on && !st.b then some (e.stamp0.getD 0) else st.time
    keep ({ st with b := on, time := t }, [match t with | some t => { sig := .t t, q := q } | none => { sig := .t 0, q := 1 }])
  | .and8 inv =>
    pure [outB q ((List.range ins.length).all fun i => (inAt ins i).sig.toB != bit inv i)]
  | .or8 inv =>
    pure [outB q ((List.range ins.length).any fun i => (inAt ins i).sig.toB != bit inv i)]
  | .lut4 table =>
    pure [outB q (bit table ((List.range 4).foldl (fun a i => a + b2n (inAt ins i).sig.toB * 2 ^ i) 0))]
  | .srff setWins =>
    let set := x.sig.toB
    let rst := y.sig.toB
    let b := if set && rst then setWins else if set then true else if rst then false else st.b
    keep ({ st with b := b }, [outB q b])
  | .edge dir =>
    let on := x.sig.toB
    let v := match dir with
      | 0 => on && !st.b
      | 1 => !on && st.b
      | _ => on != st.b
    keep ({ st with b := on }, [outB q v])
  | .qsel => pure [if x.q = 1 then y else x]
  | .freq avg div =>
    let th := cvArg x.sig.toC
    let hist := ((th.w, x.q) :: st.hist).take (avg + 1)
    let bad := decide (hist.length ≤ avg) || hist.any fun h => decide (h.2 = 1)
    let sum := angSteps (hist.map (·.1)).reverse f0
    keep ({ st with hist := hist },
      [outF (if bad then 1 else q) (fvDiv (fvMul sum (fInt e.fg)) (fv div))])
  | .dfdt win pick dir r =>
    let (st', v, b) := rateRun win pick dir r x st
    (st', [v, b], [])
  | .sync dv df dphi div =>
    let l := x.sig.toC
    let b := y.sig.toC
    let a := cvDiv l b
    let th := cvArg a
    let hist := ((th.w, q) :: st.hist).take 17
    let slip := fvDiv (fvMul (angSteps (hist.map (·.1)).reverse f0) (fInt e.fg)) (fv div)
    let v := fvAbs (fvSub (cvAbs l) (cvAbs b))
    let st' := { st with hist := hist }
    if hist.length < 17 then keep (st', [outB 1 false])
    else if !a.ok then keep (st', [outB 1 false])
    else keep (st', [outDecide q (slip.ok && v.ok) (fLe v.w dv && fLe (fvAbs slip).w df && fLe (fvAbs th).w dphi)])
  | .ptout handle every isF _ =>
    let cur : NodeOut := { sig := if isF then .f x.sig.toF.w else .b x.sig.toB, q := x.q }
    let val := match cur.sig with | .f w => w | .b v => b2n v | _ => 0
    if every || decide (st.last ≠ [cur]) then
      ({ st with last := [cur] }, [], [.point e.node handle isF val x.q])
    else pure []
  | .pub pubno _ =>
    let cur := ins.map fun i => ({ sig := i.sig, q := i.q } : NodeOut)
    if st.last = cur then pure [] else ({ st with last := cur }, [], [.publish e.node pubno cur])
  | .tout ch action winBase ofs width _ =>
    if x.q = 1 then pure []
    else
      let on := x.sig.toB
      let base := if winBase then e.openDt else e.stamp0.getD 0
      ({ st with b := on }, [], if on && !st.b then [.timed ch action (base + ofs * 256) width] else [])
  | .capt unit =>
    let on := x.sig.toB
    ({ st with b := on }, [], if on && !st.b then [.capture unit] else [])

/-- What a seat leaves of a node's state: what R189, R190 and R192 count since the seat begins anew. -/
def Prim.seated (p : Prim) (st : NodeSt) : NodeSt :=
  match p with
  | .dft .. | .hdft .. => { st with n := 0, m := 0, xs := [], re := 0, im := 0 }
  | .freq .. | .sync .. | .rate .. | .dfdt .. => { st with hist := [] }
  | .tstamp => { st with time := none }
  | .tout .. => { st with b := false }
  | _ => st

/-- Cycles of a primitive (Table 08-5). -/
def primCost (p : Prim) (nins : Nat) : Nat :=
  match p with
  | .svin _ _ k => 4 + 2 * k
  | .ptin .. => 4
  | .const .. => 1
  | .dft .. => 24
  | .hdft .. => 24
  | .lin .. => 6
  | .mag => 12
  | .ang => 20
  | .phrot .. => 8
  | .seq3 _ => 30
  | .delta => 12
  | .resid => 4
  | .zloop .. => 64
  | .zpp .. => 56
  | .mho .. => 28
  | .quad .. => 36
  | .dirn .. => 40
  | .ovr .. => 6
  | .unr .. => 6
  | .band .. => 8
  | .cmps .. => 6
  | .idmt .. => 48
  | .rate .. => 12
  | .diff .. => 16 + 12 * nins
  | .hres _ => 14
  | .ref .. => 44
  | .tpick .. => 4
  | .tpulse _ => 4
  | .tint .. => 6
  | .cnt _ => 4
  | .tstamp => 4
  | .and8 _ => 3
  | .or8 _ => 3
  | .lut4 _ => 3
  | .srff _ => 3
  | .edge _ => 2
  | .qsel => 4
  | .freq .. => 40
  | .dfdt .. => 12
  | .sync .. => 48
  | .ptout .. => 6
  | .pub .. => 10
  | .tout .. => 10
  | .capt _ => 6

end Sys2Proof.Machine
end

