-- ==== Sys2Proof/Machine/Lookups.lean ====
section
/-! DEFINITION. What a state holds by number, and the readings of it that register views need. -/
namespace Sys2Proof.Machine

/-! Topologies -/

/-- The stages on the path of a stage, from the stage to the raw records, each with the product of the factors before
it; the fuel bounds the path. -/
def pathOf (g : List StageCfg) : Nat → Nat → List (Nat × StageCfg)
  | 0, _ => []
  | fuel + 1, k =>
    match g[k]? with
    | none => []
    | some st => match st.src with
      | none => [(k, st)]
      | some j => (k, st) :: pathOf g fuel j

/-- Product of the decimation factors of a path. -/
def pathM (p : List (Nat × StageCfg)) : Nat := (p.map fun e => e.2.m).foldl (· * ·) 1

/-- Mb of stage k: the product of the factors before it. -/
def mbOf (g : List StageCfg) (k : Nat) : Nat := pathM ((pathOf g 8 k).drop 1)

/-- Σ f(stage) × Mb over the path of a stage. -/
def pathSum (g : List StageCfg) (f : StageCfg → Nat) (k : Nat) : Nat :=
  ((pathOf g 8 k).map fun e => f e.2 * mbOf g e.1).foldl (· + ·) 0

/-- Path memory of a tap (R164), its delay D256 and its total factor (R167). -/
def TopoCfg.tapStage (t : TopoCfg) (tap : Nat) : Nat := t.taps.getD tap 0

def TopoCfg.memory (t : TopoCfg) (tap : Nat) : Nat := pathSum t.stages (·.memLen) (t.tapStage tap)

def TopoCfg.delay (t : TopoCfg) (tap : Nat) : Nat := pathSum t.stages (·.gd) (t.tapStage tap)

def TopoCfg.factor (t : TopoCfg) (tap : Nat) : Nat := pathM (pathOf t.stages 8 (t.tapStage tap))

def TopoCfg.longest (t : TopoCfg) : Nat :=
  ((List.range t.taps.length).map fun k => t.memory k).foldl max 0

/-! Blocks by number -/

/-- The stream entry, and the filter topology, of stream n. -/
def State.streamCfg (s : State) (n : Nat) : Option StreamCfg := Tbl.get none s.svx.cfg n

def State.topo (s : State) (n : Nat) : Option TopoCfg := Tbl.get none s.flt.topo n

/-- Tenant t. -/
def State.tenant (s : State) (t : Nat) : Tenant := Tbl.get {} s.ten t

def State.tenCfg (s : State) (t : Nat) : Option TenantCfg := (s.tenant t).cfg

/-- A tenant in the element array. -/
def State.elaT (s : State) (t : Nat) : ElaTen := Tbl.get {} s.ela t

def State.stream (s : State) (n : Nat) : Stream := Tbl.get {} s.svx.streams n

/-- A stream is synchronised while it is VALID and its last received sample has UNSYNC clear (R150). -/
def State.streamSynced (s : State) (n : Nat) : Bool :=
  let x := s.stream n
  decide (x.st = .valid) && match x.prev with | some p => !p.unsync | none => false

/-- Port n. -/
def State.prt (s : State) (n : Nat) : Port := Tbl.get {} s.ports n

/-- The hold is in force at an FRC count. -/
def Hold.active (h : Hold) (frc : Nat) : Bool := decide (frc < h.stop)

/-- Any egress of the port is held (MAC_STAT.PAUSED). -/
def Port.held (p : Port) (frc : Nat) : Bool :=
  (match p.pause with | some h => h.active frc | none => false) ||
    p.pfc.any fun e => match e.2 with | some h => h.active frc | none => false

/-- PAUSE_NS of the running hold that is not yet in the counter (R95). -/
def State.pauseRunning (s : State) (n : Nat) : Nat :=
  let p := s.prt n
  match p.heldFrom with
  | some f => min s.frc (((p.pause.toList ++ p.pfc.filterMap (·.2)).map (·.stop)).foldl max 0) - f
  | none => 0

/-- The modes' codes (Table 04-4). -/
def filtCode : FilterMode → Nat
  | .start => 0
  | .normal => 1
  | .test => 2
  | .recovery => 3

def State.schT (s : State) (t : Nat) : SchTen := Tbl.get {} s.sch.ten t

def State.pub (s : State) (i : Nat) : Pub := Tbl.get {} s.goose.pubs i

def State.sub (s : State) (i : Nat) : Sub := Tbl.get {} s.goose.subs i

def State.canC (s : State) (k : Nat) : Can := Tbl.get {} s.can k

/-- Error passive (ISO 11898-1). -/
def Can.passive (c : Can) : Bool := decide (127 < c.tec ∨ 127 < c.rec_)

/-- CAN_ERR: STATE (zero while the controller is not powered), LEC, REC, TEC. -/
def State.canErr (s : State) (k : Nat) : Nat :=
  let c := s.canC k
  let st := if !s.flag .CAN_CFG 1 k then 0 else if c.init then 3 else if c.busOff then 2 else if c.passive then 1 else 0
  st * 2 ^ 30 + c.lec * 2 ^ 27 + min 128 c.rec_ * 2 ^ 16 + c.tec % 512

def State.loop (s : State) (n : Nat) : Loop := Tbl.get {} s.lop.loops n

def State.conv (s : State) (k : Nat) : Adc := Tbl.get {} s.adc.conv k

/-- Capture unit u. -/
def State.cap (s : State) (u : Nat) : CapUnit := Tbl.get {} s.dcr u

/-- Thyme channel n. -/
def State.ch (s : State) (n : Nat) : TtuChan := Tbl.get {} s.ttu n

def State.mailbox (s : State) (w : Nat) : Mailbox := Tbl.get {} s.mbx w

/-- Queue pair q of a tenant window, or virtual-port ring r of a link under 60 + r. -/
def qpKey (w q : Nat) : Nat := 128 * w + q

def State.qp (s : State) (w q : Nat) : QPair := Tbl.get {} s.qps (qpKey w q)

def State.link (s : State) (h : Nat) : HostLink := Tbl.get {} s.links h

def svcCode : Svc → Nat
  | .out => 0
  | .in_ => 1
  | .frozen => 2
  | .drain => 3

/-- PAR_STATE.STATE. -/
def pairCode : PairSt → Nat
  | .seek => 0
  | .handshake => 1
  | .paired => 2
  | .isolated => 3
  | .lost => 4
  | .mismatch => 5

/-! Pairing -/

def State.parTen (s : State) (t : Nat) : PairTen := Tbl.get {} s.par.ten t

def State.paired (s : State) : Bool := decide (s.par.st = .paired)

/-- The tile-cycle group of a tenant: that of its tile. -/
def State.groupOf (s : State) (t : Nat) : Nat :=
  match s.tenCfg t with
  | some c => s.fld .ELA_TILECFG 17 16 c.tile
  | none => 0

/-- Class H: enabled and not class C. -/
def State.classH (s : State) (t : Nat) : Bool :=
  match s.tenCfg t with
  | some c => !c.classC
  | none => false

def State.classC (s : State) (t : Nat) : Bool :=
  match s.tenCfg t with
  | some c => c.classC
  | none => false

/-- The module is PAIRED and the tenant's group is aligned (R236). -/
def State.pairAligned (s : State) (t : Nat) : Bool := s.paired && bit s.par.aligned (s.groupOf t)

/-- Agreement is in force for a tenant (R239); one whose TEN_SEQ differs is kept out of it (R231). -/
def State.inForce (s : State) (t : Nat) : Bool :=
  s.classH t && s.pairAligned t && !(s.parTen t).seqDiff && decide ((s.elaT t).st = .run ∧ t ∈ s.par.peerRun)

/-- Sum of the complete bindings of the last 64 windows (R233). -/
def PairTen.compl64 (p : PairTen) : Nat := p.compl.foldl (· + ·) 0

/-! Seconds keeper -/

/-- TMB_RTC as ticks of 1/32768 s since the PTP epoch: it counts on from where it was set (R69). -/
def State.rtcTicks (s : State) : Nat := s.tb.rtc + (s.frc - s.tb.rtcFrom) * 32768 / sec

/-! Keys -/

/-- KIND codes of R352. -/
def Kind.derive : Nat := 1

def Kind.hmac : Nat := 2

def Kind.aes : Nat := 3

def Kind.ecdsa : Nat := 4

/-- USE bit numbers of R352. -/
def Use.svVerify : Nat := 0

def Use.gooseVerify : Nat := 1

def Use.gooseGen : Nat := 2

def Use.pair : Nat := 3

def Use.snapshot : Nat := 4

def Use.derive : Nat := 5

def Use.wrap : Nat := 6

/-- OWNER of the system. -/
def sysOwner : Nat := 0xFFFF

def State.slot (s : State) (n : Nat) : KeySlot := Tbl.get {} s.kvs.slots n

/-- Attributes of slot n: fixed for slots 1 to 3 and the domain keys (Table 16-1), else those of the KEYS section. -/
def State.slotAttr (s : State) (n : Nat) : Option KeyAttr :=
  if n = 1 then some { kind := Kind.derive, use := 2 ^ Use.derive, owner := sysOwner }
  else if n = 2 ∨ n = 3 then some { kind := Kind.ecdsa, use := 0, owner := sysOwner }
  else if 16 ≤ n ∧ n ≤ 4111 then some { kind := Kind.derive, use := 2 ^ Use.derive, owner := n - 16 }
  else Tbl.get none s.kvs.attrs n

/-- TMP_STAT.ACTIVE: an enabled source is asserted (R362). -/
def State.tamperActive (s : State) : Bool := decide (s.kvs.asserted &&& s.fld .TMP_CFG 6 0 ≠ 0)

/-! Credits -/

/-- The key of an owner at a boundary. -/
def crdKey (b o : Nat) : Nat := b * 4096 + o

/-- The number of owners at a boundary (Table 02-8). -/
def crdOwners (b : Nat) : Nat :=
  if b ≤ 2 then 8 else if b = 3 then 32 else if b = 12 then 4 else if b = 13 then 16 else 4096

/-- AVAIL: the share less the credits outstanding; none below zero (R24). -/
def State.avail (s : State) (b o : Nat) : Nat := Tbl.get 0 s.crd.share (crdKey b o) - Tbl.get 0 s.crd.used (crdKey b o)

/-- The key of Almond counter k, and of bin b of histogram h. -/
def almondCounter (k : Nat) : Nat := k

def almondBin (h b : Nat) : Nat := 1024 + 64 * h + b

/-! Start conditions (R405, R406, Table 18-8) -/

/-- The enabled tenants. -/
def State.enabledTenants (s : State) : List (Nat × TenantCfg) :=
  s.ten.filterMap fun (e : Nat × Tenant) => e.2.cfg.map fun c => (e.1, c)

/-- The start sequencer started the tenant, or a START took it into service. -/
def State.isStarted (s : State) (t : Nat) : Bool := Tbl.get false s.pwr.started t

/-- Mandatory streams of a tenant (R138). -/
def State.mandStreams (s : State) (t : Nat) : List Nat :=
  s.plan.cons.filterMap fun (e : Nat × Nat × Bool) => if e.2.1 = t ∧ e.2.2 then some e.1 else none

/-- Class C, HOME on this side. -/
def State.homeHere (s : State) (t : Nat) : Bool :=
  match s.par.cfg with
  | some c => decide ((if t ∈ c.home then 1 else 0) = s.pwr.side)
  | none => true

/-- The waits of a class C tenant at home are over (R405). -/
def State.pairWaitOver (s : State) : Bool :=
  decide (s.par.st ≠ .seek) ||
    match s.par.cfg with
    | none => true
    | some c =>
      let p := s.prt c.port
      if p.up then decide (p.upAt + sec ≤ s.frc)
      else match s.pwr.phase3End with | some f => decide (f + 3 * sec ≤ s.frc) | none => false

/-- A tile that failed BIST, or whose quarter is in reset. -/
def State.tileDown (s : State) (tile : Nat) : Bool :=
  s.flag .SGE_TILEFAIL (tile % 32) (tile / 32) || (Tbl.get none s.pwr.trans (5 + tile / 32)).isSome

/-- The condition of R405 that a tenant of an open rank still lacks, as a code of Table 18-8; 0 where none is. -/
def State.startLacks (s : State) (t : Nat) (c : TenantCfg) : Nat :=
  if Tbl.get false s.pwr.hostOut t then 7
  else if c.elem.isSome && s.tileDown c.tile then 5
  else if c.classC then (if s.homeHere t && !s.pairWaitOver then 6 else 0)
  else
    let ms := s.mandStreams t
    if ms.any fun n => decide ((s.stream n).st ≠ .valid) then 1
    else if ms.any fun n => !s.streamSynced n then 2
    else 0

/-- The reason why a tenant is pending (Table 18-8); 0 where it is not. A tenant that only waits for its rank is pending
with reason STREAM. -/
def State.pendReason (s : State) (t : Nat) : Nat :=
  match s.tenCfg t with
  | none => 0
  | some c =>
    if Tbl.get false s.pwr.hostOut t then 7
    else if (s.elaT t).st = .blocked then 4
    else if (s.parTen t).join = .failed ∧ (s.elaT t).st = .seat then 3
    else if s.isStarted t then 0
    else max 1 (s.startLacks t c)

/-- Tenants that are pending now, with their reasons. -/
def State.pendNow (s : State) : Tbl Nat :=
  s.enabledTenants.filterMap fun (e : Nat × TenantCfg) =>
    if s.pendReason e.1 = 0 then none else some (e.1, s.pendReason e.1)

end Sys2Proof.Machine
end

