-- ==== Sys2Proof/Machine/Views.lean ====
section
/-! DEFINITION. What a read of a register returns: stored registers, and those that show the state of a block, by the
field maps of the chapters (R410, R413, R414). -/
namespace Sys2Proof.Machine

/-! State codes -/

/-- Table 06-6. -/
def streamCode : StreamSt → Nat
  | .disabled => 0
  | .acquire => 1
  | .valid => 2
  | .lost => 3

/-- Table 08-3. -/
def elaCode : ElaSt → Nat
  | .out => 0
  | .seat => 1
  | .run => 2
  | .blocked => 3
  | .frozen => 4

/-- GSB_SSTATE.STATE. -/
def subCode : SubSt → Nat
  | .none => 0
  | .valid => 1
  | .stale => 2

/-- Table 11-2. -/
def schCode : SchSt → Nat
  | .idle => 0
  | .run => 1
  | .stop => 2
  | .standby => 3
  | .frozen => 4

/-- SCH_CHGSTAT.STATE. -/
def chgCode : ChgSt → Nat
  | .empty => 0
  | .verifying => 1
  | .staged => 2
  | .waiting => 3
  | .done => 4
  | .failed => 5

/-- SYS_AMDSTAT.STATE. -/
def amdCode : AmdSt → Nat
  | .empty => 0
  | .verifying => 1
  | .staged => 2
  | .committing => 3
  | .done => 4
  | .failed => 5

/-- Table 12-5. -/
def loopCode : LoopSt → Nat
  | .off => 0
  | .run => 1
  | .hold => 2
  | .fhold => 3
  | .ramp => 4
  | .safe => 5

/-- ADC_STATE.ACT. -/
def adcCode : AdcAct → Nat
  | .idle => 0
  | .scan => 1
  | .inj => 2
  | .cal => 3

/-- Table 16-4. -/
def keyCode : KeySt → Nat
  | .empty => 0
  | .active => 1
  | .orphan => 2
  | .expired => 3

/-- KVS_STAT.VAULT. -/
def vaultCode : VaultSt → Nat
  | .none => 0
  | .loading => 1
  | .ready => 2

/-- Table 17-5. -/
def capCode : CapSt → Nat
  | .idle => 0
  | .arming => 1
  | .armed => 2
  | .recording => 3
  | .holdoff => 4

/-- PAR_TSTATE.JOIN. -/
def joinCode : JoinSt → Nat
  | .none => 0
  | .requested => 1
  | .running => 2
  | .failed => 3

/-! Start-up, boot and amendments (chapters 02 and 18) -/

/-- Tenants shown in SYS_PENDMAP: those pending at the end of start-up whose reason still holds (R406). -/
def State.pendShown (s : State) : List Nat :=
  s.pwr.pend.filterMap fun (e : Nat × Nat) => if s.pendReason e.1 = 0 then none else some e.1

/-- Lowest phase of Table 18-7 in progress. -/
def State.phaseNow (s : State) : Nat :=
  if s.pwr.ended then 0
  else if !bit s.pwr.phases 0 then 1
  else if !bit s.pwr.phases 1 then 2
  else if !bit s.pwr.phases 2 then 3
  else if (List.range 8).any fun n => decide (s.fld .MAC_CFG 2 0 n ≠ 0) && !(s.prt n).up then 4
  else if decide (s.par.st = .seek ∨ s.par.st = .handshake) then 5
  else if s.tb.sync ≠ .locked then 6
  else if s.svx.streams.any fun (e : Nat × Stream) => decide (e.2.st ≠ .valid ∧ e.2.st ≠ .disabled) then 7
  else 8

def viewStartstat (s : State) : Nat :=
  b2n s.pwr.complete * 2 ^ 31 + b2n s.pwr.ended * 2 ^ 30 + s.pendShown.length * 2 ^ 17 +
    (s.pwr.rankOpen.length - 1) * 2 ^ 13 + s.phaseNow

def viewPreason (s : State) : Nat :=
  let t := s.fld .SYS_PSEL 11 0
  if Tbl.get 0 s.pwr.pend t = 0 then 0 else s.pendReason t

def viewPendmap (s : State) (w : Nat) : Nat :=
  ((s.pendShown.filter fun t => decide (t / 32 = w)).map fun t => 2 ^ (t % 32)).foldl (· + ·) 0

def viewBootstat (s : State) : Nat :=
  s.boot.failB * 2 ^ 16 + s.boot.failA * 2 ^ 8 + b2n s.boot.recovery * 8 + b2n s.boot.trial * 4 + b2n s.boot.fallback * 2 +
    s.boot.bank

/-- SYS_IMGSTAT.STATE. -/
def imgState (s : State) : Nat :=
  if s.boot.recovery then 3 else if s.boot.loaded then 2 else if bit s.pwr.phases 1 then 1 else 0

def viewImgstat (s : State) : Nat :=
  s.boot.rwsIgn * 2 ^ 24 + b2n s.boot.jrnlTrunc * 2 ^ 16 + s.boot.err * 2 ^ 8 + b2n s.boot.sealed * 4 + imgState s

def viewAmdstat (s : State) : Nat :=
  let x := Tbl.get ({} : AmdSlot) s.amd (s.fld .SYS_AMDSEL 1 0)
  x.tenant % 4096 * 2 ^ 20 + x.result * 2 ^ 8 + amdCode x.st

def viewAmdjrnl (s : State) : Nat :=
  (s.jrnl.entries.filter fun (e : JrnlEntry) => e.complete).length * 2 ^ 16 +
    ((s.jrnl.entries.map fun (e : JrnlEntry) => e.bytes).foldl (· + ·) 0 + 1023) / 1024

/-! Supply, clocks, time (chapters 03 and 18) -/

/-- VIN_MAIN in mV and the input power in 10 mW; zero without main power. -/
def State.vinMv (s : State) : Nat := if s.pwr.main then Config.vinMillivolt (s.frc / ms) % 65536 else 0
def State.pinTenMw (s : State) : Nat := if s.pwr.main then Config.inputPower (s.frc / ms) % 65536 else 0

def viewDstat (s : State) : Nat :=
  (s.pwr.trans.map fun (e : Nat × Option (DomainWork × Nat)) => 2 ^ e.1).foldl (· + ·) 0 * 2 ^ 16 + s.pwr.on

def viewRtc (s : State) : Nat := b2n s.tb.rtcValid * 2 ^ 63 + s.rtcTicks % 2 ^ 63

def viewChstat (s : State) (n : Nat) : Nat :=
  let c := s.ch n
  c.late * 2 ^ 26 + c.refused * 2 ^ 20 + c.skipped * 2 ^ 14 + c.stepskip * 2 ^ 8 + b2n c.run.isSome * 32 + b2n c.level * 16 +
    c.q.length

/-! Ports and redundancy (chapters 04 and 05) -/

def viewMacstat (s : State) (n : Nat) : Nat :=
  let p := s.prt n
  s.rg .MAC_STAT n + filtCode p.filt * 2 ^ 30 + p.anRf * 2 ^ 28 + b2n p.up * 2 ^ 27 + b2n (p.held s.frc) * 2 ^ 26

/-! Sampled values and filters (chapters 06 and 07) -/

def viewSummary (s : State) : Nat :=
  (s.svx.streams.filter fun (e : Nat × Stream) => s.streamSynced e.1).length * 2 ^ 16 +
    (s.svx.streams.filter fun (e : Nat × Stream) => decide (e.2.st = .valid)).length

def svxSel (s : State) : Nat := s.fld .SVX_SSEL 11 0

def viewSstate (s : State) : Nat :=
  let x := s.stream (svxSel s)
  (match x.prev with | some p => p.synch % 256 * 2 ^ 24 | none => 0) + x.goodRun * 16 +
    b2n (s.streamSynced (svxSel s)) * 4 + streamCode x.st

/-- SMPCNT of the previous received sample and the ring position of the last record. -/
def viewSlast (s : State) : Nat :=
  let x := s.stream (svxSel s)
  let pos := match Tbl.get none s.svx.cfg (svxSel s) with
    | some c => if x.widx = 0 then 0 else (x.widx - 1) % (8 * 2 ^ c.depth)
    | none => 0
  (match x.prev with | some p => p.smp % 65536 * 2 ^ 16 | none => 0) + pos

/-- The oldest discovery entry. -/
def discHead (s : State) (f : Discovery → Nat) : Nat :=
  match s.svx.disc with
  | d :: _ => f d
  | [] => 0

/-- svID octets of the oldest discovery entry, four from octet 4 w on, of its first 64 (R152). -/
def discSvid (w : Nat) (d : Discovery) : Nat := ofLe ((d.svid.drop (4 * w)).take 4)

def fltSel (s : State) : Nat := s.fld .FLT_SSEL 11 0

def viewFltState (s : State) : Nat :=
  let n := fltSel s
  let c := Tbl.get ({} : FltChain) s.flt.chains n
  match Tbl.get none s.flt.topo n with
  | none => 0
  | some t =>
    2 ^ 27 + b2n c.pend.isSome * 2 ^ 26 + b2n c.cmdFrz * 2 ^ 25 + b2n (c.stages.any fun (g : StageSt) => g.auto_) * 2 ^ 24 +
      t.engine * 2 ^ 20 + (t.longest - c.taken)

def viewTapgd (s : State) (tap : Nat) : Nat :=
  match Tbl.get none s.flt.topo (fltSel s) with
  | none => 0
  | some t => if tap < t.taps.length then t.factor tap * 2 ^ 27 + t.delay tap % 2 ^ 23 else 0

def viewEngload (s : State) (e : Nat) : Nat :=
  let l := s.flt.topo.filterMap fun (x : Nat × Option TopoCfg) => match x.2 with
    | some t => if t.engine = e then some t.share else none
    | none => none
  l.length * 2 ^ 16 + l.foldl (· + ·) 0

/-! Element array (chapter 08) -/

def elaSel (s : State) : Nat := s.fld .ELA_TSEL 11 0

def viewElaState (s : State) : Nat :=
  let t := elaSel s
  match s.tenCfg t with
  | none => 0
  | some c =>
    elaCode (s.elaT t).st * 2 ^ 24 + (s.elaT t).consec % 4 * 2 ^ 22 + b2n c.classC * 2 ^ 21 + s.groupOf t * 2 ^ 19 +
      c.tile * 2 ^ 12 + c.slot * 2 ^ 7

def viewElaBudget (s : State) : Nat :=
  match s.tenCfg (elaSel s) with
  | none => 0
  | some c =>
    (match Tbl.get none s.slots (32 * c.tile + c.slot) with | some x => x.2 % 65536 * 2 ^ 16 | none => 0) +
      (match c.elem with | some p => p.staticCost % 65536 | none => 0)

def viewTilestat (s : State) (t : Nat) : Nat :=
  s.rg .ELA_TILESTAT t + b2n (Tbl.get false s.awake t) * 64 +
    (s.slots.filter fun (e : Nat × Option (Nat × Nat)) => decide (e.1 / 32 = t) && match e.2 with
      | some x => (s.tenCfg x.1).isSome
      | none => false).length

def viewBlkmap (s : State) (w : Nat) : Nat :=
  (s.ela.filterMap fun (e : Nat × ElaTen) =>
    if e.1 / 32 = w ∧ e.2.st = .blocked then some (2 ^ (e.1 % 32)) else none).foldl (· + ·) 0

/-! GOOSE (chapter 09) -/

def pubSel (s : State) : Pub := s.pub (s.fld .GPB_PSEL 12 0)
def subSel (s : State) : Sub := s.sub (s.fld .GSB_SSEL 13 0)

def viewPnext (s : State) : Nat :=
  let p := pubSel s
  b2n p.pending.isSome * 2 ^ 31 + b2n p.silent * 2 ^ 30 + p.interval % 2 ^ 24

/-! Scheme runtime (chapter 11) -/

def schSel (s : State) : Nat := s.fld .SCH_TSEL 11 0

/-- Busy nanoseconds of a core within the last 100 ms. -/
def State.coreBusy (s : State) (core : Nat) : Nat :=
  let lo := s.frc - 100 * ms
  let part : Nat × Nat → Nat := fun x => x.2 - max lo x.1
  ((Tbl.get [] s.sch.spans core).map part).foldl (· + ·) 0 +
    match Tbl.get none s.sch.busyFrom core with
    | some f => part (f, s.frc)
    | none => 0

def viewCoreload (s : State) (core : Nat) : Nat :=
  (s.sch.ten.filter fun (e : Nat × SchTen) => decide (e.2.core = core) && e.2.prog.isSome).length * 2 ^ 23 +
    min 1000 (s.coreBusy core / (100 * us))

def viewSchState (s : State) : Nat :=
  let c := s.schT (schSel s)
  match c.prog with
  | none => 0
  | some p =>
    schCode c.st * 2 ^ 29 + c.cause * 2 ^ 27 + c.core * 2 ^ 23 + p.cyc.length * 2 ^ 19 + p.evt.length * 2 ^ 14 + c.forces.length

def viewChgstat (s : State) : Nat :=
  let c := (s.schT (schSel s)).chg
  c.result * 2 ^ 24 + min 255 c.nocarry * 2 ^ 16 + min 255 c.dropf * 2 ^ 8 + chgCode c.st

/-- Priority and period of task k. -/
def SchProg.taskOf (p : SchProg) (k : Nat) : Option (Nat × Nat) :=
  if k < 8 then (p.cyc[k]?).map fun (x : CycTask) => (x.prio, x.period)
  else (p.evt[k - 8]?).map fun (x : EvtTask) => (x.prio, 0)

def viewTaskstat (s : State) : Nat :=
  let c := s.schT (schSel s)
  let k := s.fld .SCH_TASKSEL 4 0
  match c.prog with
  | none => 0
  | some p =>
    match p.taskOf k with
    | none => 0
    | some (prio, period) =>
      let x := Tbl.get ({} : TaskSt) c.tasks k
      2 ^ 31 + prio * 2 ^ 27 + min 2 x.missrun * 2 ^ 25 + x.queue.length * 2 ^ 22 + period

def viewTasktime (s : State) : Nat :=
  let x := Tbl.get ({} : TaskSt) (s.schT (schSel s)).tasks (s.fld .SCH_TASKSEL 4 0)
  min 65535 x.peak * 2 ^ 16 + min 65535 x.last

/-! Loops, converters, CAN, host links (chapters 12 to 15) -/

def viewLoopState (s : State) (n : Nat) : Nat :=
  let l := s.loop n
  loopCode l.st * 2 ^ 29 + l.cause * 2 ^ 26 + b2n l.spLost * 2 ^ 25 + b2n l.sat * 2 ^ 24 + min 255 l.fb.miss * 2 ^ 16

def viewAdcState (s : State) (k : Nat) : Nat :=
  let c := s.conv k
  c.cur * 2 ^ 8 + b2n c.calPend * 32 + b2n c.restart.isSome * 16 + b2n c.scanPend * 8 + b2n c.injPend * 4 + adcCode c.act

def viewLinkstat (s : State) (h : Nat) : Nat :=
  let l := s.link h
  b2n l.up * 2 ^ 31 + l.width % 8 * 2 ^ 28 + l.speed % 8 * 2 ^ 25 + l.vfen % 2048

/-! Pairing (chapter 10) -/

def parSel (s : State) : Nat := s.fld .PAR_TSEL 11 0

def viewGskew (s : State) (g : Nat) : Nat :=
  b2n (bit s.par.aligned g) * 2 ^ 31 + unsigned 24 (max (-8388608) (min 8388607 (Tbl.get 0 s.par.skew g)))

/-- PAR_TSTATE.CLASSC. -/
def State.classcCode (s : State) (t : Nat) : Nat :=
  if !s.classC t then 0 else if (s.parTen t).cst = 1 then 1 else if (s.parTen t).kept.isSome then 2 else 3

/-- PAR_TSTATE.MODE. -/
def State.agreeMode (s : State) (t : Nat) : Nat :=
  if !s.classH t || decide ((s.elaT t).st ≠ .run) then 0
  else if s.inForce t then (if (s.parTen t).open_ then 2 else 1) else 3

def viewParTstate (s : State) : Nat :=
  let t := parSel s
  let p := s.parTen t
  min 65535 p.divrun * 2 ^ 16 + b2n p.open_ * 2 ^ 15 + b2n p.silenced * 2 ^ 14 + joinCode p.join * 2 ^ 12 +
    s.classcCode t * 2 ^ 10 + s.agreeMode t

def viewTcompl (s : State) : Nat :=
  let p := s.parTen (parSel s)
  p.peerCompl % 8192 * 2 ^ 16 + p.compl64 % 8192

def viewTsnap (s : State) : Nat :=
  match (s.parTen (parSel s)).kept with
  | none => 0
  | some (x, at_) => 2 ^ 31 + (x.length + 4095) / 4096 % 2048 * 2 ^ 20 + min 1048575 ((s.frc - at_) / ms)

/-! Keys (chapter 16) -/

def kvsSel (s : State) : Nat := s.fld .KVS_SEL 13 0

def viewSlotstat (s : State) : Nat :=
  let n := kvsSel s
  let k := s.slot n
  let g := Tbl.get none s.kvs.stg n
  let a := s.slotAttr n
  keyCode k.st * 2 ^ 30 + b2n g.isSome * 2 ^ 29 + b2n (match g with | some x => x.verified | none => false) * 2 ^ 28 +
    (match a with | some x => x.kind % 16 * 2 ^ 24 + x.use % 256 * 2 ^ 16 | none => 0) +
    (match k.parent with | some p => p % 2 ^ 14 | none => 0)

def viewSlottime (s : State) : Nat :=
  let k := s.slot (kvsSel s)
  k.notAfter % 2 ^ 32 * 2 ^ 32 + if k.st = .orphan then min 0x1FFFF ((k.graceEnd - s.frc) / sec) else 0

def slotsIn (s : State) (st : KeySt) : Nat := (s.kvs.slots.filter fun (e : Nat × KeySlot) => decide (e.2.st = st)).length

def viewAttStat (s : State) : Nat :=
  b2n (!s.att.queue.isEmpty) * 2 ^ 31 + s.att.queue.length * 2 ^ 28 + s.att.result * 2 ^ 24 + s.att.len % 2 ^ 20

/-- Word w of DEVICE_ID: bytes 4 w to 4 w + 3, the first in bits [7:0]. -/
def viewDevid (w : Nat) : Nat :=
  ofLe ((List.range 4).map fun i => BitVec.ofNat 8 (Config.deviceId / 256 ^ (47 - (4 * w + i))))

def viewTmpStat (s : State) : Nat :=
  s.fld .TMP_STAT 6 0 + b2n s.tamperActive * 2 ^ 31 + b2n s.kvs.tampered * 2 ^ 30

/-! Credits and records (chapters 01 and 17) -/

/-- Boundary and owner that QCR_SEL selects; an owner beyond the range selects nothing. -/
def qcrSel (s : State) : Option (Nat × Nat) :=
  let b := s.fld .QCR_SEL 19 16
  let o := s.fld .QCR_SEL 11 0
  if o < crdOwners b then some (b, o) else none

def viewAvail (s : State) : Nat :=
  match qcrSel s with
  | some (b, o) => Tbl.get 0 s.crd.share (crdKey b o) % 65536 * 2 ^ 16 + s.avail b o % 65536
  | none => 0

def viewDrops (s : State) : Nat :=
  match qcrSel s with
  | some (b, o) => Tbl.get 0 s.crd.drops (crdKey b o)
  | none => 0

def capSel (s : State) : CapUnit := s.cap (s.fld .DCR_USEL 3 0)

def viewUstate (s : State) : Nat :=
  let c := capSel s
  capCode c.st * 2 ^ 29 + c.records.length % 2048 * 2 ^ 11 + match c.records with | r :: _ => r.slot % 2048 | [] => 0

/-! Tenant windows (chapter 15) -/

def viewTenStatus (s : State) (t : Nat) : Nat :=
  let x := s.tenant t
  x.gen % 65536 * 2 ^ 16 + elaCode (s.elaT t).st * 2 ^ 13 + schCode (s.schT t).st * 2 ^ 10 + b2n x.drained * 8 +
    b2n x.freezing.isSome * 4 + svcCode x.svc

def viewCmdstat (s : State) (t : Nat) : Nat :=
  let x := s.tenant t
  b2n (x.cmd.isSome || x.held.isSome) * 2 ^ 31 + x.lastCmd % 8 * 2 ^ 8 + x.result

def viewTenInfo (s : State) (t : Nat) : Nat :=
  match s.tenCfg t with
  | some c => t * 2 ^ 20 + b2n c.classC * 2 ^ 19 + c.link % 4 * 2 ^ 17 + c.vf % 2048
  | none => 0

/-- Free slots of MBX_D2H_DB, and items held beyond them (R337). -/
def State.mbxFree (s : State) (w : Nat) : Nat := ((List.range 8).filter fun i => !s.flag .MBX_D2H_DB i w).length
def State.mbxHeld (s : State) (w : Nat) : Nat := (s.mailbox w).held.length - s.mbxFree w
def viewMbxStat (s : State) (w : Nat) : Nat := s.rg .MBX_STAT w + min 16 (s.mbxHeld w) * 2 ^ 8

/-- QP_STAT: the credits of boundary 14 that the tenant holds, ERROR, FULL. A virtual-port ring takes no credit. -/
def viewQpStat (s : State) (w q : Nat) : Nat :=
  let held := if w < 4096 then s.avail Bnd.hostQueue w % 65536 else 0
  held * 2 ^ 16 + b2n (s.qp w q).error * 2 + b2n (decide (w < 4096 ∧ held = 0))

/-! Reads -/

/-- What register r at indexes i, j reads as. -/
def readReg (s : State) (r : Reg) (i j : Nat) : Nat :=
  match r with
  | .SYS_STARTSTAT => viewStartstat s
  | .SYS_PREASON => viewPreason s
  | .SYS_PENDMAP => viewPendmap s i
  | .SYS_BOOTSTAT => viewBootstat s
  | .SYS_IMGSTAT => viewImgstat s
  | .SYS_IMGVER => s.boot.imgVer
  | .SYS_AMDADDR => Tbl.get 0 s.boot.amdAddr (s.fld .SYS_AMDSEL 1 0)
  | .SYS_AMDACT => Tbl.get 0 s.boot.amdAct (s.fld .SYS_AMDSEL 1 0)
  | .SYS_AMDSTAT => viewAmdstat s
  | .SYS_AMDJRNL => viewAmdjrnl s
  | .PWR_STAT => s.rg .PWR_STAT + s.pwr.regOut % 64 * 2 ^ 10
  | .PWR_DSTAT => viewDstat s
  | .PWR_VMON => s.pinTenMw * 2 ^ 16 + s.vinMv
  | .CLK_STAT => s.rg .CLK_STAT + s.pwr.pll % 256 * 2 ^ 8 + b2n s.pwr.refOk * 2
  | .TMB_FRC => s.frc
  | .TMB_DT => stampNs s.dt
  | .TMB_SYNC => b2n s.tb.pending.isSome * 4 + syncCode s.tb.sync
  | .TMB_RTC => viewRtc s
  | .TTU_CHSTAT => viewChstat s i
  | .TTU_CHNEXT_NS => match (s.ch i).q with | e :: _ => stampNs e.instant | [] => 0
  | .TTU_CHLAST_NS => (s.ch i).last
  | .MAC_STAT => viewMacstat s i
  | .MAC_CNT => if j = 22 then satAdd 64 (s.rg .MAC_CNT i 22) (s.pauseRunning i) else s.rg .MAC_CNT i j
  | .PRP_SRCUSE => s.prp.st.length * 2 ^ 16 + s.prp.pb.length
  | .SVX_SUMMARY => viewSummary s
  | .SVX_SSTATE => viewSstate s
  | .SVX_SLAST => viewSlast s
  | .SVX_SWIDX => (s.stream (svxSel s)).widx % 2 ^ 32
  | .SVX_SLASTTS => (s.stream (svxSel s)).lastNs
  | .SVX_SCNT => Tbl.get 0 (s.stream (svxSel s)).cnt i
  | .SVX_DISC_SA => discHead s fun d => d.appid % 65536 * 2 ^ 48 + d.sa
  | .SVX_DISC_INFO => discHead s fun d =>
      d.noAsdu % 256 * 2 ^ 24 + d.smpSynch % 256 * 2 ^ 16 + (if 64 < d.svid.length then 255 else d.svid.length) * 2 ^ 8 + d.port
  | .SVX_DISC_CONF => discHead s fun d => d.confRev % 2 ^ 32
  | .SVX_DISC_TS => discHead s fun d => stampNs d.stamp
  | .SVX_DISC_FRAMES => discHead s fun d => d.frames
  | .SVX_DISC_SVID => discHead s (discSvid i)
  | .FLT_SSTATE => viewFltState s
  | .FLT_TAPGD => viewTapgd s i
  | .FLT_SCNT => Tbl.get 0 (Tbl.get ({} : FltChain) s.flt.chains (fltSel s)).cnt i
  | .FLT_ENGLOAD => viewEngload s i
  | .ELA_TSTATE => viewElaState s
  | .ELA_TBUDGET => viewElaBudget s
  | .ELA_TUSE => (s.elaT (elaSel s)).peak % 65536 * 2 ^ 16 + (s.elaT (elaSel s)).last % 65536
  | .ELA_TCUR => b2n (decide ((s.elaT (elaSel s)).st = .run)) * 2 ^ 31 + (s.elaT (elaSel s)).cursor % 65536
  | .ELA_TCNT => Tbl.get 0 (s.elaT (elaSel s)).cnt i
  | .ELA_TILESTAT => viewTilestat s i
  | .ELA_BLKMAP => viewBlkmap s i
  | .GPB_PSTNUM => (pubSel s).sentSt
  | .GPB_PSQNUM => (pubSel s).sentSq
  | .GPB_PNEXT => viewPnext s
  | .GPB_PCNT => Tbl.get 0 (pubSel s).cnt i
  | .GSB_SSTATE => b2n (subSel s).redeliver * 2 ^ 31 + subCode (subSel s).st
  | .GSB_SSTNUM => (subSel s).lastSt
  | .GSB_SSQNUM => (subSel s).sqNum
  | .GSB_SLASTTS => (subSel s).lastNs
  | .GSB_SCNT => Tbl.get 0 (subSel s).cnt i
  | .SCH_CORELOAD => viewCoreload s i
  | .SCH_TSTATE => viewSchState s
  | .SCH_CHGSTAT => viewChgstat s
  | .SCH_TASKSTAT => viewTaskstat s
  | .SCH_TASKTIME => viewTasktime s
  | .SCH_TCNT => Tbl.get 0 (s.schT (schSel s)).cnt i
  | .LOP_CFG => s.rg .LOP_CFG + b2n (decide (s.lop.last.isSome ∧ s.frc < s.lop.busyTo)) * 2 ^ 31
  | .LOP_STATE => viewLoopState s i
  | .LOP_OUT => (s.loop i).out.getD 0
  | .LOP_SP => (s.loop i).sp
  | .LOP_ERR => (s.loop i).err
  | .LOP_INTEG => (s.loop i).integ
  | .ADC_STATE => viewAdcState s i
  | .CAN_ERR => s.canErr i
  | .HST_LINKSTAT => viewLinkstat s i
  | .PAR_CFG => s.rg .PAR_CFG + s.pwr.side % 2 * 2 ^ 31
  | .PAR_STATE => s.par.aligned % 16 * 2 ^ 8 + pairCode s.par.st
  | .PAR_GSKEW => viewGskew s i
  | .PAR_TSTATE => viewParTstate s
  | .PAR_TCOMPL => viewTcompl s
  | .PAR_TSNAP => viewTsnap s
  | .PAR_TCNT => Tbl.get 0 (s.parTen (parSel s)).cnt i
  | .SGE_LREP => (s.sge.lrep.getD i 0).toNat
  | .SGE_PREP => (s.sge.prep.getD i 0).toNat
  | .KVS_STAT => s.rg .KVS_STAT + vaultCode s.kvs.vault * 2 ^ 30
  | .KVS_SLOTSTAT => viewSlotstat s
  | .KVS_SLOTTIME => viewSlottime s
  | .KVS_COUNT => slotsIn s .orphan * 2 ^ 16 + slotsIn s .active
  | .ATT_STAT => viewAttStat s
  | .ATT_DEVID => viewDevid i
  | .TMP_STAT => viewTmpStat s
  | .QCR_AVAIL => viewAvail s
  | .QCR_DROPS => viewDrops s
  | .DCR_USTATE => viewUstate s
  | .DCR_UCNT => Tbl.get 0 (capSel s).cnt i
  | .LTL_CNT => Tbl.get 0 s.ltl.mram (almondCounter (s.fld .LTL_SEL 7 0))
  | .LTL_HBIN => Tbl.get 0 s.ltl.mram (almondBin (s.fld .LTL_HSEL 4 0) i)
  | .TEN_STATUS => viewTenStatus s i
  | .TEN_CMDSTAT => viewCmdstat s i
  | .TEN_INFO => viewTenInfo s i
  | .MBX_STAT => viewMbxStat s i
  | .QP_STAT => viewQpStat s i j
  | _ => s.rg r i j - (s.rg r i j &&& (regInfo r).wo)

/-! Addresses -/

/-- Word o of the link page of window w: the link mailbox, the virtual-port rings under queue pair 60 + r, the health
reports (Table 15-1). -/
def linkRegAt (w o : Nat) : Option RegAt :=
  if o < 0x100 then
    match regFind (0x10000000 + o) with
    | some x => match x.reg with
      | .MBX_H2D_DB | .MBX_D2H_DB | .MBX_STAT => some { x with i := w }
      | _ => none
    | none => none
  else if 0x1000 ≤ o ∧ o < 0x1240 then
    (regFind (0x10000100 + o % 0x40)).map fun x => { x with i := w, j := 60 + (o - 0x1000) / 0x40 }
  else if 0x2000 ≤ o ∧ o < 0x2040 ∧ o % 4 = 0 then some { reg := .SGE_LREP, i := (o - 0x2000) / 4, j := 0, high := false }
  else if 0x2040 ≤ o ∧ o < 0x2080 ∧ o % 4 = 0 then some { reg := .SGE_PREP, i := (o - 0x2040) / 4, j := 0, high := false }
  else none

/-- The register word at an address: below 0x2000_0000 the management space, where the window of a tenant that is not
enabled holds none (R410, R414); above it the model's own place for the physical function's page of link h. -/
def State.regAt (s : State) (a : Nat) : Option RegAt :=
  if a < 0x10000000 then regFind a
  else if a < 0x20000000 then (if (s.tenCfg ((a - 0x10000000) / 0x10000)).isSome then regFind a else none)
  else if a < 0x20400000 then linkRegAt (4096 + 16 * ((a - 0x20000000) / 0x100000)) ((a - 0x20000000) % 0x100000)
  else none

/-- A memory that the management space holds beside its registers: CAN rings and transmit buffers, Walnut records, mailbox
slots. -/
def State.ramAt (s : State) (a : Nat) : Bool :=
  decide (0x150000 ≤ a ∧ a < 0x171000 ∨ 0x600000 ≤ a ∧ a < 0x800000) ||
    (decide (0x10000000 ≤ a ∧ a < 0x20000000 ∧ 0x400 ≤ a % 0x10000 ∧ a % 0x10000 < 0x800) &&
      (s.tenCfg ((a - 0x10000000) / 0x10000)).isSome) ||
    decide (0x20000000 ≤ a ∧ a < 0x20400000 ∧ 0x400 ≤ a % 0x100000 ∧ a % 0x100000 < 0x800)

/-- The word at an address, as it reads; zero where there is none (R11). -/
def busPeek (s : State) (a : Nat) : W32 :=
  match s.regAt a with
  | some w => wordOf (readReg s w.reg w.i w.j) w.high
  | none => if s.ramAt a then BitVec.ofNat 32 (ofLe (memGet s.mem a 4)) else 0

/-! The supervisor's interrupt -/

/-- Status registers with their enables and index counts. -/
def irqPairs : List (Reg × Reg × Nat) :=
  [(.PWR_STAT, .PWR_IE, 1), (.TMB_STAT, .TMB_IE, 1), (.MAC_STAT, .MAC_IE, 8), (.SVX_STAT, .SVX_IE, 1), (.FLT_STAT, .FLT_IE, 1),
   (.ELA_STAT, .ELA_IE, 1), (.PNT_STAT, .PNT_IE, 1), (.GPB_STAT, .GPB_IE, 1), (.GSB_STAT, .GSB_IE, 1), (.SCH_STAT, .SCH_IE, 1),
   (.LOP_STAT, .LOP_IE, 1), (.ADC_KSTAT, .ADC_IE, 2), (.CAN_STAT, .CAN_IE, 4), (.PAR_STAT, .PAR_IE, 1), (.SGE_STAT, .SGE_IE, 1),
   (.KVS_STAT, .KVS_IE, 1), (.QCR_EXH, .QCR_EXH_IE, 1), (.DCR_STAT, .DCR_IE, 1), (.EVR_STAT, .EVR_IE, 1)]

/-- The status registers that interrupt the supervisor now: a status bit and its enable are set. -/
def State.irqs (s : State) : List (Reg × Nat) :=
  irqPairs.flatMap fun (e : Reg × Reg × Nat) =>
    ((List.range e.2.2).filter fun i => decide (s.rg e.1 i &&& s.rg e.2.1 i ≠ 0)).map fun i => (e.1, i)

end Sys2Proof.Machine
end

