-- ==== Sys2Proof/Machine/Ops.lean ====
section
/-! DEFINITION. Operations that every block uses: Walnut fires (R368 to R370), Almond counters (R382), credits (R17
to R25), domains, and the log of what leaves the module. -/
namespace Sys2Proof.Machine

/-- A command that ends in the state given. -/
def done (s : State) : Host.Outcome State Fault Refusal := .next s

/-- Domain d is on and not in transition (R386, R388): its blocks do work. -/
def State.domOn (s : State) (d : Nat) : Bool :=
  bit s.pwr.on d && (Tbl.get none s.pwr.trans d).isNone

/-- Appends to the log of what leaves the module. -/
def State.emit (s : State) (o : Out) : State := { s with out := s.out ++ [o] }

/-- The next free value: the counter is read and advanced. -/
def State.freeNext (s : State) : Nat × State := (Config.freeValue s.freeN, { s with freeN := s.freeN + 1 })

/-! What a requester reads -/

/-- What a requester holds (R10). -/
def busGet : List (Requester × BusPort) → Requester → BusPort
  | [], _ => {}
  | (q, p) :: rest, r => if q = r then p else busGet rest r

/-- Replaces what a requester holds. -/
def busSet : List (Requester × BusPort) → Requester → BusPort → List (Requester × BusPort)
  | [], r, p => [(r, p)]
  | (q, x) :: rest, r, p => if q = r then (r, p) :: rest else (q, x) :: busSet rest r p

def State.port (s : State) (r : Requester) : BusPort := busGet s.bus r
def State.setPort (s : State) (r : Requester) (p : BusPort) : State := { s with bus := busSet s.bus r p }

/-- The value that a requester's read returns. -/
def State.answer (s : State) (r : Requester) (v : Nat) : State :=
  s.setPort r { s.port r with data := BitVec.ofNat 32 v }

/-- The RC fields of the register are counters; those of ADC_RES are flags. -/
def rcCounts (r : Reg) : Bool := decide ((regInfo r).rc = 2 ^ 32 - 1)

/-- A read of a 32-bit register with RC fields: it returns the value, and the RC fields clear (R7). Where they count, the
read returns what they held before the events of its own FRC count, and these events stay counted (R9). -/
def State.readClear (s : State) (q : Requester) (r : Reg) (i : Nat := 0) (j : Nat := 0) : State :=
  let v := readReg s r i j
  if rcCounts r then (s.answer q (v - s.countedNow r i j)).clrCount r i j
  else (s.answer q v).setRg r (s.rg r i j - (s.rg r i j &&& (regInfo r).rc)) i j

/-! Almond -/

/-- Adds n to an Almond value; it saturates at 2^64 − 1 (R382). -/
def State.almondAdd (s : State) (key n : Nat) : State :=
  { s with ltl := { s.ltl with cur := Tbl.upd 0 s.ltl.cur key fun v => satAdd 64 v n } }

/-- Increments hardware counter k of Table 17-8. -/
def State.almond (s : State) (k : Nat) : State := s.almondAdd (almondCounter k) 1

/-! Walnut -/

/-- The fixed snapshot set 0 (R370): 23 words. -/
def snapSet0 : List Nat :=
  [regAddr .SYS_BOOTSTAT 0 0, regAddr .SYS_IMGSTAT 0 0, regAddr .TMB_SYNC 0 0, regAddr .TMB_STAT 0 0,
   regAddr .TMB_LASTSTEP 0 0, regAddr .TMB_LASTSTEP 0 0 + 4, regAddr .PAR_STATE 0 0, regAddr .PAR_STAT 0 0,
   regAddr .SGE_STAT 0 0, regAddr .KVS_STAT 0 0, regAddr .TMP_STAT 0 0, regAddr .QCR_EXH 0 0,
   regAddr .ELA_STAT 0 0, regAddr .SCH_STAT 0 0, regAddr .SVX_SUMMARY 0 0] ++
  (List.range 8).map fun n => regAddr .MAC_STAT n 0

/-- The addresses of snapshot set k: EVR_SETADR(k,i) up to the first 0xFFFF_FFFF (R370). -/
def State.snapSet (s : State) (k : Nat) : List Nat :=
  if k = 0 then snapSet0
  else ((List.range 48).map fun i => s.rg .EVR_SETADR (k - 1) i).takeWhile (· ≠ 0xFFFFFFFF)

/-- Places a fire in the trigger queue: fires of one cycle stand in ascending source number (R369). -/
def fireInsert (f : Fire) : List Fire → List Fire
  | [] => [f]
  | x :: rest => if x.frc = f.frc ∧ f.source < x.source then f :: x :: rest else x :: fireInsert f rest

/-- A fire finds the trigger queue full: it is lost, and does not restart its source's interval (R369). -/
def State.fireLost (s : State) (f : Fire) : State :=
  ({ s with evr := { s.evr with lostSince := s.evr.lostSince + 1, last := Tbl.put none s.evr.last f.source f.before } }.incRg
    .EVR_CNT 0).setFlag .EVR_STAT 1

/-- A fire of source src whose EN bit is set: suppressed under MININT, or accepted with its snapshot; of more than 64 the last
is lost (R369). -/
def State.fireRaw (s : State) (src arg arg2 : Nat) (powerOn : Bool) (stampSrc : Nat) : State :=
  let cfg := s.rg .EVR_SRCCFG src
  if bit cfg 31 = false then s
  else
    let minint := bits cfg 7 0 * ms
    let early := match Tbl.get none s.evr.last src with
      | some t => decide (s.frc < t + minint)
      | none => false
    if early then s.incRg .EVR_CNT 1
    else
      let set := bits cfg 10 8
      let f : Fire :=
        { source := src, arg := arg % 2 ^ 32, arg2 := arg2, stamp := if stampSrc = 3 then 0 else s.dt,
          stampSrc := stampSrc, frc := s.frc, before := Tbl.get none s.evr.last src, set := set,
          words := (s.snapSet set).map (busPeek s), powerOn := powerOn, supDown := !s.pwr.supRuns,
          boots := Tbl.get 0 s.ltl.cur (almondCounter 0) % 2 ^ 32 }
      let q := fireInsert f s.evr.queue
      let s := { s with evr := { s.evr with queue := q.take 64, last := Tbl.put none s.evr.last src (some s.frc) } }
      match q.drop 64 with
      | [] => s
      | x :: _ => s.fireLost x

/-- A fire of source src with ARG, stamped at the present device time (R368). -/
def State.fire (s : State) (src arg : Nat) : State := s.fireRaw src arg 0 false 1

/-! Credits -/

/-- Takes n credits of an owner. -/
def State.takeCredits (s : State) (b o n : Nat) : State :=
  { s with crd := { s.crd with used := Tbl.upd 0 s.crd.used (crdKey b o) (· + n) } }

/-- Takes one credit of an owner. -/
def State.takeCredit (s : State) (b o : Nat) : State := s.takeCredits b o 1

/-- Returns one credit; AVAIL never exceeds the share (R25). -/
def State.giveCredit (s : State) (b o : Nat) : State :=
  { s with crd := { s.crd with used := Tbl.upd 0 s.crd.used (crdKey b o) (· - 1) } }

/-- Counts a drop of an owner and sets the boundary's bit in QCR_EXH (R18). -/
def State.countDrop (s : State) (b o : Nat) : State :=
  { s with crd := { s.crd with drops := Tbl.upd 0 s.crd.drops (crdKey b o) (satInc 32) } }.setFlag .QCR_EXH b

/-- Ingest drop (R18): counted; at boundaries 1 and 2 the port's next forwarded frame is marked. -/
def State.ingestDrop (s : State) (b o : Nat) : State :=
  let s := s.countDrop b o
  if b = 1 ∨ b = 2 then { s with crd := { s.crd with lossMark := Tbl.put false s.crd.lossMark (crdKey b o) true } } else s

/-- Refusal (R19): counted as a drop; Walnut source QCR_REFUSE fires. -/
def State.refuse (s : State) (b o : Nat) : State := (s.countDrop b o).fire 9 (b * 2 ^ 16 + o)

/-! Tenants -/

def State.setTenant (s : State) (t : Nat) (x : Tenant) : State := { s with ten := Tbl.put {} s.ten t x }

/-- The loops of an owner see its reset, block or freeze at their next evaluation (Table 12-5). -/
def State.loopsOwner (s : State) (t : Nat) : State :=
  let hit : Nat → Bool := fun n => s.flag .LOP_OWN 31 n && decide (s.fld .LOP_OWN 11 0 n = t)
  s.lop.order.foldl (fun (s : State) n =>
    if hit n then { s with lop := { s.lop with loops := Tbl.upd {} s.lop.loops n fun l => { l with ownerHit := true } } }
    else s) s

/-! The element array's counters -/

def State.setEla (s : State) (t : Nat) (e : ElaTen) : State := { s with ela := Tbl.put {} s.ela t e }

/-- Adds n to array counter k of a tenant (Table 08-11). -/
def State.elaAdd (s : State) (t k n : Nat) : State :=
  let e := s.elaT t
  s.setEla t { e with cnt := Tbl.upd 0 e.cnt k fun c => satAdd 32 c n }

/-- A refused output request of the array (R193). -/
def State.elaRefused (s : State) (t : Nat) : State := (s.elaAdd t 4 1).setFlag .ELA_STAT 2

end Sys2Proof.Machine
end

