-- ==== Sys2Proof/Machine/Points.lean ====
section
/-! DEFINITION. The signal-point database (R197 to R199, R201). -/
namespace Sys2Proof.Machine

/-- A handle with any of bits [31:25] set is rejected (R6, R198). -/
def badHandle (h : Nat) : Bool := decide (h / 2 ^ 25 ≠ 0)

/-- A point; with a bad handle, or never written, an unused point. -/
def State.point (s : State) (h : Nat) : Point := if badHandle h then {} else Tbl.get {} s.pts h

/-- The rights of a tenant on a point (R198, R328). -/
def State.canPoint (s : State) (t h : Nat) (write : Bool) : Bool :=
  match s.tenCfg t with
  | none => false
  | some c =>
    if c.ranges.all fun r => decide (r.count = 0) then decide (h / 8192 = t)
    else c.ranges.any fun r =>
      decide (r.first ≤ h ∧ h < r.first + r.count) && (if write then r.write else r.read)

/-- Tenants with an event task that point h activates (R261). -/
def State.pointWatchers (s : State) (h : Nat) : List Nat :=
  (s.sch.ten.filter fun e => match e.2.prog with
    | some p => p.evt.any fun k => decide (h ∈ k.pts)
    | none => false).map (·.1)

/-- A point as it is kept: unused, it reads as value 0 and quality 0x0001 (R197). -/
def Point.kept (p : Point) : Point := if p.type = 0 then { p with value := 0, quality := 1 } else p

/-- A point is written as a whole; a change of VALUE or QUALITY is an event (R197, R261). -/
def State.putPoint (s : State) (h : Nat) (p : Point) : State :=
  let p := p.kept
  let old := s.point h
  let s := { s with pts := Tbl.put {} s.pts h p }
  if old.value = p.value ∧ old.quality = p.quality then s
  else
    let src : EvtSrc := { kind := 0, num := h, stamp := p.time * 256 }
    { s with evts := s.evts ++ (s.pointWatchers h).map fun t => (t, src) }

/-- A write that a bad handle discards (R198). -/
def State.pointBad (s : State) : State := (s.incRg .PNT_BADHANDLE).setFlag .PNT_STAT 1

/-- A write that rights refuse: counted and recorded (R30, R198). -/
def State.pointRefused (s : State) (h : Nat) : State := ((s.incRg .PNT_REFUSED).setFlag .PNT_STAT 0).fire 16 h

/-- A write of an old generation (R199). -/
def State.pointStale (s : State) : State := (s.incRg .PNT_STALE).setFlag .PNT_STAT 2

/-- Applies a write that arrived at FRC count `at_` with place `cls` among the writes of its cycle (R199, R288): a write of the
present count stands only where no write of a later place in it was applied before. -/
def State.writePoint (s : State) (at_ cls h : Nat) (p : Point) : State :=
  if at_ ≠ s.frc then s.putPoint h p
  else if cls < Tbl.get 0 s.now.pts h then s
  else
    let s := s.putPoint h p
    { s with now := { s.now with pts := Tbl.put 0 s.now.pts h cls } }

/-- A tenant's write under its rights in force. The second component tells that it was applied. -/
def State.tenantPoint (s : State) (at_ cls t h : Nat) (p : Point) : State × Bool :=
  if badHandle h then (s.pointBad, false)
  else if s.canPoint t h true then (s.writePoint at_ cls h p, true)
  else (s.pointRefused h, false)

/-- A point as the 16 bytes of Table 08-7, as a number. -/
def Point.word (p : Point) : Nat :=
  p.value % 2 ^ 32 + p.quality % 2 ^ 14 * 2 ^ 32 + p.type % 256 * 2 ^ 48 + p.info % 16 * 2 ^ 56

/-- The point that PNT_DATA and PNT_TIME spell, with its writer code. -/
def pointOf (data time writer : Nat) : Point :=
  { value := bits data 31 0, quality := bits data 45 32, type := bits data 55 48, info := bits data 57 56 + 4 * writer,
    time := time }

/-- Lifecycle TEST. -/
def State.lcTest (s : State) : Bool := decide (s.fld .ATT_LC 2 0 = 0)

/-- PNT_CMD READ. -/
def execPntRead (s : State) :=
  let p := s.point (s.rg .PNT_HANDLE)
  done ((s.setRg .PNT_DATA p.word).setRg .PNT_TIME p.time)

/-- Places a write among those that wait, by arrival and place in its cycle. -/
def pntInsert (r : PointReq) : List PointReq → List PointReq
  | [] => [r]
  | x :: rest =>
    if r.at_ < x.at_ ∨ (r.at_ = x.at_ ∧ r.cls < x.cls) then r :: x :: rest else x :: pntInsert r rest

/-- A write of the element array, a scheme core or a loop reaches the database. -/
def State.pntQueue (s : State) (r : PointReq) : State := { s with pntQ := pntInsert { r with at_ := s.frc } s.pntQ }

/-- The loop port of the point database is no boundary of Table 01-4 (R288), and a loop may have no owner. -/
def Bnd.loopPort : Nat := 16
def noOwner : Nat := 4096

/-- The database takes the oldest point write of boundaries 6 and 9 or of its loop port (R199, R288): a write of an old
generation returns no credit (R25). -/
def State.takePointWrite (s : State) : State :=
  match s.pntQ with
  | [] => s
  | r :: rest =>
    let s := { s with pntQ := rest }
    if r.bnd = Bnd.loopPort then
      if r.tenant = noOwner ∨ r.gen = (s.tenant r.tenant).gen then s.writePoint r.at_ r.cls r.handle r.point else s.pointStale
    else if r.gen = (s.tenant r.tenant).gen then
      ((s.giveCredit r.bnd r.tenant).tenantPoint r.at_ r.cls r.tenant r.handle r.point).1
    else s.pointStale

def execPntRefusedRead (q : Requester) (s : State) := done (s.readClear q .PNT_REFUSED)
def execPntBadhandleRead (q : Requester) (s : State) := done (s.readClear q .PNT_BADHANDLE)
def execPntStaleRead (q : Requester) (s : State) := done (s.readClear q .PNT_STALE)

end Sys2Proof.Machine
end

