-- ==== Sys2Proof/Machine/Mailbox.lean ====
section
/-! DEFINITION. Mailboxes and alerts (R325, R334 to R337, R339). A window is that of tenant t under t, or the one of
link h under 4096 + 16 h. -/
namespace Sys2Proof.Machine

def State.setMailbox (s : State) (w : Nat) (m : Mailbox) : State := { s with mbx := Tbl.put {} s.mbx w m }

/-- The window of link h. -/
def linkWindow (h : Nat) : Nat := 4096 + 16 * h

/-- The link and function that a window answers on: a tenant's virtual function, or the physical function of a link. -/
def State.windowFn (s : State) (w : Nat) : Nat × Nat :=
  if w < 4096 then match s.tenCfg w with | some c => (c.link, c.vf) | none => (0, 0)
  else ((w - 4096) / 16, 0)

/-- Raises an MSI-X vector of a window's function. -/
def State.raise (s : State) (w vector : Nat) : State :=
  let (l, f) := s.windowFn w
  s.emit (.msix l f vector)

/-- Counts in TEN_CNT(k) of a tenant window. -/
def State.tenCount (s : State) (w k : Nat) : State := if w < 4096 then s.incRg .TEN_CNT w k else s

/-- Removes the oldest notification. -/
def dropNotice : List MbxItem → Option (List MbxItem)
  | [] => none
  | i :: rest => if i.reply then (dropNotice rest).map (i :: ·) else some rest

/-- A reply or notification is on its way to a slot; those beyond the free slots are held. At 16 held items a notification
discards the oldest held notification, or itself when all are replies (R337). -/
def State.mbxPush (s : State) (w : Nat) (i : MbxItem) : State :=
  let m := s.mailbox w
  if i.reply || decide (s.mbxHeld w < 16) then s.setMailbox w { m with held := m.held ++ [i] }
  else
    let s := (s.setFlag .MBX_STAT 1 w).tenCount w 3
    let free := s.mbxFree w
    match dropNotice (m.held.drop free) with
    | some rest => s.setMailbox w { m with held := m.held.take free ++ rest ++ [i] }
    | none => s

/-- Bytes of 32-bit payload fields, padded to LEN. -/
def words32 (l : List Nat) : List Byte := l.flatMap (leBytes 4)

/-- A notification (R338). -/
def State.mbxNotify (s : State) (w op : Nat) (payload : List Byte) : State :=
  let gen := if w < 4096 then (s.tenant w).gen else 0
  s.mbxPush w { reply := false, msg := { op := op, len := payload.length, gen := gen, payload := payload } }

/-- A reply to a request, with its TAG (R334). -/
def State.mbxReply (s : State) (w : Nat) (r : MbxMsg) (status : Nat) (payload : List Byte) : State :=
  let gen := if w < 4096 then (s.tenant w).gen else 0
  s.mbxPush w { reply := true, msg := { op := r.op, len := payload.length, status := status, tag := r.tag, gen := gen,
                                        payload := payload } }

/-- Sets bit b of TEN_ALERT; an enabled bit raises vector 3, and the link's physical function sees every alert
(R325). -/
def State.alertBit (s : State) (t b : Nat) : State :=
  let s := s.setFlag .TEN_ALERT b t
  let s := if s.flag .TEN_ALERT_IE b t then s.raise t 3 else s
  s.emit (.msix (s.windowFn t).1 0 4)

/-- An alert: its bit, and an ALERT notification with the bits and the cause. -/
def State.alert (s : State) (t b cause : Nat) : State :=
  let s := s.alertBit t b
  s.mbxNotify t 0x80 (words32 [s.rg .TEN_ALERT t, cause])

/-- Alert bits (TEN_ALERT). -/
def Alert.blocked : Nat := 0
def Alert.overrun : Nat := 1
def Alert.schStop : Nat := 2
def Alert.qpError : Nat := 3
def Alert.staleCpl : Nat := 4
def Alert.cmdDone : Nat := 5

end Sys2Proof.Machine
end

