-- ==== Sys2Proof/Machine/Capture.lean ====
section
/-! DEFINITION. Capture groups: arming, disarming and firing (R377 to R379). Rows are in Records.lean. -/
namespace Sys2Proof.Machine

/-- Replaces capture unit u. -/
def State.setCap (s : State) (u : Nat) (c : CapUnit) : State := { s with dcr := Tbl.put {} s.dcr u c }

/-- A unit whose GROUP names itself is a master. -/
def CapUnit.isMaster (c : CapUnit) : Bool :=
  match c.cfg with
  | some g => g.group = g.unit
  | none => false

/-- The units of the group of master m, in ascending order. -/
def State.capGroup (s : State) (m : Nat) : List Nat :=
  (List.range 16).filter fun u => match (s.cap u).cfg with | some g => decide (g.group = m) | none => false

/-- Adds 1 to unit counter k (DCR_UCNT). -/
def CapUnit.inc (c : CapUnit) (k : Nat) : CapUnit := { c with cnt := Tbl.upd 0 c.cnt k (satInc 32) }

/-- The first slot that holds no complete record. -/
def CapUnit.freeSlot (c : CapUnit) (g : CapCfg) : Option Nat :=
  (List.range g.nslot).find? fun k => c.records.all fun r => decide (r.slot ≠ k)

/-- The unit starts arming in a slot: pre-trigger count 0 (Table 17-5). -/
def CapUnit.startArming (c : CapUnit) (slot : Nat) : CapUnit :=
  { c with st := .arming, slot := some slot, preCount := 0, rows := [], remaining := 0, awaiting := false, opens := [] }

/-- A record written for channel 0's stream of a unit opens a row for its smpCnt (R375). -/
def State.capOpen (s : State) (stream smp : Nat) (stamp : Stamp) : State :=
  (List.range 16).foldl (fun (s : State) u =>
    let c := s.cap u
    match c.cfg with
    | some g =>
      let writes := c.st = .arming ∨ c.st = .armed ∨ c.st = .recording
      let first := match g.chans with | h :: _ => decide (h.stream = stream) | [] => false
      if first && decide writes && s.domOn 15 then
        s.setCap u { c with opens := c.opens ++ [{ smp := smp, stamp := stamp, close := s.frc + g.close * us }] }
      else s
    | none => s) s

/-- ARM of one unit in IDLE, or the rearm after a hold-off: a free slot, or with OVERWRITE the slot of the oldest
complete record (R377). The second component tells that no slot was found. -/
def CapUnit.arm (c : CapUnit) : CapUnit × Bool :=
  match c.cfg with
  | none => (c, false)
  | some g =>
    match c.freeSlot g with
    | some k => (c.startArming k, false)
    | none =>
      match g.overwrite, c.records with
      | true, r :: rest => (({ c with records := rest }.startArming r.slot).inc 4, false)
      | _, _ => (c, true)

/-- ARM of one unit by its master: only a unit in IDLE arms; no slot sets NOSLOT. -/
def State.capArmUnit (s : State) (u : Nat) : State :=
  let c := s.cap u
  if c.st = .idle then
    let (c', noSlot) := c.arm
    applyIf noSlot (·.setFlag .DCR_STAT 3) (s.setCap u c')
  else s

/-- ARM of master m, or CMD_REFUSED where m is no master or domain 15 is off (R377, R389). -/
def State.capArm (s : State) (m : Nat) : State :=
  if (s.cap m).isMaster && s.domOn 15 then (s.capGroup m).foldl State.capArmUnit s
  else s.setFlag .DCR_STAT 4

/-- The signed skew SKEW64 of a channel (R381); `delay` is ⌊D256 × P⌋ of its tap. -/
def capSkew (ch : CapChan) (delay : Nat) : Int := if ch.kind = .tap then ch.skew - delay else ch.skew

/-- SKEW64 of a channel by the topology in force. -/
def State.chanSkew (s : State) (h : CapChan) : Int :=
  capSkew h (match s.topo h.stream, s.streamCfg h.stream with
    | some t, some c => t.delay h.tap * 1000000000 / rateHz c.rate
    | _, _ => 0)

/-- SKEW64 of each channel of a unit. -/
def State.capSkews (s : State) (u : Nat) : List Int :=
  match (s.cap u).cfg with
  | some g => g.chans.map s.chanSkew
  | none => []

/-- The record in progress completes with the rows written so far (R377, R380). -/
def CapUnit.complete (c : CapUnit) (skews : List Int) (f : CapRecord → CapRecord) : CapUnit :=
  let r := f { c.cur with rows := c.rows.reverse, seq := c.recSeq + 1, cfg := c.cfg, skews := skews }
  { c with records := c.records ++ [r], recSeq := c.recSeq + 1, rows := [], slot := none }.inc 0

/-- The unit's record has ended: HOLDOFF. -/
def CapUnit.hold (c : CapUnit) (g : CapCfg) (frc : Nat) : CapUnit :=
  { c with st := .holdoff, holdEnd := if g.countMode then g.hold else frc + g.hold * ms }

/-- A record is complete: DONE, and CAP_RECORD of Almond. -/
def State.capDone (s : State) : State := (s.setFlag .DCR_STAT 0).almond 19

/-- Completes the record in progress of unit u. -/
def State.capComplete (s : State) (u : Nat) (f : CapRecord → CapRecord) : State :=
  (s.setCap u ((s.cap u).complete (s.capSkews u) f)).capDone

/-- The record of a unit ends: HOLDOFF. -/
def State.capHold (s : State) (u : Nat) (g : CapCfg) : State := s.setCap u ((s.cap u).hold g s.frc)

/-- DISARM of one unit: a record in progress completes with ENDED; a reserved slot is released (Table 17-5). -/
def State.capDisarmUnit (s : State) (u : Nat) : State :=
  let s := if (s.cap u).st = .recording then s.capComplete u fun r => { r with ended := true } else s
  s.setCap u { s.cap u with st := .idle, slot := none, rows := [], preCount := 0, remaining := 0, awaiting := false }

/-- DISARM of master m. -/
def State.capDisarm (s : State) (m : Nat) : State :=
  if (s.cap m).isMaster then (s.capGroup m).foldl State.capDisarmUnit s else s.setFlag .DCR_STAT 4

/-- Splits the rows held (newest first) at the fire stamp: those at or after it, and those before it. -/
def splitRows (t : Stamp) : List CapRow → List CapRow × List CapRow
  | [] => ([], [])
  | r :: rs => if t ≤ r.stamp then let (a, b) := splitRows t rs; (r :: a, b) else ([], r :: rs)

/-- Fixes the trigger row of an ARMED unit: the first row at or after the fire stamp, which is awaited where no such row
has closed yet; further back than the rows held allow, the oldest row that leaves PRE rows before it, with LATEFIRE (R378).
The record holds PRE rows before the trigger row and POST rows from it on. -/
def CapUnit.fireAt (c : CapUnit) (g : CapCfg) (t : Stamp) (unit : Nat) (partner : Bool) : CapUnit :=
  let (after, before) := splitRows t c.rows
  let late := decide (before.length < g.pre)
  let post := if late then c.rows.length - g.pre else after.length
  let keep := (c.rows.drop (post - g.post)).take (min post g.post + g.pre)
  let c := { c with
    st := .recording, rows := keep, awaiting := decide (post = 0), remaining := g.post - post,
    cur := { slot := c.slot.getD 0, partner := partner, lateFire := late, fireUnit := unit, trigRow := g.pre + 1,
             fireStamp := t } }
  if late then c.inc 6 else c

/-- An ARMED unit fires; a record whose rows are all held is complete at once. -/
def CapUnit.fired (c : CapUnit) (g : CapCfg) (skews : List Int) (t : Stamp) (unit : Nat) (partner : Bool) (frc : Nat) :
    CapUnit :=
  let c := c.fireAt g t unit partner
  if c.remaining = 0 then (c.complete skews id).hold g frc else c

/-- Unit u, which stood ARMED as `c`, fires; `counted` tells that its record has been counted already. -/
def State.capTake (s : State) (u : Nat) (c : CapUnit) (g : CapCfg) (f : CapFire) (counted : Bool) : State :=
  let d := c.fired g (s.capSkews u) f.stamp f.unit f.partner s.frc
  let s := { s.setCap u d with now := { s.now with capArmed := Tbl.put none s.now.capArmed u (some c) } }
  applyIf (decide (d.st = .holdoff) && !counted) (·.capDone) s

/-- A group fire reaches one unit (Table 17-5); IGNORED counts it in every state but ARMED (R378). -/
def State.capFireUnit (f : CapFire) (s : State) (u : Nat) : State :=
  let c := s.cap u
  match c.cfg, c.st with
  | some g, .armed => s.capTake u c g f false
  | _, .arming => s.setCap u ((c.inc 1).inc 2)
  | some g, .holdoff =>
    if g.countMode then s.setCap u { c.inc 2 with holdEnd := c.holdEnd - 1 } else s.setCap u (c.inc 2)
  | _, _ => s.setCap u (c.inc 2)

/-- A second fire of one cycle with an earlier stamp fixes the trigger row of a unit again: the fires are merged (R378). -/
def State.capRefix (f : CapFire) (s : State) (u : Nat) : State :=
  let c := s.cap u
  match Tbl.get none s.now.capArmed u, c.cfg, c.st with
  | some old, some g, .recording => s.capTake u { old with records := c.records } g f false
  | some old, some g, .holdoff => s.capTake u { old with records := c.records.dropLast } g f true
  | _, _, _ => s

/-- The group fire of master m in this FRC count. -/
def State.noteFire (s : State) (m : Nat) (f : CapFire) : State :=
  { s with now := { s.now with capFires := Tbl.put none s.now.capFires m (some f) } }

/-- Walnut source 43 of a group fire that found a unit ARMED. -/
def State.capTell (s : State) (m : Nat) (partner : Bool) : State :=
  (s.setFlag .DCR_STAT 1).fire 43 (m + (if partner then 256 else 0))

/-- A unit of the group is ARMED. -/
def State.capAnyArmed (s : State) (m : Nat) : Bool := (s.capGroup m).any fun u => decide ((s.cap u).st = .armed)

/-- A group fire of master m at fire stamp t (R378): Walnut source 43 fires once if a unit was ARMED. Fires of one cycle are
merged, and the earliest stamp stands. -/
def State.capFire (s : State) (m : Nat) (t : Stamp) (unit : Nat) (partner : Bool) : State :=
  match Tbl.get none s.now.capFires m with
  | none =>
    let f : CapFire := { stamp := t, unit := unit, partner := partner, armed := s.capAnyArmed m }
    applyIf f.armed (·.capTell m partner) (((s.capGroup m).foldl (State.capFireUnit f) s).noteFire m f)
  | some old =>
    if old.stamp ≤ t then s
    else
      let f : CapFire := { stamp := t, unit := unit, partner := partner, armed := old.armed }
      ((s.capGroup m).foldl (State.capRefix f) s).noteFire m f

/-- A unit becomes ARMED in the cycle of a fire of its group: the fire is accepted (R384). -/
def State.capLateArm (s : State) (u : Nat) (g : CapCfg) : State :=
  match Tbl.get none s.now.capFires g.group with
  | none => s
  | some f =>
    let c := s.cap u
    let c := { c with cnt := Tbl.upd 0 (Tbl.upd 0 c.cnt 1 (· - 1)) 2 (· - 1) }
    let s := s.capTake u c g f false
    if f.armed then s else (s.capTell g.group f.partner).noteFire g.group { f with armed := true }

end Sys2Proof.Machine
end

