-- ==== Sys2Proof/Machine/Thyme.lean ====
section
/-! DEFINITION. The Thyme timed trigger unit (R78 to R85): requests, placing of edges, periodic channels, steps and
flushes. -/
namespace Sys2Proof.Machine

/-- Replaces channel n. -/
def State.setCh (s : State) (n : Nat) (c : TtuChan) : State := { s with ttu := Tbl.put {} s.ttu n c }

/-- TTU_CHCFG fields. -/
def State.chOwnerKind (s : State) (n : Nat) : Nat := s.fld .TTU_CHCFG 31 30 n
def State.chOwner (s : State) (n : Nat) : Nat := s.fld .TTU_CHCFG 29 18 n
def State.chArg (s : State) (n : Nat) : Nat := s.fld .TTU_CHCFG 17 13 n
def State.chTarget (s : State) (n : Nat) : Nat := s.fld .TTU_CHCFG 12 8 n
def State.chShift (s : State) (n : Nat) : Bool := s.flag .TTU_CHCFG 4 n
def State.chNeedLock (s : State) (n : Nat) : Bool := s.flag .TTU_CHCFG 3 n
def State.chPeriodic (s : State) (n : Nat) : Bool := s.flag .TTU_CHCFG 2 n
def State.chIdle (s : State) (n : Nat) : Bool := s.flag .TTU_CHCFG 1 n
/-- PINEN is ignored for channels 16 to 31. -/
def State.chPinEn (s : State) (n : Nat) : Bool := s.flag .TTU_CHCFG 0 n && decide (n < 16)

/-- A tenant's current generation. -/
def State.genOf (s : State) (t : Nat) : Nat := (Tbl.get {} s.ten t).gen

/-- The first vernier step of 125 ps at or after an instant (R78). -/
def vernier (i : Stamp) : Stamp := (i + 31) / 32 * 32

/-- An instant is due: device time has reached its vernier step (R78, R79). -/
def State.dueAt (s : State) (i : Stamp) : Bool := decide (vernier i ≤ s.dt)

/-- Enters an entry in order of instants, after the entries of the same instant (R81). -/
def ttuInsert (e : TtuEntry) : List TtuEntry → List TtuEntry
  | [] => [e]
  | x :: xs => if x.instant ≤ e.instant then x :: ttuInsert e xs else e :: x :: xs

/-- Drives the level of a channel; with PINEN the pin shows it. -/
def State.ttuDrive (s : State) (n : Nat) (level : Bool) : State :=
  if (s.ch n).level = level then s
  else
    let s := s.setCh n { s.ch n with level := level }
    if s.chPinEn n then s.emit (.pin n level s.dt) else s

/-- Gives a start edge to an internal target. -/
def State.pushEdge (s : State) (target : Nat) (stamp : Stamp) : State :=
  { s with edges := Tbl.upd [] s.edges target (· ++ [{ stamp := stamp, frc := s.frc }]) }

/-- A fire of the channel's internal target (Table 03-4). -/
def State.fireTarget (s : State) (n : Nat) (stamp : Stamp) : State :=
  match s.chTarget n with
  | 0 =>
    if s.chOwnerKind n = 2 then { s with evts := s.evts ++ [(s.chOwner n, { kind := 2, num := n, stamp := stamp })] } else s
  | 9 => s.capArm (s.chArg n)
  | 10 => s.fire 5 n
  | 11 => s.emit (.supIrq n)
  | t => if t ≤ 8 then s.pushEdge t stamp else s

/-- Executes one entry at its instant: dropped under NEEDLOCK while not locked, except the fall of an executed rise, which
always executes (R83): it takes the level low unless a later pulse holds it high (R81). The level is the one that the
entries of this instant have set so far. -/
def State.ttuRun1 (n : Nat) (step : Bool) (st : State × Bool) (e : TtuEntry) : State × Bool :=
  let (s, level) := st
  let c := s.ch n
  if s.chNeedLock n && !s.locked && decide (e.act ≠ .fall) then
    (s.setCh n { c with skipped := satInc 6 c.skipped }, level)
  else
    let c := { c with last := stampNs e.instant, late := if e.late then satInc 6 c.late else c.late,
                      stepskip := if step then satInc 6 c.stepskip else c.stepskip }
    match e.act with
    | .set => (s.setCh n c, true)
    | .clear => (s.setCh n { c with highTo := none }, false)
    | .toggle => (s.setCh n { c with highTo := if level then none else c.highTo }, !level)
    | .pulse w =>
      let fall := e.instant + w * 8 * 256
      let f : TtuEntry := { instant := fall, act := .fall, owner := e.owner }
      (s.setCh n { c with q := ttuInsert f c.q,
                          highTo := some (match c.highTo with | some t => max t fall | none => fall) }, true)
    | .fire => ((s.setCh n c).fireTarget n (vernier e.instant), level)
    | .fall =>
      match c.highTo with
      | some t => if t ≤ e.instant then (s.setCh n { c with highTo := none }, false) else (s.setCh n c, level)
      | none => (s.setCh n c, false)

/-- Executes the entries of one instant: the pin makes at most one transition, to the level the last of them sets
(R81). -/
def State.ttuRunAll (s : State) (n : Nat) (step : Bool) (es : List TtuEntry) : State :=
  let (s, level) := es.foldl (State.ttuRun1 n step) (s, (s.ch n).level)
  s.ttuDrive n level

/-- Takes the first entries of a channel that share the earliest instant. -/
def ttuHead (q : List TtuEntry) : List TtuEntry :=
  match q with
  | [] => []
  | e :: _ => q.takeWhile fun x => decide (x.instant = e.instant)

/-- Executes what is due at a channel's earliest instant; nothing when nothing is due. -/
def State.ttuExecute (s : State) (n : Nat) : State :=
  match (s.ch n).q with
  | [] => s
  | e :: _ =>
    if s.dueAt e.instant then
      let es := ttuHead (s.ch n).q
      (s.setCh n { s.ch n with q := (s.ch n).q.drop es.length }).ttuRunAll n false es
    else s

/-- What a request asks of a channel (TTU_SCHED_CMD.ACTION). -/
inductive TtuAsk where
  | entry (a : TtuAct)
  | start (width : Nat)
deriving DecidableEq, Repr

/-- Pending entries that take one of the channel's 8 places (R81). -/
def TtuChan.places (c : TtuChan) : Nat := (c.q.filter fun e => !e.periodic).length

/-- The result of a request, 0 to 5 (TTU_SCHED_STAT.RESULT): the checks of R82 to R85. DESIGN CHOICE: where several
hold, the owner (2) goes before the parameters (5), these before the places (3), these before the horizon (4). -/
def State.ttuCheck (s : State) (n : Nat) (ask : TtuAsk) (instant : Stamp) (owner : Option Nat) : Nat :=
  let own : Bool := match owner with
    | none => decide (s.chOwnerKind n = 1)
    | some t => decide (s.chOwnerKind n = 2 ∧ s.chOwner n = t)
  if !own then 2
  else
    let bad := match ask with
      | .entry (.pulse 0) => true
      | .start _ =>
        let per := s.fld .TTU_CHPER 33 0 n
        let den := max 1 (s.fld .TTU_CHPREM 31 16 n)
        !s.chPeriodic n || decide (per < 1000 ∨ 10000000000 < per ∨ den ≤ s.fld .TTU_CHPREM 15 0 n)
      | _ => false
    if bad then 5
    else if 8 ≤ (s.ch n).places then 3
    else if s.dt + 10000000000 * 256 < instant then 4
    else if instant < s.dt + 200 * 256 then 1
    else 0

/-- A request to Thyme: refused and counted, or entered (R82, R83); the result. DESIGN CHOICE: a request that ends with
result 4 or 5 counts in REFUSED as well, and a START_PERIODIC that fails leaves a run in progress as it is. -/
def State.ttuRequest (s : State) (n : Nat) (ask : TtuAsk) (instant : Stamp) (owner : Option (Nat × Nat)) :
    State × Nat :=
  let r := s.ttuCheck n ask instant (owner.map (·.1))
  let c := s.ch n
  if 2 ≤ r then (s.setCh n { c with refused := satInc 6 c.refused }, r)
  else
    match ask with
    | .entry a =>
      (s.setCh n { c with q := ttuInsert { instant := instant, act := a, owner := owner, late := r = 1 } c.q }, r)
    | .start w =>
      let den := max 1 (s.fld .TTU_CHPREM 31 16 n)
      let num := s.fld .TTU_CHPER 33 0 n * den + s.fld .TTU_CHPREM 15 0 n
      (s.setCh n { c with run := some { base := instant, num := num, den := den, width := w, late := r = 1 } }, r)

/-- The instant of TTU_SCHED_NS and TTU_SCHED_FR. -/
def State.schedInstant (s : State) : Stamp := s.rg .TTU_SCHED_NS * 256 + s.fld .TTU_SCHED_FR 7 0

/-- A system request: its result stands in TTU_SCHED_STAT. -/
def State.ttuSystem (s : State) (n : Nat) (ask : TtuAsk) : State :=
  let (s, r) := s.ttuRequest n ask s.schedInstant none
  s.setRg .TTU_SCHED_STAT r

/-- A flush: pending entries are discarded and the level goes to `level` (R84). DESIGN CHOICE: a periodic run goes on. -/
def State.ttuFlushTo (s : State) (n : Nat) (level : Bool) : State :=
  (s.setCh n { s.ch n with q := [], highTo := none }).ttuDrive n level

/-- A flush to the IDLE level. -/
def State.ttuFlush (s : State) (n : Nat) : State := s.ttuFlushTo n (s.chIdle n)

/-- The channels of a tenant. -/
def State.ttuOf (s : State) (t : Nat) : List Nat :=
  (List.range 32).filter fun n => decide (s.chOwnerKind n = 2 ∧ s.chOwner n = t)

/-- A tenant reset flushes the tenant's channels (R84). -/
def State.ttuFlushTenant (s : State) (t : Nat) : State := (s.ttuOf t).foldl State.ttuFlush s

/-- The exact instant of the next occurrence, as numerator over den, in 1/256 ns (R85). -/
def TtuRun.nextNum (r : TtuRun) : Nat := r.base * r.den + 256 * r.k * r.num

/-- The vernier step at or after the next occurrence. -/
def TtuRun.nextVernier (r : TtuRun) : Stamp := (r.nextNum + 32 * r.den - 1) / (32 * r.den) * 32

/-- The instant at which the next occurrence's pulse falls, rounded up to 1/256 ns; its vernier step is that of the exact
instant (R78, R85). -/
def TtuRun.fall (r : TtuRun) : Stamp := (r.nextNum + r.den - 1) / r.den + r.width * 8 * 256

/-- A periodic channel reaches its next instant (R85): target, pin pulse, next occurrence. A pulse that starts while the
last one is high takes over its fall (R81). DESIGN CHOICE: next instants that a step has passed on a channel without
SHIFT come one by one and do not count in STEPSKIP. -/
def State.ttuPeriodic (s : State) (n : Nat) : State :=
  match (s.ch n).run with
  | none => s
  | some r =>
    if r.nextVernier ≤ s.dt then
      let c := s.ch n
      let inst := r.nextNum / r.den
      let c := { c with run := some { r with k := r.k + 1, late := false } }
      if s.chNeedLock n && !s.locked then s.setCh n { c with skipped := satInc 6 c.skipped }
      else
        let c := { c with last := stampNs inst, late := if r.late then satInc 6 c.late else c.late }
        let s := (s.setCh n c).fireTarget n r.nextVernier
        if s.chPinEn n && decide (0 < r.width) then
          let c := s.ch n
          let fall := r.fall
          let s := s.setCh n { c with q := ttuInsert { instant := fall, act := .fall, periodic := true }
                                             (c.q.filter fun e => !e.periodic),
                                      highTo := some (match c.highTo with | some t => max t fall | none => fall) }
          s.ttuDrive n true
        else s
    else s

/-- A step of Δ nanoseconds moves the pending instants of channels with SHIFT (R80). -/
def State.ttuShift (delta : Int) (s : State) (n : Nat) : State :=
  if s.chShift n then
    let c := s.ch n
    let mv (i : Stamp) : Stamp := ((i : Int) + delta * 256).toNat
    s.setCh n { c with q := c.q.map (fun e => { e with instant := mv e.instant }), highTo := c.highTo.map mv,
                       run := c.run.map fun r => { r with base := mv r.base } }
  else s

/-- Fires the entries of a channel that a commit from device time `old` to `new` has carried device time past, and
counts each in STEPSKIP (R80); entries that were due before the commit go first, in their order and without that count. A
pulse whose rise fires here and whose fall was passed too falls at once. -/
def State.ttuSkip (s : State) (old new : Stamp) (fuel n : Nat) : State :=
  match fuel with
  | 0 => s
  | fuel + 1 =>
    match (s.ch n).q with
    | [] => s
    | e :: _ =>
      if e.instant < new then
        let es := ttuHead (s.ch n).q
        let step := decide (old < e.instant)
        ((s.setCh n { s.ch n with q := (s.ch n).q.drop es.length }).ttuRunAll n step es).ttuSkip old new fuel n
      else s

/-- Thyme at a commit that moved device time from `old` to `new`, with Δ in whole ns (R80). -/
def State.ttuCommit (s : State) (old new : Stamp) (delta : Int) (isStep : Bool) : State :=
  let s := if isStep then (List.range 32).foldl (State.ttuShift delta) s else s
  (List.range 32).foldl (fun (s : State) n => s.ttuSkip old new (2 * (s.ch n).q.length + 1) n) s

/-! Commands -/

def execTtuSet (n : Nat) (s : State) := done (s.ttuSystem n (.entry .set))
def execTtuClear (n : Nat) (s : State) := done (s.ttuSystem n (.entry .clear))
def execTtuToggle (n : Nat) (s : State) := done (s.ttuSystem n (.entry .toggle))
def execTtuPulse (n width : Nat) (s : State) := done (s.ttuSystem n (.entry (.pulse width)))
def execTtuFire (n : Nat) (s : State) := done (s.ttuSystem n (.entry .fire))
def execTtuStartPeriodic (n width : Nat) (s : State) := done (s.ttuSystem n (.start width))

/-- STOP of a system channel that allows periodic mode; otherwise refused. DESIGN CHOICE: on a channel that is not
periodic it ends with result 5. -/
def execTtuStop (n : Nat) (s : State) :=
  let c := s.ch n
  if s.chOwnerKind n ≠ 1 then done ((s.setCh n { c with refused := satInc 6 c.refused }).setRg .TTU_SCHED_STAT 2)
  else if s.chPeriodic n then done ((s.setCh n { c with run := none }).setRg .TTU_SCHED_STAT 0)
  else done ((s.setCh n { c with refused := satInc 6 c.refused }).setRg .TTU_SCHED_STAT 5)

/-- FLUSH of a system channel. -/
def execTtuFlush (n : Nat) (s : State) :=
  let c := s.ch n
  if s.chOwnerKind n ≠ 1 then done ((s.setCh n { c with refused := satInc 6 c.refused }).setRg .TTU_SCHED_STAT 2)
  else done ((s.ttuFlush n).setRg .TTU_SCHED_STAT 0)

/-- A tenant's request reaches Thyme (R83): an older generation is discarded without any count; a refused request is a
boundary-8 refusal. The unit leaves its queue, so its credit returns. -/
def execTimedOutputRequest (s : State) :=
  match s.ttuReqs with
  | [] => done s
  | r :: rest =>
    let s := { s with ttuReqs := rest }
    if r.gen = s.genOf r.tenant then
      let s := s.giveCredit Bnd.elaTimed r.tenant
      let (s, res) := s.ttuRequest r.ch (.entry r.act) r.instant (some (r.tenant, r.gen))
      done (if 2 ≤ res then (s.refuse Bnd.elaTimed r.tenant).elaRefused r.tenant else s)
    else done s

def execEntryExecute (n : Nat) (s : State) := done (s.ttuExecute n)
def execPeriodicInstant (n : Nat) (s : State) := done (s.ttuPeriodic n)

end Sys2Proof.Machine
end

