-- ==== Sys2Proof/Machine/Time.lean ====
section
/-! DEFINITION. The timebase: commits, synchronisation state, reference, seconds keeper and pulse per second (R61 to
R69, R76, R77, R394). -/
namespace Sys2Proof.Machine

/-- Applies a commit at the present FRC count (R64 to R66, R80). -/
def State.applyCommit (s : State) (fold servo : Bool) : State :=
  let frc := s.frc
  let ofs := s.rg .TMB_OFS
  let old := s.dt
  let term := rateTerm (s.rg .TMB_ANC) (s.rg .TMB_RATE) frc 0
  let ofsNx := s.rg .TMB_OFS_NX
  let up : Int := -((-term) / 256)
  let ofs' := if fold then unsigned 64 ((ofs : Int) + up + signed 64 ofsNx) else ofsNx
  let anc' := if fold then frc else s.rg .TMB_ANC_NX
  let s := ((s.setRg .TMB_OFS ofs').setRg .TMB_ANC anc').setRg .TMB_RATE (s.rg .TMB_RATE_NX)
  let s := { s with tb := { s.tb with pending := none, holdFrom := if servo then frc else s.tb.holdFrom } }
  let new := s.dt
  let delta : Int := signed 64 ((stampNs new + 2 ^ 64 - stampNs old) % 2 ^ 64)
  let isStep := decide (s.rg .TMB_STEPLIM < delta.natAbs)
  let s := (s.setRg .TMB_LASTSTEP (unsigned 64 delta)).setFlag .TMB_STAT 1
  let s := if isStep then ((s.setFlag .TMB_STAT 4).fire 2 (unsigned 32 delta)).almond 6 else s
  s.ttuCommit old new delta isStep

/-- GATE holds PPS_OUT low while the state is not locked (R76): a high pin falls. -/
def State.ppsGate (s : State) : State :=
  if s.tb.ppsHigh && s.flag .TMB_PPSCFG 1 && !s.locked then
    { s with tb := { s.tb with ppsHigh := false } }.emit (.pps false)
  else s

/-- A change of the synchronisation state and its effects (R67). -/
def State.setSync (s : State) (x : SyncState) : State :=
  let s := { s with tb := { s.tb with
    sync := x
    holdFrom := if x = SyncState.locked then s.frc else s.tb.holdFrom
    holdoverAt := if x = SyncState.holdover then s.frc else s.tb.holdoverAt } }
  ((s.setFlag .TMB_STAT 5).fire 3 (syncCode x)).ppsGate

/-- MODE 1 (R64). During a supervisor warm restart no servo update is made (R14). -/
def execTimeCommitNow (fold servo : Bool) (s : State) :=
  if servo && s.pwr.warm then done s
  else if s.tb.pending.isSome then done (s.setFlag .TMB_STAT 3) else done (s.applyCommit fold servo)

/-- MODE 2 (R64): pending, or at once with CMT_LATE when the boundary has passed. The boundary is the value of TMB_CMT_AT
at the write of TMB_CMT: a later write of TMB_CMT_AT does not move a pending commit (DESIGN CHOICE). During a supervisor
warm restart no servo update is made (R14). -/
def execTimeCommitAt (fold servo : Bool) (s : State) :=
  if servo && s.pwr.warm then done s
  else if s.tb.pending.isSome then done (s.setFlag .TMB_STAT 3)
  else
    let at_ := s.rg .TMB_CMT_AT
    if at_ ≤ s.frc then done ((s.applyCommit fold servo).setFlag .TMB_STAT 2)
    else done { s with tb := { s.tb with pending := some { at_ := at_, fold := fold, servo := servo } } }

/-- MODE 3 (R64). -/
def execTimeCommitCancel (s : State) := done { s with tb := { s.tb with pending := none } }

/-- The FRC reaches TMB_CMT_AT (R64). -/
def execTimeCommitApply (s : State) :=
  match s.tb.pending with
  | some p => if p.at_ ≤ s.frc then done (s.applyCommit p.fold p.servo) else done s
  | none => done s

/-- REQ 1 (Table 03-1). -/
def execClaimLock (s : State) := if s.tb.sync = .locked then done s else done (s.setSync .locked)

/-- REQ 2 (Table 03-1). -/
def execEnterHoldover (s : State) := if s.tb.sync = .locked then done (s.setSync .holdover) else done s

/-- REQ 3 (Table 03-1). -/
def execDeclareLost (s : State) := if s.locked then done (s.setSync .lost) else done s

/-- The hold timer expires; it runs only in LOCKED (R67). -/
def execHoldTimerExpiry (s : State) :=
  if s.tb.sync = .locked ∧ s.tb.holdFrom + max 100 (s.fld .TMB_HOLD 15 0) * ms ≤ s.frc then done (s.setSync .holdover)
  else done s

/-- LIMIT seconds pass in HOLDOVER (Table 03-1). -/
def execHoldoverLimitExpiry (s : State) :=
  if s.tb.sync = .holdover ∧ s.tb.holdoverAt + max 1 (s.fld .TMB_HOLD 31 16) * sec ≤ s.frc then done (s.setSync .lost)
  else done s

/-- The reference is detected lost (R62, R394). -/
def execReferenceLost (s : State) :=
  if s.pwr.refOk && s.pwr.main then
    let s := { s with pwr := { s.pwr with refOk := false } }
    let s := (((s.setFlag .TMB_STAT 0).setFlag .CLK_STAT 0).fire 4 0).almond 29
    done (if s.tb.sync = .locked then s.setSync .holdover else s)
  else done s

/-- Whole seconds of device time. -/
def State.dtSec (s : State) : Nat := stampNs s.dt / sec

/-- Device time stands within 4 ns after a whole second. -/
def State.atSecond (s : State) : Bool := decide (stampNs s.dt % sec ≤ 3)

/-- Nothing was done for this whole second yet: the last time, at an FRC count, lies more than 4 ns back. -/
def State.newSecond (s : State) (last : Option Nat) : Bool := match last with | some f => decide (f + 4 < s.frc) | none => true

/-- At every whole second of device time while locked, a repeated one too, the seconds keeper is set from device time (R69). -/
def execRtcSecond (s : State) :=
  if s.locked && s.atSecond && s.newSecond s.tb.rtcSecond then
    done { s with tb := { s.tb with rtcValid := true, rtc := s.dtSec * 32768, rtcFrom := s.frc, rtcSecond := some s.frc } }
  else done s

/-- PPS_OUT rises at a whole second, never early and no later than 4 ns after it, unless gated (R76). -/
def execPpsOutRise (s : State) :=
  if s.flag .TMB_PPSCFG 0 && s.atSecond && s.newSecond s.tb.ppsRise && (!s.flag .TMB_PPSCFG 1 || s.locked) then
    let w := s.fld .TMB_PPSCFG 31 16
    let w := if 1 ≤ w ∧ w ≤ 500 then w else 100
    let s' := { s with tb := { s.tb with ppsHigh := true, ppsFall := s.frc + w * ms, ppsRise := some s.frc } }
    done (s'.emit (.pps true))
  else done s

/-- WIDTH ms after its rise PPS_OUT falls (R76). -/
def execPpsOutFall (s : State) :=
  if s.tb.ppsHigh && decide (s.tb.ppsFall ≤ s.frc) then
    done ({ s with tb := { s.tb with ppsHigh := false } }.emit (.pps false))
  else done s

/-- A rise of PPS_IN that the glitch filter of 50 ns has accepted (R77); the filter stands before the command. -/
def execPpsInEdge (s : State) :=
  let early := match s.tb.ppsIn with | some f => decide (s.frc < f + 900 * ms) | none => false
  if early then done (s.setFld .TMB_PPSCFG 15 8 (satInc 8 (s.fld .TMB_PPSCFG 15 8)))
  else
    let s := (s.setRg .TMB_PPSIN_NS (stampNs s.dt)).setFlag .TMB_STAT 7
    done { s with tb := { s.tb with ppsIn := some s.frc, ppsLost := false } }

/-- No edge is accepted for 1.5 s after the previous one (R77). -/
def execPpsLost (s : State) :=
  match s.tb.ppsIn with
  | some f =>
    if f + 1500 * ms ≤ s.frc && !s.tb.ppsLost then
      done (({ s with tb := { s.tb with ppsLost := true } }.setFlag .TMB_STAT 6).almond 28)
    else done s
  | none => done s

end Sys2Proof.Machine
end

