-- ==== Sys2Proof/Machine/Keys.lean ====
section
/-! DEFINITION. Hazel: key slots, the vault commands, expiry, grace and tamper (R351 to R363, R367). -/
namespace Sys2Proof.Machine

def State.setSlot (s : State) (n : Nat) (k : KeySlot) : State :=
  { s with kvs := { s.kvs with slots := Tbl.put {} s.kvs.slots n k } }

/-- The key of a slot that an operation uses which begins now: in the cycle of a COMMIT, that from before it (R356, R367). -/
def State.slotKey (s : State) (n : Nat) : KeySlot :=
  match (s.slot n).st, Tbl.get none s.now.keys n with
  | .active, some old => old
  | _, _ => s.slot n

/-- The usable key of a slot for a use, named by a tenant or by the system (R353). -/
def State.usableKey (s : State) (n useBit : Nat) (tenant : Option Nat) : Option Nat :=
  let k := s.slotKey n
  let owned : KeyAttr → Bool := fun a => match tenant with
    | none => true
    | some t => decide (a.owner = sysOwner ∨ a.owner = t)
  match s.slotAttr n with
  | some a =>
    if (k.st = .active ∨ k.st = .orphan) ∧ s.kvs.vault = .ready ∧ bit a.use useBit ∧ owned a then some k.mat else none
  | none => none

/-- The outcome of checking a tag (R141, R217): none when there is no usable key. -/
def State.checkTag (s : State) (tag : MacTag) (n useBit : Nat) (tenant : Option Nat) : Option Bool :=
  if tag.hmac128 then (s.usableKey n useBit tenant).map fun k => tag.intact && decide (tag.key = k) else some false

/-- The slots whose parent is in a list. -/
def keyKids (slots : Tbl KeySlot) (ps : List Nat) : List Nat :=
  slots.filterMap fun e => match e.2.parent with
    | some p => if p ∈ ps ∧ e.2.st ≠ .empty then some e.1 else none
    | none => none

/-- A slot and its descendants (R357): children are added until none is new; the fuel is the number of slots. -/
def keyTree (slots : Tbl KeySlot) : Nat → List Nat → List Nat
  | 0, acc => acc
  | f + 1, acc => keyTree slots f (acc ++ (keyKids slots acc).filter fun n => decide (n ∉ acc))

/-- KVS_GRACE in seconds: 0 counts as 1, larger values as 86,400 (R358). -/
def State.grace (s : State) : Nat := min 86400 (max 1 (s.fld .KVS_GRACE 16 0))

/-- Erases a slot and orphans its ACTIVE descendants; the stagings that name it or a descendant are discarded (R357,
R358). -/
def State.invalidateSlot (s : State) (n : Nat) : State :=
  let tree := keyTree s.kvs.slots s.kvs.slots.length [n]
  let g := s.grace
  let orphaned := tree.filter fun m => decide (m ≠ n ∧ (s.slot m).st = .active)
  let s := orphaned.foldl (fun s m => s.setSlot m { s.slot m with
    st := .orphan, graceEnd := s.frc + g * sec, graceKept := g }) s
  let s := applyIf (!orphaned.isEmpty) (·.setFlag .KVS_STAT 3) s
  let s := { s with kvs := { s.kvs with stg := s.kvs.stg.filter fun e => match e.2 with
    | some g => match g.parent with | some p => decide (p ∉ tree) | none => true
    | none => true } }
  s.setSlot n {}

/-- A Hazel command ends with a result (KVS_RESULT, KVS_STAT). -/
def State.kvsEnd (s : State) (cmd result : Nat) : State :=
  let s := (s.setRg .KVS_RESULT (cmd * 16 + result)).setFlag .KVS_STAT 0
  applyIf (decide (result ≠ 0)) (·.setFlag .KVS_STAT 1) s

/-- PWR_STAT.WARN, PWR_STAT.REG_FAULT, SGE_STAT.THERMAL and TMP_STAT.ACTIVE, as bits 0 to 3 (R424). -/
def State.smbBits (s : State) : Nat :=
  s.fld .PWR_STAT 1 0 + 4 * s.fld .SGE_STAT 5 5 + 8 * b2n s.tamperActive

/-- SMB_ALERT_N after a change from state `old`: it falls when one of the four bits becomes set, and is released when all
are clear (R424). -/
def State.smbSettle (old s : State) : State :=
  let a := old.smbBits
  let b := s.smbBits
  if b = 0 then { s with pwr := { s.pwr with smbAlert := false } }
  else if b &&& (15 - a) ≠ 0 then { s with pwr := { s.pwr with smbAlert := true } }
  else s

/-- A Hazel command is written (R356, R362): BUSY while one runs, TAMPER while a source is asserted, VAULT while the
vault is not READY; otherwise it runs and its result stands ready for KEY_COMMAND_DONE. `free` commands (DISCARD,
INVALIDATE) are not refused by tamper or vault. -/
def State.kvsCommand (s : State) (cmd : Nat) (free : Bool) (body : State → State × Nat) : State :=
  let slot := s.fld .KVS_SEL 13 0
  let start (s : State) (r : Nat) : State :=
    { s with kvs := { s.kvs with run := some { cmd := cmd, slot := slot, result := r } } }.setRg .KVS_RESULT
      (2 ^ 31 + cmd * 16)
  if s.kvs.run.isSome then
    ((s.setRg .KVS_RESULT (2 ^ 31 + cmd * 16 + 1)).setFlag .KVS_STAT 0).setFlag .KVS_STAT 1
  else if s.tamperActive && !free then start s 8
  else if decide (s.kvs.vault ≠ .ready) && !free then start s 9
  else
    let (s, r) := body s
    start s r

def State.setStg (s : State) (n : Nat) (g : Option KeyStaging) : State :=
  { s with kvs := { s.kvs with stg := Tbl.put none s.kvs.stg n g } }

/-- The parent's key for a DERIVE or IMPORT (R354): kind and use, ACTIVE and unexpired, owner the system or the target's
owner; none means PARENT. DEDUCED: a parent of another kind or use than the command asks for is refused with PARENT as well,
the only result that names the parent. -/
def State.parentKey (s : State) (target : KeyAttr) (kind useBit : Nat) : Option Nat :=
  let p := s.fld .KVS_PARENT 13 0
  let k := s.slot p
  match s.slotAttr p with
  | some a =>
    if a.kind = kind ∧ bit a.use useBit ∧ k.st = .active ∧ (a.owner = sysOwner ∨ a.owner = target.owner) ∧
        (k.notAfter = 0 ∨ !s.locked ∨ s.dtSec ≤ k.notAfter) then some k.mat else none
  | none => none

/-- The slot selected, if a command may fill it: slots 0 to 2 are not filled by a command, and a slot without
attributes has no kind. DESIGN CHOICE: STATE and KIND are the codes of these two. -/
def State.target (s : State) : Except Nat (Nat × KeyAttr) :=
  let n := s.fld .KVS_SEL 13 0
  if n ≤ 2 then .error 2
  else match s.slotAttr n with
    | some a => .ok (n, a)
    | none => .error 4

/-- DERIVE (R354). -/
def execDerive (s : State) := done (s.kvsCommand 1 false fun s =>
  match s.target with
  | .error r => (s, r)
  | .ok (n, a) =>
    if a.kind = Kind.ecdsa then (s, 4)
    else match s.parentKey a Kind.derive Use.derive with
      | none => (s, 3)
      | some m =>
        (s.setStg n (some { mat := Config.kdf m (s.rg .KVS_LABEL) n a.kind, parent := some (s.fld .KVS_PARENT 13 0),
                            notAfter := s.rg .KVS_NOTAFTER }), 0))

/-- IMPORT of a key blob read from KVS_ADDR; none when the read fails (R354, Table 16-2). DESIGN CHOICE: the parent is
judged before the blob, KIND and USE before the tag, and a blob without its MAGIC, LEN or zeros ends with AUTH. -/
def execImportKey (blob : Option KeyBlob) (s : State) := done (s.kvsCommand 2 false fun s =>
  match s.target, blob with
  | .error r, _ => (s, r)
  | .ok (n, a), blob =>
    match s.parentKey a Kind.aes Use.wrap, blob with
    | none, _ => (s, 3)
    | some _, none => (s, 10)
    | some m, some b =>
      if b.kind ≠ a.kind ∨ b.use ≠ a.use then (s, 4)
      else if !b.formatOk || !b.intact || decide (b.under ≠ m) then (s, 5)
      else (s.setStg n (some { mat := b.mat, parent := some (s.fld .KVS_PARENT 13 0), notAfter := b.notAfter }), 0))

/-- GENERATE (R354): fresh output of the random-bit generator, without a parent. -/
def execGenerate (s : State) := done (s.kvsCommand 3 false fun s =>
  match s.target with
  | .error r => (s, r)
  | .ok (n, _) =>
    ({ s with freeN := s.freeN + 1 }.setStg n (some
      { mat := Config.randomBits s.freeN, parent := none, notAfter := s.rg .KVS_NOTAFTER }), 0))

/-- The expected check value, KVS_KCV(0) to KVS_KCV(3), first byte least significant. -/
def State.kcv (s : State) : Nat :=
  s.rg .KVS_KCV 0 + 2 ^ 32 * s.rg .KVS_KCV 1 + 2 ^ 64 * s.rg .KVS_KCV 2 + 2 ^ 96 * s.rg .KVS_KCV 3

/-- VERIFY (R355). -/
def execVerify (s : State) := done (s.kvsCommand 4 false fun s =>
  match s.target with
  | .error r => (s, r)
  | .ok (n, a) =>
    match Tbl.get none s.kvs.stg n with
    | none => (s, 7)
    | some g =>
      if Config.keyCheck a.kind g.mat = s.kcv then (s.setStg n (some { g with verified := true }), 0)
      else (s.setStg n none, 6))

/-- COMMIT (R356, R357): not before a supervisor warm restart in progress has completed (R14). -/
def execKeyCommit (s : State) := if s.pwr.warm then done s else done (s.kvsCommand 5 false fun s =>
  match s.target with
  | .error r => (s, r)
  | .ok (n, _) =>
    match Tbl.get none s.kvs.stg n with
    | none => (s, 7)
    | some g =>
      let old := s.slot n
      let live := match g.parent with | some p => decide ((s.slot p).st = .active) | none => true
      if !g.verified then (s, 7)
      else if decide (old.st = .orphan ∨ old.st = .expired) && !live then (s, 3)
      else
        let s := s.setStg n none
        let s := { s with now := { s.now with keys := Tbl.upd none s.now.keys n fun o => some (o.getD old) } }
        (s.setSlot n { st := .active, mat := g.mat, parent := g.parent, notAfter := g.notAfter }, 0))

/-- DISCARD: empties the staging. -/
def execKeyDiscard (s : State) := done (s.kvsCommand 6 true fun s => (s.setStg (s.fld .KVS_SEL 13 0) none, 0))

/-- INVALIDATE (R357, R358). DESIGN CHOICE: of slots 0 to 2 or of an EMPTY slot it ends with STATE. -/
def execInvalidate (s : State) := done (s.kvsCommand 7 true fun s =>
  let n := s.fld .KVS_SEL 13 0
  if n ≤ 2 ∨ (s.slot n).st = .empty then (s, 2) else (s.invalidateSlot n, 0))

/-- The erasure of every slot record but the vault root's place: every slot counts as EMPTY, no staging is left. -/
def State.eraseSlots (s : State) : State := { s with kvs := { s.kvs with slots := [], stg := [] } }

/-- VAULT_INIT is accepted in TEST, PROVISIONED and OPERATIONAL (R363): it erases at once and completes with
KEY_COMMAND_DONE. DESIGN CHOICE: in another lifecycle state it ends with STATE. -/
def execVaultInit (s : State) :=
  let slot := s.fld .KVS_SEL 13 0
  let start (s : State) (r : Nat) : State :=
    { s with kvs := { s.kvs with run := some { cmd := 8, slot := slot, result := r } } }.setRg .KVS_RESULT
      (2 ^ 31 + 8 * 16)
  if s.kvs.run.isSome then
    done (((s.setRg .KVS_RESULT (2 ^ 31 + 8 * 16 + 1)).setFlag .KVS_STAT 0).setFlag .KVS_STAT 1)
  else if s.tamperActive || !s.kvs.identity then done (start s 8)
  else if 2 < s.fld .ATT_LC 2 0 then done (start s 2)
  else
    let s := s.eraseSlots
    done (start { s with kvs := { s.kvs with vault := .none } } 0)

/-- Steps 2 to 4 of VAULT_INIT (R363): a new vault root and a new attestation key; TAMPERED clear; READY. -/
def State.vaultFinish (s : State) : State :=
  let n := s.freeN
  let s := { s with freeN := n + 2 }
  let s := s.setSlot 1 { st := .active, mat := Config.randomBits n }
  let s := s.setSlot 3 { st := .active, mat := Config.randomBits (n + 1), parent := some 1 }
  { s with kvs := { s.kvs with tampered := false, vault := .ready } }.almond 16

/-- A Hazel command completes (R356). -/
def State.keyCommandDone (s : State) : State :=
  match s.kvs.run with
  | none => s
  | some r =>
    let s := { s with kvs := { s.kvs with run := none } }
    let s := if r.cmd = 8 ∧ r.result = 0 then s.vaultFinish else s
    s.kvsEnd r.cmd r.result

/-- A slot becomes EXPIRED with a flag of KVS_STAT (R357). -/
def State.expireSlot (s : State) (n flag : Nat) : State :=
  ((s.setSlot n { s.slot n with st := .expired }).setFlag .KVS_STAT flag).fire 35 n

/-- Once a second (R358, R359): while locked, each NOTAFTER is compared with the seconds of device time; otherwise
EXP_HELD; the remaining grace of each orphan is stored. DESIGN CHOICE: NOTAFTER has passed once device time shows a later
second. -/
def execExpiryCheck (s : State) :=
  if s.pwr.main && decide (s.kvs.checkAt + sec ≤ s.frc) then
    let s := { s with kvs := { s.kvs with checkAt := s.frc } }
    let now := s.dtSec
    let passed := s.kvs.slots.filter fun e =>
      decide ((e.2.st = .active ∨ e.2.st = .orphan) ∧ e.2.notAfter ≠ 0 ∧ e.2.notAfter < now)
    let s := if s.locked then passed.foldl (fun s e => s.expireSlot e.1 5) s else s.setFlag .KVS_STAT 6
    let frc := s.frc
    let keep (k : KeySlot) : KeySlot :=
      if k.st = .orphan then { k with graceKept := (k.graceEnd - frc + sec - 1) / sec } else k
    done { s with kvs := { s.kvs with slots := s.kvs.slots.map fun e => (e.1, keep e.2) } }
  else done s

/-- An orphan's grace end is reached (R357). -/
def execGraceEnd (n : Nat) (s : State) :=
  let k := s.slot n
  if k.st = .orphan ∧ k.graceEnd ≤ s.frc then done (s.expireSlot n 4) else done s

/-- TMB_RTC in its format (R69). -/
def State.rtcWord (s : State) : Nat := s.rtcTicks % 2 ^ 63 + (if s.tb.rtcValid then 2 ^ 63 else 0)

/-- A tamper source fires (R361): key material goes, cause and time are latched, and with main power the effects in
operation follow. -/
def State.tamperFire (s : State) (src : Nat) : State :=
  let s := applyIf (decide (s.fld .TMP_STAT 6 0 = 0)) (fun s => s.setRg .TMP_LOG s.rtcWord) s
  let s := s.setFlag .TMP_STAT src
  let run := s.kvs.run
  let s := { s.eraseSlots with kvs := { s.eraseSlots.kvs with
    vault := .none, identity := false, tampered := true, run := none, unreported := !s.pwr.main } }
  let s := match run with | some r => s.kvsEnd r.cmd 8 | none => s
  if s.pwr.main then ((s.setFlag .KVS_STAT 2).fire 36 (s.fld .TMP_STAT 6 0)).almond 11 else s

/-- An enabled source 0 to 5 is detected; it stays asserted until IDENTITY_REDERIVE finds it gone (R360). -/
def execTamper (src : Nat) (s : State) :=
  if src ≤ 5 && s.flag .TMP_CFG src then
    let old := s
    let s := { s with kvs := { s.kvs with asserted := s.kvs.asserted ||| 2 ^ src } }
    done (old.smbSettle (s.tamperFire src))
  else done s

/-- A write of TMP_CMD (R360): source 6 fires where it is enabled and the key is 0xA5. -/
def execZeroise (key : Nat) (s : State) :=
  if key = 0xA5 ∧ s.flag .TMP_CFG 6 then done (s.tamperFire 6) else done s

/-- The sources still asserted are those of `levels`; once no enabled one is, Hazel derives slot 2 again from slot 0
(R363). -/
def execIdentityRederive (levels : Nat) (s : State) :=
  let s := s.smbSettle { s with kvs := { s.kvs with asserted := levels % 64 } }
  if !s.tamperActive && s.pwr.main && !s.kvs.identity then
    done { s with kvs := { s.kvs with identity := true } }
  else done s

end Sys2Proof.Machine
end

