-- ==== Sys2Proof/Machine/Sesame.lean ====
section
/-! DEFINITION. Sesame, the sampled-value ingest (R136 to R156). -/
namespace Sys2Proof.Machine

def State.setStream (s : State) (n : Nat) (x : Stream) : State :=
  { s with svx := { s.svx with streams := Tbl.put {} s.svx.streams n x } }

/-- Adds 1 to counter k of Table 06-11. -/
def Stream.inc (x : Stream) (k : Nat) : Stream := { x with cnt := Tbl.upd 0 x.cnt k (satInc 32) }
def State.scnt (s : State) (n k : Nat) : State := s.setStream n ((s.stream n).inc k)

/-- DEPTH in records. -/
def StreamCfg.ringDepth (c : StreamCfg) : Nat := 8 * 2 ^ c.depth

/-- (a − b) mod w of sample counts (R142). -/
def modDiff (a b w : Nat) : Nat := (((a : Int) - b) % w).toNat

/-- smpCnt wraps at the rate (Table 06-1). -/
def StreamCfg.wrap (c : StreamCfg) : Nat := rateHz c.rate

/-- Synchronisation class of a smpSynch value: 0 none, 1 local, 2 global, 3 grandmaster identity (R144, Table 06-4). -/
def syncClass (c : StreamCfg) (v : Nat) : Nat :=
  if c.legacy then (if v = 0 then 0 else 2)
  else if v = 1 then 1 else if v = 2 then 2 else if 5 ≤ v ∧ v ≤ 254 then 3 else 0

/-- UNSYNC: no bit of SYNCACC that applies is set (R144). -/
def unsynced (c : StreamCfg) (v : Nat) : Bool :=
  let k := syncClass c v
  !(decide (1 ≤ k) && bit c.syncAcc (k - 1))

/-- SFLAGS bits (Table 06-5). -/
def Sf.unsync : Nat := 0
def Sf.sim : Nat := 1
def Sf.authNone : Nat := 2
def Sf.range : Nat := 3
def Sf.invalid : Nat := 4
def Sf.quest : Nat := 5
def Sf.test : Nat := 6
def Sf.missing : Nat := 8
def Sf.creditGap : Nat := 9
def Sf.resync : Nat := 10
def Sf.syncChg : Nat := 11
def Sf.creditDrop : Nat := 12

/-- A flag as its weight. -/
def flagW (b : Bool) (n : Nat) : Nat := if b then 2 ^ n else 0

/-- Channel i is outside its window (R145). -/
def outOfWindow (c : StreamCfg) (i : Nat) (v : Int) : Bool :=
  let w := if bit c.chtype i then c.uwin else c.iwin
  decide (w ≠ 0 ∧ ((w : Int) < v ∨ v < -(w : Int)))

/-- Offers the descriptor of the record just to be written and writes the record (R146, R148, R149): without a credit
at boundary 4 the record carries CREDIT_DROP. -/
def State.writeSample (s : State) (n : Nat) (c : StreamCfg) (r : SampleRec) : State :=
  let x := s.stream n
  let pos := x.widx % c.ringDepth
  let have_ := decide (0 < s.avail Bnd.filter n)
  let r := { r with flags := r.flags + n * 2 ^ 16 + flagW (!have_) Sf.creditDrop }
  let x := { x with widx := x.widx + 1, ring := Tbl.put none x.ring pos (some r), newest := r.stamp }
  let x := if have_ = false ∨ bit r.flags Sf.creditGap then x.inc 11 else x
  let s := (s.setStream n x).capOpen n r.smp r.stamp
  if have_ then
    let d : SampleDesc := { pos := pos, smp := r.smp, flags := bits r.flags 15 0 }
    let s := s.takeCredit Bnd.filter n
    { s with svx := { s.svx with descs := Tbl.upd [] s.svx.descs n (· ++ [d]) } }
  else s.ingestDrop Bnd.filter n

/-- Gap record j of a gap after smpCnt `last`, with the stamp of the record before the gap (R143, R146). -/
def gapRecord (c : StreamCfg) (last : Nat) (before : Stamp) (loss : Bool) (j : Nat) : SampleRec :=
  { vals := List.replicate c.nch 0, cq := List.replicate c.nch 1,
    stamp := stampMod (before + periods256 c.rate j), stampSrc := 3, smp := (last + j) % c.wrap,
    flags := if loss then 2 ^ Sf.creditGap else 2 ^ Sf.missing }

/-- What a frame has done so far to its stream (R150). -/
structure SvRun where
  bad : Bool := false
  restart : Bool := false
  wrote : Bool := false
  accepted : Bool := false
  dup : Bool := true
deriving DecidableEq, Repr

/-- The record of ASDU k of a frame (R144 to R146). -/
def svRecord (c : StreamCfg) (rx : RxFrame) (p : SvPdu) (k : Nat) (a : SvAsdu) (authNone : Bool) (resync : Bool)
    (prevSynch : Option Nat) : SampleRec :=
  let chans := a.chans.zip (List.range c.nch)
  let range := chans.map fun e => outOfWindow c e.2 e.1.val
  let cq := (a.chans.zip range).map fun e => e.1.q % 2 ^ 14 + flagW e.2 14
  let invalid := cq.map fun q => decide (q % 4 = 1 ∨ q % 4 = 2) || bit q 14
  let chg := match prevSynch with | some v => decide (v ≠ a.smpSynch) && !resync | none => false
  { vals := a.chans.map (·.val), cq := cq,
    stamp := stampAdd rx.stamp (-(periods256 c.rate (c.asdus - 1 - k) : Int)), stampSrc := 0, asdu := k,
    lanB := rx.lanB, syncClass := syncClass c a.smpSynch, smp := a.smpCnt,
    flags := flagW (unsynced c a.smpSynch) Sf.unsync + flagW p.simulation Sf.sim + flagW authNone Sf.authNone +
      flagW (range.any id) Sf.range + flagW (invalid.any id) Sf.invalid +
      flagW (cq.any fun q => decide (q % 4 = 3)) Sf.quest + flagW (cq.any fun q => bit q 11) Sf.test +
      flagW resync Sf.resync + flagW chg Sf.syncChg }

/-- Writes a received sample and remembers it as the previous received sample (R147). -/
def State.svReceive (s : State) (n : Nat) (c : StreamCfg) (r : SampleRec) (synch : Nat) (w : SvRun) : State × SvRun :=
  let s := applyIf (bit r.flags Sf.range) (·.scnt n 10) s
  let had := decide (0 < s.avail Bnd.filter n)
  let s := s.writeSample n c r
  let s := s.setStream n { s.stream n with
    prev := some { smp := r.smp, synch := synch, unsync := bit r.flags Sf.unsync } }
  (s, { w with wrote := true, accepted := w.accepted || had, dup := false })

/-- Continuity of ASDU k (R142, Table 06-3). -/
def State.svContinuity (s : State) (n : Nat) (c : StreamCfg) (rx : RxFrame) (p : SvPdu) (k : Nat) (a : SvAsdu)
    (authNone : Bool) (w : SvRun) : State × SvRun :=
  match (s.stream n).prev with
  | none =>
    (s.scnt n 3).svReceive n c (svRecord c rx p k a authNone true none) a.smpSynch { w with restart := true }
  | some q =>
    let wr := c.wrap
    let d := modDiff a.smpCnt (q.smp + 1) wr
    let b := modDiff q.smp a.smpCnt wr
    let r := svRecord c rx p k a authNone false (some q.synch)
    if d = 0 then s.svReceive n c r a.smpSynch w
    else if d ≤ c.gapMax then
      let before := (s.stream n).newest
      let s := iterUpto d (fun j s => (s.scnt n 2).writeSample n c (gapRecord c q.smp before rx.loss (j + 1))) s
      s.svReceive n c r a.smpSynch { w with restart := true }
    else if b < 64 then (s.scnt n 1, w)
    else
      (s.scnt n 3).svReceive n c (svRecord c rx p k a authNone true none) a.smpSynch { w with restart := true }

/-- The ASDUs of a frame that passed the frame checks, in order (R140). -/
def State.svAsdus (n : Nat) (c : StreamCfg) (rx : RxFrame) (p : SvPdu) (authNone : Bool) :
    Nat → List SvAsdu → State → SvRun → State × SvRun
  | _, [], s, w => (s, w)
  | k, a :: rest, s, w =>
    let (s, w) :=
      if a.svid ≠ c.svid ∨ c.wrap ≤ a.smpCnt ∨ a.chans.length ≠ c.nch then
        (s.scnt n 8, { w with bad := true, dup := false })
      else if a.confRev ≠ c.confRev then (s.scnt n 9, { w with bad := true, dup := false })
      else s.svContinuity n c rx p k a authNone w
    State.svAsdus n c rx p authNone (k + 1) rest s w

/-- GOODRUN and the state after a frame (R150, Table 06-6). -/
def State.svState (s : State) (n : Nat) (w : SvRun) : State :=
  let x := s.stream n
  let run := if w.bad then 0 else if w.restart then 1 else if w.dup then x.goodRun else min 8 (x.goodRun + 1)
  match x.st with
  | .lost => if w.wrote then s.setStream n { x with st := .acquire, goodRun := 1 } else s
  | .acquire =>
    if run = 8 then (s.setStream n { x with st := .valid, goodRun := 8 }).setFlag .SVX_STAT 2
    else s.setStream n { x with goodRun := run }
  | .valid => s.setStream n { x with goodRun := run }
  | .disabled => s

/-- The stream timer is armed at the FRC of the start-of-frame delimiter (R151). -/
def State.svRearm (s : State) (n : Nat) (c : StreamCfg) (rx : RxFrame) : State :=
  let hz := rateHz c.rate
  let d := (c.tmo * c.asdus * sec + hz - 1) / hz
  s.setStream n { s.stream n with expiry := some (rx.frc + d), lastNs := stampNs rx.stamp }

/-- A frame discarded whole under counter k: it is bad (R140, R150). -/
def State.svBad (s : State) (n k : Nat) : State := (s.scnt n k).svState n { bad := true, dup := false }

/-- Discovery (R152). -/
def State.discover (s : State) (rx : RxFrame) (p : SvPdu) : State :=
  if s.flag .SVX_CTL 0 = false then s
  else
    let a := p.asdus.headD { svid := [], smpCnt := 0, confRev := 0, smpSynch := 0, chans := [] }
    let hit (d : Discovery) : Bool := decide (d.appid = p.appid ∧ d.svid = a.svid ∧ d.sa = rx.frame.sa)
    if s.svx.disc.any hit then
      { s with svx := { s.svx with
        disc := s.svx.disc.map fun d => if hit d then { d with frames := satInc 32 d.frames } else d } }
    else if 256 ≤ s.svx.disc.length then s.setFlag .SVX_STAT 6
    else
      let d : Discovery :=
        { appid := p.appid, svid := a.svid, sa := rx.frame.sa, port := rx.port, stamp := rx.stamp,
          noAsdu := p.noAsdu, smpSynch := a.smpSynch, confRev := a.confRev }
      { s with svx := { s.svx with disc := s.svx.disc ++ [d] } }.setFlag .SVX_STAT 5

/-- The stream whose entry matches an APPID and svID exactly. -/
def State.svLookup (s : State) (appid : Nat) (svid : List Byte) : Option (Nat × StreamCfg) :=
  s.svx.cfg.findSome? fun e => match e.2 with
    | some c => if c.appid = appid ∧ c.svid = svid then some (e.1, c) else none
    | none => none

/-- The frame checks and the ASDUs of a frame of stream n (R140, R141). `authNone` tells that its samples were not
authenticated. -/
def State.svChecked (s : State) (n : Nat) (c : StreamCfg) (rx : RxFrame) (p : SvPdu) (authNone : Bool) : State :=
  if p.simulation && !c.simAcc then s.svBad n 7
  else
    let (s, w) := State.svAsdus n c rx p authNone 0 p.asdus s {}
    let s := applyIf w.accepted (·.scnt n 0) s
    let s := s.svState n w
    if w.wrote then s.svRearm n c rx else s

/-- One SV frame (R136, R140, R141). -/
def State.svProcess (s : State) (rx : RxFrame) (p : SvPdu) : State :=
  let unknown (s : State) := (s.incRg .SVX_UNKNOWN).setFlag .SVX_STAT 0
  if p.appid < 0x4000 ∨ 0x7FFF < p.appid then unknown s
  else if !p.parses || p.asdus.isEmpty then s.incRg .SVX_PARSE
  else
    match s.svLookup p.appid ((p.asdus.head?.map (·.svid)).getD []) with
    | none => (unknown s).discover rx p
    | some (n, c) =>
      if p.noAsdu ≠ c.asdus ∨ p.asdus.length ≠ c.asdus then s.svBad n 8
      else
        let fail (s : State) := ((s.setFlag .SVX_STAT 1).fire 11 n).svBad n 4
        match c.auth, p.tag with
        | 0, _ => s.svChecked n c rx p true
        | 1, none => (s.scnt n 6).svChecked n c rx p true
        | _, none => fail s
        | _, some tag =>
          match s.checkTag tag c.keySlot Use.svVerify none with
          | none => (s.setFlag .SVX_STAT 4).svBad n 5
          | some false => fail s
          | some true => s.svChecked n c rx p false

/-- Sesame takes the next SV frame of its queue; its credit at boundary 1 returns. -/
def execSvFrame (s : State) :=
  match s.svx.queue with
  | [] => done s
  | rx :: rest =>
    let s := { s with svx := { s.svx with queue := rest } }.giveCredit Bnd.sv rx.port
    match rx.frame.payload with
    | .sv p => done (s.svProcess rx p)
    | _ => done (s.incRg .SVX_PARSE)

/-- The stream timer expires (R151, Table 06-6). -/
def execStreamTimeout (n : Nat) (s : State) :=
  let x := s.stream n
  match x.expiry with
  | some t =>
    if t ≤ s.frc then
      let x := { x with expiry := none, prev := none }
      match x.st with
      | .acquire => done (s.setStream n { x with goodRun := 0 })
      | .valid => done ((((s.setStream n ({ x with st := .lost }.inc 12)).setFlag .SVX_STAT 3).fire 10 n).almond 26)
      | _ => done (s.setStream n x)
    else done s
  | none => done s

def execSvxClearSel (s : State) :=
  let n := s.fld .SVX_SSEL 11 0
  let put (x : Stream) (c : Tbl Nat) : Stream := { x with cnt := c }
  done { s with svx := { s.svx with streams := Tbl.recountAt {} s.svx.streams s.now.streams n Stream.cnt put },
                now := { s.now with streams := Tbl.recountAt {} s.now.streams s.now.streams n Stream.cnt put } }

def execSvxClearAll (s : State) :=
  let put (x : Stream) (c : Tbl Nat) : Stream := { x with cnt := c }
  done { s with svx := { s.svx with streams := Tbl.recount {} s.svx.streams s.now.streams Stream.cnt put },
                now := { s.now with streams := Tbl.recount {} s.now.streams s.now.streams Stream.cnt put } }

/-- SVX_DISCPOP: no effect on an empty list. -/
def execDiscoveryPop (s : State) := done { s with svx := { s.svx with disc := s.svx.disc.tail } }

def execSvxUnknownRead (q : Requester) (s : State) := done (s.readClear q .SVX_UNKNOWN)
def execSvxParseRead (q : Requester) (s : State) := done (s.readClear q .SVX_PARSE)

end Sys2Proof.Machine
end

