-- ==== Sys2Proof/Machine/Filter.lean ====
section
/-! DEFINITION. The filter and decimation chain (R157 to R174). -/
namespace Sys2Proof.Machine

def State.chain (s : State) (n : Nat) : FltChain := Tbl.get {} s.flt.chains n
def State.setChain (s : State) (n : Nat) (c : FltChain) : State :=
  { s with flt := { s.flt with chains := Tbl.put {} s.flt.chains n c } }
def FltChain.inc (c : FltChain) (k : Nat) : FltChain := { c with cnt := Tbl.upd 0 c.cnt k (satInc 32) }

/-- Clamps to a signed 32-bit value; the flag tells that it saturated (R160). -/
def sat32 (r : Int) : Int × Bool :=
  if 2147483647 < r then (2147483647, true) else if r < -2147483648 then (-2147483648, true) else (r, false)

/-- The reduction of R160: rounding arithmetic shift, then saturation. -/
def reduce (shift : Nat) (acc : Int) : Int × Bool :=
  sat32 (if shift = 0 then acc else (acc + 2 ^ (shift - 1)) / 2 ^ shift)

def dot : List Int → List Int → Int
  | c :: cs, x :: xs => c * x + dot cs xs
  | _, _ => 0

/-- The coefficients of a channel: voltage or current set as CHTYPE selects. -/
def StageCfg.coef (g : StageCfg) (chtype c : Nat) : List Int := if bit chtype c then g.coefU else g.coefI

/-- Cascaded sections of one channel (R160): sections hold reduced values. -/
def biquadRun (shift : Nat) (coef : List Int) (ch : Nat) : Nat → Nat → Tbl Biquad → Int → Bool → Tbl Biquad × Int × Bool
  | 0, _, bq, x, sat => (bq, x, sat)
  | n + 1, k, bq, x, sat =>
    let st := Tbl.get {} bq (8 * k + ch)
    let cf (i : Nat) : Int := coef.getD (5 * k + i) 0
    let (y, s1) := reduce shift (cf 0 * x + cf 1 * st.x1 + cf 2 * st.x2 - cf 3 * st.y1 - cf 4 * st.y2)
    let bq := Tbl.put {} bq (8 * k + ch) { x1 := x, x2 := st.x1, y1 := y, y2 := st.y1 }
    biquadRun shift coef ch n (k + 1) bq y (sat || s1)

/-- The input of a stage at one chain input: values and saturation per channel. -/
abbrev StageIO := List Int × List Bool

/-- A stage takes one input and answers its new state and, for a kept input, its output (R160 to R162, R166). -/
def stageRun (g : StageCfg) (st : StageSt) (chtype mb : Nat) (cmdFrz : Bool) (inp : InMeta) (x : StageIO) :
    StageSt × Option StageIO :=
  let (xs, sats) := x
  let keep := decide (inp.smp / mb % g.m = g.phase)
  let n := xs.length
  let chans := List.range n
  match g.ty with
  | .decim => (st, if keep then some x else none)
  | .fir =>
    let line := xs :: st.line
    let st' := { st with line := line.take (g.n - 1) }
    if keep then
      let ys := chans.map fun c => reduce g.shift (dot (g.coef chtype c) (line.map fun v => v.getD c 0))
      (st', some (ys.map (·.1), (ys.zip sats).map fun e => e.1.2 || e.2))
    else (st', none)
  | .biquad =>
    let step (a : Tbl Biquad × List Int × List Bool) (c : Nat) : Tbl Biquad × List Int × List Bool :=
      let (bq, y, sat) := biquadRun g.shift (g.coef chtype c) c g.n 0 a.1 (xs.getD c 0) false
      (bq, a.2.1 ++ [y], a.2.2 ++ [sat || sats.getD c false])
    let (bq, ys, ss) := chans.foldl step (st.bq, [], [])
    ({ st with bq := bq }, some (ys, ss))
  | .dcb =>
    let loud := (chans.any fun c => bit g.mask c && decide (g.frzLvl < (xs.getD c 0).natAbs)) && decide (g.frzLvl ≠ 0)
    let quiet := if inp.subst then st.quiet else if loud then 0 else st.quiet + 1
    let active := st.auto_ || loud && !inp.subst
    let frozen := active || cmdFrz
    let auto_ := active && decide (quiet < g.frzHold * 16)
    let bad (c : Nat) : Bool :=
      let q := inp.cq.getD c 0
      inp.subst || decide (q % 4 = 1 ∨ q % 4 = 2) || bit q 14
    let d := chans.map fun c =>
      let x := xs.getD c 0
      let d := st.d.getD c 0
      if !bit g.mask c then 0
      else if st.fresh then x * 65536
      else if frozen || bad c then d
      else d + (x * 65536 - d) / 2 ^ g.k
    let ys := chans.map fun c => sat32 (xs.getD c 0 - (d.getD c 0 + 0x8000) / 65536)
    ({ st with d := d, fresh := false, auto_ := auto_, quiet := quiet, froze := frozen },
     some (ys.map (·.1), (ys.zip sats).map fun e => e.1.2 || e.2))

/-- Runs the stages in order on one input; each output is kept beside its stage. -/
def stagesRun (chtype : Nat) (cmdFrz : Bool) (inp : InMeta) (g : List StageCfg) (raw : StageIO) :
    List StageCfg → List StageSt → Nat → List (Option StageIO) → List StageSt × List (Option StageIO)
  | c :: cs, sts, k, outs =>
    let st := sts.headD {}
    let x := match c.src with | none => some raw | some j => outs.getD j none
    let (st', y) := match x with
      | some x => stageRun c st chtype (mbOf g k) cmdFrz inp x
      | none => (st, none)
    let (rest, outs) := stagesRun chtype cmdFrz inp g raw cs sts.tail (k + 1) (outs ++ [y])
    (st' :: rest, outs)
  | [], _, _, outs => ([], outs)

/-- OQ of channel c over a window (R165, Table 07-5). -/
def outQuality (win : List InMeta) (c : Nat) (sat : Bool) : Nat :=
  let q (m : InMeta) := m.cq.getD c 0
  let inv := win.any fun m => m.subst || decide (q m % 4 = 1 ∨ q m % 4 = 2) || bit (q m) 14
  let quest := win.any fun m => decide (q m % 4 = 3)
  (if inv then 1 else if quest then 3 else 0) + flagW (win.any fun m => bit (q m) 11) 2 +
    flagW (win.any fun m => bit (q m) 14) 3 + flagW sat 4 + flagW (win.any (·.subst)) 5

/-- Bits of OFLAGS (Table 07-6). -/
def outFlags (n tap : Nat) (win : List InMeta) (oq : List Nat) (inp : InMeta) (restart warm frozen : Bool) : Nat :=
  let anyLow (b : Nat) : Bool := win.any fun m => bit m.low b
  flagW (anyLow 0) 0 + flagW (anyLow 1) 1 + flagW (anyLow 2) 2 + flagW (oq.any fun q => bit q 4) 3 +
    flagW (oq.any fun q => decide (q % 4 = 1)) 4 + flagW (oq.any fun q => bit q 5) 5 + flagW frozen 8 +
    flagW warm 9 + flagW restart 10 + flagW inp.syncChg 11 + flagW (win.any (·.credit)) 12 + tap * 2 ^ 14 + n * 2 ^ 16

/-- Writes the output of a tap (R167, R168); it takes a credit of boundary 5, and the credit of an entry it overwrites
returns with it. -/
def State.writeOutput (s : State) (n : Nat) (sc : StreamCfg) (t : TopoCfg) (inp : InMeta) (outs : List (Option StageIO))
    (tap : Nat) : State :=
  match outs.getD (t.tapStage tap) none with
  | none => s
  | some (vals, sats) =>
    let c := s.chain n
    let mem := t.memory tap
    let win := c.hist.take mem
    let oq := (List.range vals.length).map fun i => outQuality win i (sats.getD i false)
    let frozen := (pathOf t.stages 8 (t.tapStage tap)).any fun e =>
      decide (e.2.ty = .dcb) && (c.stages.getD e.1 {}).froze
    let flags := outFlags n tap win oq inp (decide (tap ∉ c.begun)) (decide (c.taken < mem)) frozen
    let r : OutRec :=
      { vals := vals, oq := oq, stamp := stampAdd inp.stamp (-(periods256 sc.rate (t.delay tap) / 256 : Int)),
        stampSrc := inp.stampSrc, smp := inp.smp, flags := flags }
    let i := Tbl.get 0 c.widx tap
    let key := 64 * tap + i % t.ret
    let old := Tbl.get none c.outs key
    let ret := t.ret * t.factor tap * sec / rateHz sc.rate
    let c := { c with outs := Tbl.put none c.outs key (some { rec_ := r, expires := s.frc + ret, idx := i, wrote := s.frc }),
                      widx := Tbl.put 0 c.widx tap (i + 1),
                      begun := if tap ∈ c.begun then c.begun else c.begun ++ [tap] }
    let c := c.inc 0
    let c := if bit flags 3 then c.inc 3 else c
    let s := s.setChain n c
    let s := applyIf (bit flags 3) (·.setFlag .FLT_STAT 0) s
    match old with
    | some e => if e.credit then s else s.takeCredit Bnd.output n
    | none => s.takeCredit Bnd.output n

/-- The entries of a tap's ring that are there, oldest first. -/
def State.tapRing (s : State) (n tap : Nat) : List OutEntry :=
  let c := s.chain n
  let w := Tbl.get 0 c.widx tap
  match s.topo n with
  | none => []
  | some t => ((List.range (min t.ret w)).map fun i => w - min t.ret w + i).filterMap fun i =>
    match Tbl.get none c.outs (64 * tap + i % t.ret) with
    | some e => if e.idx = i then some e else none
    | none => none

/-- A restart (R164): delay lines clear, estimates are marked, every tap starts anew. An automatic freeze ends, since what the
outputs hold depends only on inputs since the restart (R169); the commanded freeze stays. -/
def State.fltRestart (s : State) (n : Nat) (t : TopoCfg) : State :=
  let c := s.chain n
  ((s.setChain n ({ c with last := none, held := none, stages := t.stages.map fun _ => {}, taken := 0, begun := [], hist := [] }.inc 2)).setFlag
    .FLT_STAT 2).fire 12 n

/-- A pending freeze command applies at this input (R162). -/
def FltChain.applyFreeze (c : FltChain) (smp : Nat) : FltChain :=
  match c.pend with
  | some p =>
    let now := match p.at_ with | none => true | some a => decide (a = smp)
    if now then { c with cmdFrz := !p.release, pend := none } else c
  | none => c

/-- Whether each stage is frozen. -/
def FltChain.frozen (c : FltChain) (t : TopoCfg) : List Bool :=
  (t.stages.zip c.stages).map fun e => decide (e.1.ty = .dcb) && (c.cmdFrz || e.2.auto_)

/-- One input of the chain: values and what it contributes to flags. -/
def State.fltInput (s : State) (n : Nat) (sc : StreamCfg) (t : TopoCfg) (vals : List Int) (inp : InMeta) : State :=
  let c0 := s.chain n
  let c := c0.applyFreeze inp.smp
  let was := c0.frozen t
  let autos := c.stages.map (·.auto_)
  let (sts, outs) := stagesRun sc.chtype c.cmdFrz inp t.stages (vals, vals.map fun _ => false) t.stages c.stages 0 []
  let begun := ((autos.zip sts).filter fun e => !e.1 && e.2.auto_).length
  let c := { c with stages := sts, last := some inp.smp, taken := c.taken + 1,
                    held := if inp.subst then c.held else some vals, hist := (inp :: c.hist).take t.longest,
                    cnt := Tbl.upd 0 c.cnt 5 fun v => satAdd 32 v begun }
  let c := if inp.subst then c.inc 1 else c
  let s := s.setChain n c
  let s := applyIf inp.subst (·.setFlag .FLT_STAT 1) s
  let s := applyIf (decide (was ≠ c.frozen t)) (·.setFlag .FLT_STAT 4) s
  (List.range t.taps.length).foldl (fun s k => s.writeOutput n sc t inp outs k) s

/-- Values of a substituted input (R163). -/
def FltChain.substVals (c : FltChain) (sc : StreamCfg) (t : TopoCfg) : List Int :=
  match t.hold, c.held with
  | true, some v => v
  | _, _ => List.replicate sc.nch 0

/-- Takes the front descriptor itself as an input; its credit at boundary 4 returns. -/
def State.fltTake (s : State) (n : Nat) (sc : StreamCfg) (t : TopoCfg) (d : SampleDesc) : State :=
  let s := { s with svx := { s.svx with descs := Tbl.upd [] s.svx.descs n List.tail } }.giveCredit Bnd.filter n
  let gap := bit d.flags Sf.missing || bit d.flags Sf.creditGap
  match Tbl.get none (s.stream n).ring d.pos with
  | none => s
  | some r =>
    let c := s.chain n
    let vals := if gap then c.substVals sc t else r.vals
    (s.setChain n { c with lastStamp := r.stamp, inserted := 0 }).fltInput n sc t vals
      { smp := d.smp, stamp := r.stamp, stampSrc := r.stampSrc, cq := r.cq, subst := gap,
        credit := bit d.flags Sf.creditGap, low := if gap then 0 else d.flags % 8,
        syncChg := bit d.flags Sf.syncChg }

/-- One record of a step: the front descriptor, or one substituted input inserted before it (R163), the jth of its gap with
the stamp that R146 gives gap record j. -/
def State.fltOne (s : State) (n : Nat) (sc : StreamCfg) (t : TopoCfg) : State :=
  match Tbl.get [] s.svx.descs n with
  | [] => s
  | d :: _ =>
    let c := s.chain n
    match c.last with
    | none => (s.fltRestart n t).fltTake n sc t d
    | some l =>
      let w := sc.wrap
      let gap := modDiff d.smp (l + 1) w
      if bit d.flags Sf.resync then (s.fltRestart n t).fltTake n sc t d
      else if gap = 0 then s.fltTake n sc t d
      else if gap ≤ 63 then
        let j := c.inserted + 1
        (s.setChain n { c with inserted := j }).fltInput n sc t (c.substVals sc t)
          { smp := (l + 1) % w, stamp := stampMod (c.lastStamp + periods256 sc.rate j), stampSrc := 3,
            cq := List.replicate sc.nch 1, subst := true, credit := true }
      else (s.fltRestart n t).fltTake n sc t d

/-- The entries that a step of stream n works under: those in force, or the last ones of a removed stream (R154). -/
def State.stepCfg (s : State) (n : Nat) : Option (StreamCfg × TopoCfg) :=
  match s.streamCfg n, s.topo n with
  | some c, some t => some (c, t)
  | _, _ => Tbl.get none s.flt.gone n

/-- The region of a removed stream returns to the free pool once its descriptors are served and the retention of its last
output has passed; its counters stay (R154, R174). -/
def State.regionFree (s : State) (n : Nat) : State :=
  let c := s.chain n
  if (Tbl.get none s.flt.gone n).isSome && (Tbl.get [] s.svx.descs n).isEmpty && c.outs.all fun (e : Nat × Option OutEntry) =>
      match e.2 with | some x => !x.credit | none => true then
    let s := (s.setStream n { st := .disabled, cnt := (s.stream n).cnt }).setChain n { cnt := c.cnt }
    { s with flt := { s.flt with gone := Tbl.del s.flt.gone n } }
  else s

/-- A step of a stream's engine share: up to GAPMAX + ASDUS records; what is left counts as a late step (R171). -/
def execFilterStep (n : Nat) (s : State) :=
  match s.stepCfg n with
  | some (sc, t) =>
    let s := iterUpto (sc.gapMax + sc.asdus) (fun _ (s : State) => s.fltOne n sc t) s
    if (Tbl.get [] s.svx.descs n).isEmpty then done (s.regionFree n)
    else done ((s.setChain n ((s.chain n).inc 4)).setFlag .FLT_STAT 3)
  | none => done s

/-- A freeze command for the selected stream (R162); an AT not below W is ignored. -/
def State.frzCmd (s : State) (release now : Bool) (at_ : Nat) : State :=
  let n := s.fld .FLT_SSEL 11 0
  match s.streamCfg n with
  | some sc =>
    if now then s.setChain n { s.chain n with pend := some { release := release, at_ := none } }
    else if at_ < sc.wrap then s.setChain n { s.chain n with pend := some { release := release, at_ := some at_ } }
    else s
  | none => s

def execDcFreeze (now : Bool) (at_ : Nat) (s : State) := done (s.frzCmd false now at_)
def execDcRelease (now : Bool) (at_ : Nat) (s : State) := done (s.frzCmd true now at_)
def execDcCancel (s : State) :=
  let n := s.fld .FLT_SSEL 11 0
  done (s.setChain n { s.chain n with pend := none })

def execFltClearSel (s : State) :=
  let n := s.fld .FLT_SSEL 11 0
  let put (x : FltChain) (c : Tbl Nat) : FltChain := { x with cnt := c }
  done { s with flt := { s.flt with chains := Tbl.recountAt {} s.flt.chains s.now.chains n FltChain.cnt put },
                now := { s.now with chains := Tbl.recountAt {} s.now.chains s.now.chains n FltChain.cnt put } }

def execFltClearAll (s : State) :=
  let put (x : FltChain) (c : Tbl Nat) : FltChain := { x with cnt := c }
  done { s with flt := { s.flt with chains := Tbl.recount {} s.flt.chains s.now.chains FltChain.cnt put },
                now := { s.now with chains := Tbl.recount {} s.now.chains s.now.chains FltChain.cnt put } }

/-- The retention time of an output entry passes: its credit returns (R22). -/
def execOutputCreditExpiry (n tap : Nat) (s : State) :=
  let c := s.chain n
  let due := (List.range 64).find? fun i => match Tbl.get none c.outs (64 * tap + i) with
    | some e => e.credit && decide (e.expires ≤ s.frc)
    | none => false
  match due with
  | none => done s
  | some i =>
    let key := 64 * tap + i
    let c := { c with outs := Tbl.upd none c.outs key fun x => x.map fun (y : OutEntry) => { y with credit := false } }
    done (((s.setChain n c).giveCredit Bnd.output n).regionFree n)

end Sys2Proof.Machine
end

