-- ==== Sys2Proof/Machine/Switch.lean ====
section
/-! DEFINITION. Redundancy nodes, classification and the cell fabric (R109 to R133). -/
namespace Sys2Proof.Machine

def State.setPrt (s : State) (n : Nat) (p : Port) : State := { s with ports := Tbl.put {} s.ports n p }

/-- Roles of Table 04-2. -/
def Role.off : Nat := 0
def Role.pbA : Nat := 1
def Role.pbB : Nat := 2
def Role.stA : Nat := 3
def Role.stB : Nat := 4
def Role.spare : Nat := 5
def Role.partner : Nat := 6

def State.role (s : State) (n : Nat) : Nat := s.fld .MAC_CFG 2 0 n

/-- MAX of a port in bytes. -/
def State.maxFrame (s : State) (n : Nat) : Nat :=
  match s.fld .MAC_CFG 9 8 n with
  | 0 => 1522
  | 1 => 2000
  | _ => 9216

/-- Adds n to counter k of a port (Table 04-7). -/
def State.mac (s : State) (port k n : Nat) : State := s.addRg64 .MAC_CNT n port k

/-- Adds 1 to counter k of a node (Table 05-4). -/
def State.prpCnt (s : State) (node k : Nat) : State := s.addRg64 .PRP_CNT 1 node k

/-- The node of a role: PB 0, ST 1, or none (Table 05-1). -/
def nodeOf (role : Nat) : Option Nat :=
  if role = Role.pbA ∨ role = Role.pbB then some 0 else if role = Role.stA ∨ role = Role.stB then some 1 else none

/-- LAN of a role: A 0, B 1. -/
def lanOf (role : Nat) : Nat := if role = Role.pbB ∨ role = Role.stB then 1 else 0

/-- ST_MODE: HSR on the ST node. -/
def State.hsr (s : State) : Bool := s.flag .PRP_NODECFG 0

def State.portsOf (s : State) (p : Nat → Bool) : List Nat := (List.range 8).filter fun n => p (s.role n)

/-- The twin of a node port: the k-th port of LAN A twins the k-th port of LAN B (R110). -/
def State.twin (s : State) (n : Nat) : Option Nat :=
  let r := s.role n
  let other := if r = Role.pbA then Role.pbB else if r = Role.pbB then Role.pbA else if r = Role.stA then Role.stB
    else if r = Role.stB then Role.stA else 99
  (s.portsOf fun x => decide (x = other))[(s.portsOf fun x => decide (x = r)).idxOf n]?

/-! Duplicate discard -/

/-- The current 25 ms tick (R114). -/
def State.discardTick (s : State) : Nat := s.frc / 25000000

/-- Marks that are live at a tick: not older than 16 ticks (R114). -/
def SeqWindow.live (w : SeqWindow) (tick : Nat) : SeqWindow :=
  { w with marks := w.marks.filter fun e => decide (tick ≤ e.2 + 16) }

/-- What the window says of a number (R113). -/
inductive SeqVerdict where
  | fresh | dup | outOfWindow
deriving DecidableEq, Repr

/-- Decides on sequence number n and marks it (R113). -/
def SeqWindow.decideSeq (w : SeqWindow) (n tick : Nat) : SeqWindow × SeqVerdict :=
  let w := w.live tick
  let ahead := (n + 65536 - w.top) % 65536
  let back := (w.top + 65536 - n) % 65536
  if ahead ≠ 0 ∧ ahead < 0x8000 then
    let keep := w.marks.filter fun e => decide ((n + 65536 - e.1) % 65536 < 512)
    ({ top := n, marks := (n, tick) :: keep }, .fresh)
  else if back < 512 then
    if w.marks.any fun e => decide (e.1 = n) then (w, .dup)
    else ({ w with marks := (n, tick) :: w.marks }, .fresh)
  else ({ top := n, marks := [(n, tick)] }, .outOfWindow)

/-- A window has a position that is live at a tick. -/
def winLive (w : Option SeqWindow) (tick : Nat) : Bool :=
  match w with
  | some w => !(w.live tick).marks.isEmpty
  | none => false

/-- A source entry is released once all its positions are forgotten (R114). -/
def SourceEntry.live (e : SourceEntry) (tick : Nat) : Bool :=
  winLive e.win tick || winLive e.relay0 tick || winLive e.relay1 tick

/-- A window that holds its first number alone (R113). -/
def SeqWindow.first (seq tick : Nat) : SeqWindow := { top := seq, marks := [(seq, tick)] }

/-- What a window that may not be there yet says of a number, and the window with it (R113). -/
def decideWin (w : Option SeqWindow) (seq tick : Nat) : SeqWindow × SeqVerdict :=
  match w with
  | some w => w.decideSeq seq tick
  | none => (SeqWindow.first seq tick, .fresh)

/-- The live source entries of a node. -/
def State.sources (s : State) (node : Nat) : List SourceEntry :=
  (if node = 0 then s.prp.pb else s.prp.st).filter fun e => e.live s.discardTick

def State.setSources (s : State) (node : Nat) (l : List SourceEntry) : State :=
  if node = 0 then { s with prp := { s.prp with pb := l } } else { s with prp := { s.prp with st := l } }

/-- Source entries a node can hold (R113). -/
def srcCap (node : Nat) : Nat := if node = 0 then 8192 else 2048

def srcUpd (l : List SourceEntry) (sa : Nat) (f : SourceEntry → SourceEntry) : List SourceEntry :=
  l.map fun e => if e.sa = sa then f e else e

/-- Duplicate discard of one frame (R113): true when it is a local duplicate. -/
def State.discard (s : State) (node lan sa seq : Nat) : State × Bool :=
  let l := s.sources node
  let tick := s.discardTick
  match l.find? fun e => decide (e.sa = sa) with
  | none =>
    if srcCap node ≤ l.length then
      ((((s.setSources node l).prpCnt node 9).prpCnt node lan).setFlag .PRP_STAT 0 |>.fire 8 node, false)
    else
      ((s.setSources node (l ++ [{ sa := sa, win := some (SeqWindow.first seq tick) }])).prpCnt node lan, false)
  | some e =>
    let (w, v) := decideWin e.win seq tick
    let s := s.setSources node (srcUpd l sa fun e => { e with win := some w })
    match v with
    | .fresh => (s.prpCnt node lan, false)
    | .dup => (s.prpCnt node (2 + lan), true)
    | .outOfWindow => ((s.prpCnt node 8).prpCnt node lan, false)

/-- The relay window of a source entry in one direction (R118). -/
def SourceEntry.relay (e : SourceEntry) (dir : Nat) : Option SeqWindow := if dir = 0 then e.relay0 else e.relay1

/-- A frame of a source was already relayed in one direction (R118, step 4). -/
def State.relayed (s : State) (dir sa seq : Nat) : Bool :=
  match (s.sources 1).find? fun e => decide (e.sa = sa) with
  | some e => decide ((decideWin (e.relay dir) seq s.discardTick).2 = .dup)
  | none => false

/-- A frame is relayed in one direction: its window marks it and RELAY counts it (R118, step 4). A source that finds no free
entry is relayed without a mark. -/
def State.relayMark (s : State) (dir sa seq : Nat) : State :=
  let l := s.sources 1
  let tick := s.discardTick
  let put (e : SourceEntry) : SourceEntry :=
    let w := (decideWin (e.relay dir) seq tick).1
    if dir = 0 then { e with relay0 := some w } else { e with relay1 := some w }
  let s := s.prpCnt 1 11
  if l.any fun e => decide (e.sa = sa) then s.setSources 1 (srcUpd l sa put)
  else if srcCap 1 ≤ l.length then s
  else s.setSources 1 (l ++ [put { sa := sa }])

/-- Takes a token of a bucket (R117). -/
def Bucket.take (b : Bucket) (frc period : Nat) : Bucket × Bool :=
  let gained := (frc - b.at_) / period
  let t := min 256 (b.tokens + gained)
  let at_ := if 256 ≤ b.tokens + gained then frc else b.at_ + gained * period
  if t = 0 then ({ tokens := 0, at_ := at_ }, false) else ({ tokens := t - 1, at_ := at_ }, true)

/-- Each admitted frame of a node port takes one token of its bucket (R117). -/
def State.takeToken (s : State) (node lan : Nat) : State × Bool :=
  let frc := s.frc
  if node = 1 then
    let (b, ok) := s.prp.bucketSt.take frc 100
    ({ s with prp := { s.prp with bucketSt := b } }, ok)
  else if lan = 0 then
    let (b, ok) := s.prp.bucketA.take frc 50
    ({ s with prp := { s.prp with bucketA := b } }, ok)
  else
    let (b, ok) := s.prp.bucketB.take frc 50
    ({ s with prp := { s.prp with bucketB := b } }, ok)

/-! Classification -/

/-- VID of a frame at input n (R121). -/
def State.vidOf (s : State) (n : Nat) (f : Frame) : Nat :=
  let pvid := s.fld .SWC_PCFG 27 16 n
  let pvid := if 1 ≤ pvid ∧ pvid ≤ 4094 then pvid else 1
  match f.vlan with
  | some v => if v.vid = 0 then pvid else v.vid
  | none => pvid

/-- Priority of a frame at input n (R121). -/
def State.priOf (s : State) (n : Nat) (f : Frame) : Nat :=
  match f.vlan with
  | some v => v.pcp
  | none => s.fld .SWC_PCFG 30 28 n

/-- Class of a frame of a port or host virtual port: class 7 becomes 6 (R121). -/
def State.classOf (s : State) (n pri : Nat) : Nat := min 6 (s.fld .SWC_PCPMAP (3 * pri + 2) (3 * pri) n)

/-- Destinations: ports, hosts, supervisor. -/
structure Dest where
  ports : List Nat := []
  hosts : List Nat := []
  sup : Bool := false
deriving DecidableEq, Repr

def maskList (m n : Nat) : List Nat := (List.range n).filter fun i => bit m i

/-- The forwarding action of a VID and destination, if an enabled entry matches (R121). -/
def State.fdbFind (s : State) (vid da : Nat) : Option Nat :=
  (s.sw.fdb.find? fun e => bit e.2.key 63 && decide (bits e.2.key 59 48 = vid ∧ bits e.2.key 47 0 = da)).map (·.2.act)

/-- A group address has bit 40 set (R97). -/
def isGroup (da : Nat) : Bool := bit da 40

/-- The destinations of a frame at input n: the forwarding table, else the default action of inputs 0 to 11; inputs 12
to 14 have none (R121). -/
def State.lookup (s : State) (n vid da : Nat) : Dest :=
  match s.fdbFind vid da with
  | some a => { ports := maskList (bits a 7 0) 8, hosts := maskList (bits a 11 8) 4, sup := bit a 13 }
  | none =>
    if 12 ≤ n then {}
    else
      let d := s.rg .SWC_DEFACT n
      if isGroup da then { ports := maskList (bits d 23 16) 8, hosts := maskList (bits d 27 24) 4, sup := bit d 29 }
      else { ports := maskList (bits d 7 0) 8, hosts := maskList (bits d 11 8) 4, sup := bit d 13 }

/-- Adds 1 to a 16-bit half of SWC_ICNT(i,c): 0 BUF_DROP, 1 NO_DEST. -/
def State.icnt (s : State) (i c half : Nat) : State :=
  let lo := 16 * half
  s.setFld .SWC_ICNT (lo + 15) lo (satInc 16 (s.fld .SWC_ICNT (lo + 15) lo i c)) i c

/-- Removes ports that are DOWN, counting each (R122, step 5). -/
def State.pruneDown (s : State) (cls : Nat) (ports : List Nat) : State × List Nat :=
  let down := ports.filter fun n => !(s.prt n).up
  (down.foldl (fun s n => s.addRg64 .SWC_PCNT 1 n (8 + cls)) s, ports.filter fun n => (s.prt n).up)

/-- Keeps the hosts that have a credit at boundary 3 and takes it; the others are ingress drops (R126). -/
def State.pruneHosts (cls : Nat) : List Nat → State → State × List Nat
  | [], s => (s, [])
  | h :: hs, s =>
    let o := h * 8 + cls
    if 0 < s.avail Bnd.host o then
      let (s, r) := State.pruneHosts cls hs (s.takeCredit Bnd.host o)
      (s, h :: r)
    else State.pruneHosts cls hs (s.ingestDrop Bnd.host o)

/-! Fabric -/

/-- Key of a virtual output queue. -/
def voqKey (i o c : Nat) : Nat := (16 * i + o) * 8 + c

/-- Cells that input i holds of class c (R131). -/
def State.cellsUsed (s : State) (i c : Nat) : Nat :=
  (s.sw.frames.filterMap fun e => match e.2 with
    | some f => if f.input = i ∧ f.cls = c then some f.cells else none
    | none => none).foldl (· + ·) 0

/-- Enters a frame into the buffer and its queues. -/
def State.enterCells (s : State) (f : SwFrame) : State :=
  let id := s.sw.nextId
  let voq := f.outs.foldl (fun q o => Tbl.upd [] q (voqKey f.input o f.cls) (· ++ [id])) s.sw.voq
  { s with sw := { s.sw with frames := Tbl.put none s.sw.frames id (some f), nextId := id + 1, voq := voq } }

/-- A frame whose cells fit reaches its queues; where a port went DOWN after its classification it is freed there and
counted in FLUSH (R133). -/
def State.admitCells (s : State) (f : SwFrame) : State :=
  if f.lost.isEmpty then s.enterCells f
  else
    let s := (f.outs.filter fun o => decide (o ∈ f.lost)).foldl (fun s o => s.addRg64 .SWC_PCNT 1 o f.cls) s
    let outs := f.outs.filter fun o => decide (o ∉ f.lost)
    if outs.isEmpty then s else s.enterCells { f with outs := outs, lost := [] }

/-- A frame of input i and class c finds room for its cells (R131). -/
def State.cellsFit (s : State) (i c cells : Nat) : Bool :=
  decide (s.cellsUsed i c + cells ≤ s.fld .SWC_INBUF 17 0 i c) && (Tbl.get [] s.sw.inWait (i * 8 + c)).isEmpty

/-- A frame reaches the buffer (R131): from a port it is dropped where it does not fit; any other input waits. -/
def State.toFabric (s : State) (f : SwFrame) : State :=
  if s.cellsFit f.input f.cls f.cells then s.admitCells f
  else if f.input < 8 then
    let s := (f.outs.filter fun o => decide (8 ≤ o ∧ o ≤ 11)).foldl
      (fun s o => s.giveCredit Bnd.host ((o - 8) * 8 + f.cls)) s
    s.icnt f.input f.cls 0
  else { s with sw := { s.sw with inWait := Tbl.upd [] s.sw.inWait (f.input * 8 + f.cls) (· ++ [f]) } }

/-- Producers that wait enter while their frames fit, in order; the fuel is the number of frames that wait. -/
def State.admitWaiting (key : Nat) : Nat → State → State
  | 0, s => s
  | fuel + 1, s =>
    match Tbl.get [] s.sw.inWait key with
    | [] => s
    | f :: rest =>
      if s.cellsUsed f.input f.cls + f.cells ≤ s.fld .SWC_INBUF 17 0 f.input f.cls then
        State.admitWaiting key fuel
          ({ s with sw := { s.sw with inWait := Tbl.put [] s.sw.inWait key rest } }.admitCells f)
      else s

/-- Output o is done with frame id; a frame without outputs leaves the buffer, and waiting producers may enter. -/
def State.outDone (s : State) (id o : Nat) : State :=
  match Tbl.get none s.sw.frames id with
  | none => s
  | some f =>
    let outs := f.outs.filter fun x => decide (x ≠ o)
    if outs.isEmpty then
      let s := { s with sw := { s.sw with frames := Tbl.del s.sw.frames id } }
      let key := f.input * 8 + f.cls
      State.admitWaiting key (Tbl.get [] s.sw.inWait key).length s
    else { s with sw := { s.sw with frames := Tbl.put none s.sw.frames id (some { f with outs := outs }) } }

/-- The highest class for which input i has a queued frame for output o. -/
def State.request (s : State) (i o : Nat) : Option Nat :=
  ((List.range 8).reverse).find? fun c => !(Tbl.get [] s.sw.voq (voqKey i o c)).isEmpty

/-- Frames in the egress stage of a host link. -/
def State.hostStage (s : State) (link : Nat) : Nat :=
  ((List.range 8).map fun c => (Tbl.get [] s.sw.hostQ (link * 8 + c)).length).foldl (· + ·) 0

/-- An output grants only with a free waiting position: its egress stage holds one frame in transmission, to a host one in
delivery, and one that waits (R130). The supervisor takes a frame as soon as it has crossed. -/
def State.outFree (s : State) (o : Nat) : Bool :=
  if o < 8 then (s.prt o).waiting.isNone else if o ≤ 11 then decide (s.hostStage (o - 8) < 2) else decide (o = 12)

/-- Round-robin: of candidates with values, one of the highest class; ties go to the first after `start` (R129). -/
def pickBest (start : Nat) (cands : List (Nat × Nat)) : Option (Nat × Nat) :=
  let best := (cands.map (·.2)).foldl max 0
  let top := cands.filter fun e => decide (e.2 = best)
  let order := (List.range 16).map fun k => (start + 1 + k) % 16
  order.findSome? fun i => top.find? fun e => decide (e.1 = i)

/-- One request-grant-accept iteration; pointers move in the first iteration only (R129). -/
def State.rga (s : State) (first : Bool) : State :=
  let ins := (List.range 16).filter fun i => s.sw.matched.all fun m => decide (m.input ≠ i)
  let outs := (List.range 16).filter fun o => (s.sw.matched.all fun m => decide (m.output ≠ o)) && s.outFree o
  let grants : List (Nat × Nat × Nat) := outs.filterMap fun o =>
    let cands := ins.filterMap fun i => (s.request i o).map fun c => (i, c)
    (pickBest (Tbl.get 15 s.sw.grantPtr o) cands).map fun e => (o, e.1, e.2)
  let accepts : List (Nat × Nat × Nat) := ins.filterMap fun i =>
    let cands := grants.filterMap fun g => if g.2.1 = i then some (g.1, g.2.2) else none
    (pickBest (Tbl.get 15 s.sw.acceptPtr i) cands).map fun e => (i, e.1, e.2)
  accepts.foldl (fun s a =>
    let (i, o, c) := a
    let key := voqKey i o c
    match Tbl.get [] s.sw.voq key with
    | [] => s
    | id :: rest =>
      { s with sw := { s.sw with
        voq := Tbl.put [] s.sw.voq key rest,
        matched := s.sw.matched ++ [{ input := i, output := o, cls := c, id := id, crossed := 0 }],
        grantPtr := if first then Tbl.put 15 s.sw.grantPtr o i else s.sw.grantPtr,
        acceptPtr := if first then Tbl.put 15 s.sw.acceptPtr i o else s.sw.acceptPtr } }) s

/-- A whole frame has crossed to output o: waiting position, host virtual port or supervisor (Table 05-2). -/
def State.crossed (s : State) (m : Match) : State :=
  match Tbl.get none s.sw.frames m.id with
  | none => s
  | some f =>
    let s := s.outDone m.id m.output
    if m.output < 8 then s.setPrt m.output { s.prt m.output with waiting := some f }
    else if m.output ≤ 11 then
      { s with sw := { s.sw with hostQ := Tbl.upd [] s.sw.hostQ ((m.output - 8) * 8 + f.cls) (· ++ [f]) } }
    else s.emit (.supervisor f.frame f.ingress)

/-- One cell time (R129): three iterations, then one cell of each match. -/
def execCellTime (s : State) :=
  let s := ((s.rga true).rga false).rga false
  let cells (m : Match) : Nat := match Tbl.get none s.sw.frames m.id with | some f => f.cells | none => 0
  let moved := s.sw.matched.map fun m => { m with crossed := m.crossed + 1 }
  let ended := moved.filter fun m => decide (cells m ≤ m.crossed)
  let s := { s with sw := { s.sw with matched := moved.filter fun m => decide (m.crossed < cells m) } }
  done (ended.foldl State.crossed s)

/-- Frames for port o are freed and counted in FLUSH when it goes DOWN (R133). -/
def State.flushPort (s : State) (o : Nat) : State :=
  let lose (e : Nat × List SwFrame) : Nat × List SwFrame :=
    (e.1, e.2.map fun f => if o ∈ f.outs then { f with lost := o :: f.lost } else f)
  let s : State := { s with sw := { s.sw with inWait := s.sw.inWait.map lose } }
  let keys := (List.range 16).flatMap fun i => (List.range 8).map fun c => (i, c)
  let s := keys.foldl (fun s (k : Nat × Nat) =>
    let key := voqKey k.1 o k.2
    let ids := Tbl.get [] s.sw.voq key
    let s := { s with sw := { s.sw with voq := Tbl.put [] s.sw.voq key [] } }
    ids.foldl (fun s id => (s.addRg64 .SWC_PCNT 1 o k.2).outDone id o) s) s
  let mid := s.sw.matched.filter fun m => decide (m.output = o)
  let s := { s with sw := { s.sw with matched := s.sw.matched.filter fun m => decide (m.output ≠ o) } }
  let s := mid.foldl (fun s m => (s.addRg64 .SWC_PCNT 1 o m.cls).outDone m.id o) s
  match (s.prt o).waiting with
  | some f => (s.setPrt o { s.prt o with waiting := none }).addRg64 .SWC_PCNT 1 o f.cls
  | none => s

/-- Cells of a frame of a length. -/
def cellsOf (len : Nat) : Nat := (len + 63) / 64

/-- A PTP event message (Table 03-3). -/
def PtpType.event (t : PtpType) : Bool := decide (t = .sync ∨ t = .delayReq ∨ t = .pdelayReq ∨ t = .pdelayResp)

/-- The frame carries a PTP event message. -/
def Frame.ptpEvent (f : Frame) : Bool := match f.payload with | .ptp m => m.type.event | _ => false

/-- The settings of SWC_PCFG that a frame classified now leaves under (R123). -/
def State.pcfgNow (s : State) : List Nat := (List.range 12).map fun n => s.rg .SWC_PCFG n

/-- A frame received on a port, classified and offered to its destinations (R121 to R123). A partner frame to the enabled
PAR_BADDR on the station node goes to the pairing block, whatever the forwarding table says (R228). `relay` gives the tag
number of a frame that HSR relays, `localDup` tells that it reaches no local consumer, `relayOnly` that the address filter
did not admit it. RELAY counts a frame that goes on to the other station port (R118). -/
def State.classifyPort (s : State) (rx : RxFrame) (relay : Option Nat) (localDup relayOnly : Bool) : State :=
  let n := rx.port
  let role := s.role n
  let vid := s.vidOf n rx.frame
  let pri := s.priOf n rx.frame
  let cls := s.classOf n pri
  let dst := s.lookup n vid rx.frame.da
  let st := decide (role = Role.stA ∨ role = Role.stB)
  let ring := s.portsOf fun r => decide (r = Role.stA ∨ r = Role.stB)
  let quiet := localDup || relayOnly
  let badr := s.rg .PAR_BADDR
  let beacon := st && !quiet && !rx.oversize && bit badr 63 &&
    decide (rx.frame.etherType = 0x88B5 ∧ rx.frame.da = bits badr 47 0)
  let dst := if beacon then {} else dst
  let same := dst.ports.filter fun o => decide (o ≠ n ∧ s.role o = role)
  let ports := if relayOnly then [] else same
  let ports := if s.hsr && st && relay.isSome then ports ++ ring.filter fun o => decide (o ≠ n) else ports
  let ports := if rx.oversize then [] else ports
  let hosts := if rx.frame.ptpEvent || quiet then [] else dst.hosts
  let sup := dst.sup && !quiet && !rx.oversize
  let lcl := decide (1 ≤ role ∧ role ≤ 5) && !rx.oversize && !quiet
  let sv := lcl && decide (rx.frame.etherType = 0x88BA)
  let goose := lcl && decide (rx.frame.etherType = 0x88B8)
  let (s, ports) := s.pruneDown cls ports
  if rx.oversize && hosts.isEmpty then s.mac n 8 1
  else if ports.isEmpty && hosts.isEmpty && !sup && !sv && !goose && !beacon then
    s.icnt n cls 1
  else
    let (s, hosts) := State.pruneHosts cls hosts s
    let outs := ports ++ hosts.map (· + 8) ++ (if sup then [12] else [])
    let len := if rx.oversize then min rx.frame.len (s.maxFrame n) else rx.frame.len
    let s := match relay with
      | some seq =>
        if ports.any (fun o => decide (o ∈ ring)) && s.cellsFit n cls (cellsOf len) then
          s.relayMark (lanOf role) rx.frame.sa seq
        else s
      | none => s
    let s := if outs.isEmpty then s else s.toFabric
      { frame := rx.frame, origin := .port, input := n, cls := cls, vid := vid, pri := pri, cells := cellsOf len,
        outs := outs, ingress := rx.stamp, inPort := n, oversize := rx.oversize, rxLen := rx.frame.len,
        pcfg := s.pcfgNow, lanB := rx.lanB }
    let s := if beacon then { s with par := { s.par with rx := s.par.rx ++ [rx] } } else s
    let mark (s : State) (b : Nat) : RxFrame := { rx with loss := Tbl.get false s.crd.lossMark (crdKey b n) }
    let unmark (s : State) (b : Nat) : State :=
      { s with crd := { s.crd with lossMark := Tbl.del s.crd.lossMark (crdKey b n) } }
    let s :=
      if sv then
        if 0 < s.avail Bnd.sv n then
          let r := mark s Bnd.sv
          let s := (s.takeCredit Bnd.sv n)
          unmark { s with svx := { s.svx with queue := s.svx.queue ++ [r] } } Bnd.sv
        else s.ingestDrop Bnd.sv n
      else s
    if goose then
      if 0 < s.avail Bnd.goose n then
        let r := mark s Bnd.goose
        let s := (s.takeCredit Bnd.goose n)
        unmark { s with goose := { s.goose with queue := s.goose.queue ++ [r] } } Bnd.goose
      else s.ingestDrop Bnd.goose n
    else s

/-- Source addresses of the node's own frames (R118). -/
def State.ownAddrs (s : State) : List Nat :=
  let hsa := (List.range 4).flatMap fun h => (List.range 4).filterMap fun k =>
    let v := s.rg .SWC_HSA h k
    if bit v 63 then some (bits v 47 0) else none
  let pubs := s.goose.pubs.filterMap fun e => e.2.cfg.map (·.sa)
  hsa ++ pubs ++ s.prp.supSas

/-- A frame offered at boundary 0 takes a credit of its port, which CREDIT_RETURN gives back when the classifier has taken
the frame; without one it is an ingest drop (Table 01-4). -/
def State.offer0 (s : State) (rx : RxFrame) (relay : Option Nat) (localDup relayOnly : Bool) : State :=
  if 0 < s.avail Bnd.rx rx.port then (s.takeCredit Bnd.rx rx.port).classifyPort rx relay localDup relayOnly
  else s.ingestDrop Bnd.rx rx.port

/-- HSR handling of a station-port frame, in the order of R118 (R119, R134): own frames end, a frame without a valid tag is
delivered locally alone, any other is judged for local delivery and for the relay. `offer` is what takes the frame on. -/
def State.hsrHandle (s : State) (rx : RxFrame) (admitted : Bool)
    (offer : State → RxFrame → Option Nat → Bool → Bool → State) : State :=
  let own := s.ownAddrs
  let lan := lanOf (s.role rx.port)
  if rx.frame.sa ∈ own then s.prpCnt 1 10
  else
    match rx.frame.hsr with
    | some tag =>
      if tag.valid then
        let (s, dup) := if admitted && !rx.oversize then s.discard 1 lan rx.frame.sa tag.seq else (s, false)
        let mayRelay := decide (rx.frame.da ∉ own) && !rx.oversize
        let again := mayRelay && s.relayed lan rx.frame.sa tag.seq
        let s := applyIf again (·.prpCnt 1 12) s
        let relay := mayRelay && !again
        if (admitted && !dup) || relay then offer s rx (if relay then some tag.seq else none) dup (!admitted) else s
      else if admitted then offer (s.prpCnt 1 (6 + lan)) rx none false false else s
    | none => if admitted then offer (s.prpCnt 1 (6 + lan)) rx none false false else s

/-- An HSR frame offered at boundary 0. -/
def State.hsrReceive (s : State) (rx : RxFrame) (admitted : Bool) : State := s.hsrHandle rx admitted State.offer0

/-- The redundancy trailer of a frame, where it is valid (R112). -/
def Frame.trailer (f : Frame) : Option Rct :=
  match f.rct with
  | some t => if t.sizeOk && decide (t.lanId = 0xA ∨ t.lanId = 0xB) then some t else none
  | none => none

/-- Duplicate discard of a PRP node and the offer to the classifier (R112, R115, R117). A frame without a valid trailer
counts in NO_RCT; one that is OVERSIZE or PTP passes no duplicate discard. -/
def State.prpReceive (s : State) (rx : RxFrame) (node : Nat) : State :=
  let role := s.role rx.port
  let lan := lanOf role
  match rx.frame.trailer with
  | none => (s.prpCnt node (6 + lan)).offer0 rx none false false
  | some t =>
    if rx.oversize || decide (rx.frame.etherType = 0x88F7) then s.offer0 rx none false false
    else
      let s := if t.lanId ≠ 0xA + lan then s.prpCnt node (4 + lan) else s
      let (s, dup) := s.discard node lan rx.frame.sa t.seq
      if dup then
        let peers := (s.portsOf fun r => decide (r = role)).filter fun o => decide (o ≠ rx.port) && (s.prt o).up
        if peers.isEmpty then s else s.offer0 rx none true false
      else s.offer0 rx none false false

/-- An admitted frame of a port that belongs to no PARTNER: node, bucket, then classifier. -/
def State.nodeReceive (s : State) (rx : RxFrame) (admitted : Bool) : State :=
  let role := s.role rx.port
  match nodeOf role with
  | none => s.offer0 rx none false false
  | some node =>
    let (s, ok) := if admitted then s.takeToken node (lanOf role) else (s, true)
    if !ok then s.countDrop Bnd.rx rx.port
    else if node = 1 && s.hsr then s.hsrReceive rx admitted
    else s.prpReceive rx node

/-- The next redundancy sequence number of a counter (R120). -/
def State.nextSeq (s : State) (key : Nat) : State × Nat :=
  let v := Tbl.get 0 s.prp.seq key
  ({ s with prp := { s.prp with seq := Tbl.put 0 s.prp.seq key ((v + 1) % 65536) } }, v)

/-- A PAUSE or PFC frame: no port ever transmits one (R94). -/
def Frame.pauses (f : Frame) : Bool :=
  match f.payload with
  | .macControl op _ _ => decide (f.etherType = 0x8808 ∧ (op = 1 ∨ op = 0x0101))
  | _ => false

/-- A frame from within the module (inputs 8 to 14), with its destinations: twins join the egress set, DOWN ports
leave it, sequence numbers are taken once for each node (R120 to R122). `ingress` and `inPort` are those of the request
that a Pdelay_Resp answers (R73). -/
def State.originate (s : State) (input : Nat) (origin : Origin) (f : Frame) (cls : Nat) (dst : Dest) (twins : Bool)
    (seqOf : Nat → State → State × Nat) (ingress : Stamp := 0) (inPort : Nat := 0) : State :=
  let vid := s.vidOf input f
  let pri := s.priOf input f
  let more := if twins then dst.ports ++ dst.ports.filterMap s.twin else dst.ports
  let ports := (List.range 8).filter fun n =>
    decide (n ∈ more) && !f.pauses && (decide (s.role n ≠ Role.partner) || decide (origin = .pairing))
  let (s, up) := s.pruneDown cls ports
  if up.isEmpty && dst.hosts.isEmpty && !dst.sup then s.icnt input cls 1
  else
    let (s, hosts) := State.pruneHosts cls dst.hosts s
    let inNode (k : Nat) : Bool := twins && up.any fun n => decide (nodeOf (s.role n) = some k)
    let (s, pb) := if inNode 0 then let (s, v) := seqOf 0 s; (s, some v) else (s, none)
    let (s, st) := if inNode 1 then let (s, v) := seqOf 1 s; (s, some v) else (s, none)
    let outs := up ++ hosts.map (· + 8) ++ (if dst.sup then [12] else [])
    if outs.isEmpty then s
    else s.toFabric
      { frame := f, origin := origin, input := input, cls := cls, vid := vid, pri := pri, cells := cellsOf f.len,
        outs := outs, seqPb := pb, seqSt := st, rxLen := f.len, ingress := ingress, inPort := inPort, pcfg := s.pcfgNow }

/-- At each 25 ms tick forgotten positions and empty source entries go (R114). -/
def execDiscardTick (s : State) :=
  let tick := s.discardTick
  let clean (e : SourceEntry) : SourceEntry :=
    { e with win := e.win.map (·.live tick), relay0 := e.relay0.map (·.live tick), relay1 := e.relay1.map (·.live tick) }
  done { s with prp := { s.prp with pb := (s.sources 0).map clean, st := (s.sources 1).map clean } }

/-- ST_MODE (R111): every write that is ignored, but for one of the value in force, sets MODE_REFUSED. -/
def execStModeWrite (v : Bool) (s : State) :=
  let st := s.portsOf fun r => decide (r = Role.stA ∨ r = Role.stB)
  let absent := decide ((s.portsOf fun r => decide (r = Role.stA)) = []) ||
    decide ((s.portsOf fun r => decide (r = Role.stB)) = [])
  if v = s.hsr then done s
  else if (st.any fun n => (s.prt n).up) || (v && absent) then done (s.setFlag .PRP_STAT 1)
  else done (s.setRg .PRP_NODECFG (b2n v))

/-- SWC_FDBCMD READ (R124). -/
def execFdbRead (s : State) :=
  let e := Tbl.get {} s.sw.fdb (s.fld .SWC_FDBSEL 11 0)
  done ((s.setRg .SWC_FDBKEY e.key).setRg .SWC_FDBACT e.act)

/-- SWC_FDBCMD WRITE (R124). -/
def execFdbWrite (s : State) :=
  let i := s.fld .SWC_FDBSEL 11 0
  let key := s.rg .SWC_FDBKEY
  let dup := bit key 63 && s.sw.fdb.any fun e => decide (e.1 ≠ i ∧ e.2.key = key)
  if dup then done (s.setFlag .SWC_STAT 0)
  else done { s with sw := { s.sw with fdb := Tbl.put {} s.sw.fdb i { key := key, act := s.rg .SWC_FDBACT } } }

/-- SWC_INBUF(i,c) (R131). The sum of the 128 budgets takes in those of input 15, which has no register and keeps its
defaults of 1,024 cells. -/
def execInbufWrite (i c v : Nat) (s : State) :=
  if 15 ≤ i ∨ 8 ≤ c then done s
  else
    let total := ((List.range 15).flatMap fun x => (List.range 8).map fun y =>
      if x = i ∧ y = c then v % 2 ^ 18 else s.fld .SWC_INBUF 17 0 x y).foldl (· + ·) (8 * 1024)
    if 131072 < total then done (s.setFlag .SWC_STAT 1)
    else
      let s := s.setRg .SWC_INBUF (v % 2 ^ 18) i c
      let key := i * 8 + c
      done (State.admitWaiting key (Tbl.get [] s.sw.inWait key).length s)

def execSwcIcntRead (q : Requester) (i c : Nat) (s : State) := done (s.readClear q .SWC_ICNT i c)

/-- PRP_CNTCLR: clears the counters of a node (R135). -/
def State.prpClear (s : State) (node : Nat) : State := iterUpto 13 (fun k s => s.clrCount .PRP_CNT node k) s

def execPrpClearPb (s : State) := done (s.prpClear 0)
def execPrpClearSt (s : State) := done (s.prpClear 1)

end Sys2Proof.Machine
end

