-- ==== Sys2Proof/Machine/PairLink.lean ====
section
/-! DEFINITION. The partner link's sending side, pairing's view of a tenant, and fires that reach the partner (R225,
R232, R233, R239, R379). -/
namespace Sys2Proof.Machine

def State.setParTen (s : State) (t : Nat) (p : PairTen) : State :=
  { s with par := { s.par with ten := Tbl.put {} s.par.ten t p } }

/-- Adds 1 to pairing counter k of a tenant (Table 10-12). -/
def State.parInc (s : State) (t k : Nat) : State :=
  let p := s.parTen t
  s.setParTen t { p with cnt := Tbl.upd 0 p.cnt k (satInc 32) }

/-- Octets of a long message in one piece: with it a frame stays within its 2,080 bytes (R225). -/
def pieceLen : Nat := 2000
/-- Pieces of a message of n octets. -/
def piecesOf (n : Nat) : Nat := max 1 ((n + pieceLen - 1) / pieceLen)

/-- Messages per class (Table 10-2): bulk kinds leave in class 1. -/
def PartnerMsg.cls : PartnerMsg → Nat
  | .snapshot .. => 1
  | .health _ => 1
  | .supmsg .. => 1
  | _ => 6

/-- Bytes of a frame with one message: the sizes that chapter 10 states, else an estimate. -/
def PartnerMsg.size : PartnerMsg → Nat
  | .hello .. => 160
  | .heartbeat .. => 640
  | .digest _ => 48
  | .summary .. => 280
  | .notice .. => 48
  | .seat .. => 16
  | .joinAsk _ => 16
  | .joinRec .. => 2000
  | .snapshot .. => 2000
  | .health _ => 64
  | .capfire .. => 24
  | .supmsg _ _ d => d.length

/-- Builds a partner frame with the next counter and the tag under PAIRKEY, to address da, and hands it to fabric input
14 for the given ports (R225). Without a usable PAIRKEY nothing is sent. A beacon takes a redundancy sequence number, so
that its two copies pass duplicate discard as one (R120, R228). -/
def State.parEmit (s : State) (c : PairCfg) (da : Nat) (ports : List Nat) (beacon : Bool) (msgs : List PartnerMsg) : State :=
  match s.usableKey c.pairKey Use.pair none with
  | none => s
  | some k =>
    let ctr := s.par.txCtr + 1
    let s := { s with par := { s.par with txCtr := ctr } }.addRg64 .PAR_LCNT 1 0
    let len := max 64 (42 + (msgs.map (·.size)).foldl (· + ·) 0)
    let cls := (msgs.head?.map (·.cls)).getD 6
    let f : Frame := { da := da, sa := s.fld .PAR_BADDR 47 0, etherType := 0x88B5,
                       payload := .partner { ctr := ctr, msgs := msgs, tag := { key := k } }, len := len }
    s.originate 14 .pairing f cls { ports := ports } beacon fun _ s =>
      ({ s with par := { s.par with beaconSeq := (s.par.beaconSeq + 1) % 65536 } }, s.par.beaconSeq)

/-- The address of the partner: what its HELLO gave, else the broadcast address. -/
def State.partnerAddr (s : State) : Nat := match s.par.partner with | some h => h.addr | none => 2 ^ 48 - 1

/-- Sends one message on the partner port. -/
def State.parSend (s : State) (m : PartnerMsg) : State :=
  match s.par.cfg with
  | none => s
  | some c => s.parEmit c s.partnerAddr [c.port] false [m]

/-- Sends a message of the supervisor, in pieces (kind 10 of Table 10-2). -/
def State.supSend (s : State) (d : List Byte) : State :=
  let n := piecesOf d.length
  (List.range n).foldl (fun (s : State) i => s.parSend (.supmsg i n ((d.drop (i * pieceLen)).take pieceLen))) s

/-- The supervisor, or Thyme, hands a frame to fabric input 13: PTP event messages of Thyme take class 7, the rest
min(priority, 6) (R120, R121). DESIGN CHOICE: bytes that the supervisor hands over with EtherType 0x88B5 are its request to send
a SUPMSG of at most 8 KiB, since all traffic of that EtherType leaves in partner frames (R225, R253; log entry 125). -/
def execSupervisorFrameSend (f : Frame) (thyme : Bool) (s : State) :=
  let ptp := decide (f.etherType = 0x88F7)
  match f.payload, thyme, decide (f.etherType = 0x88B5) with
  | .other d, false, true => done (if s.pwr.supRuns && decide (d.length ≤ 8192) then s.supSend d else s)
  | _, _, _ =>
    let cls := if thyme && ptp && f.ptpEvent then 7 else min 6 (s.priOf 13 f)
    let dst := s.lookup 13 (s.vidOf 13 f) f.da
    let s := if f.sa ∈ s.prp.supSas then s else { s with prp := { s.prp with supSas := s.prp.supSas ++ [f.sa] } }
    done (s.originate 13 (if thyme then .thyme else .supervisor) f cls dst (!ptp) fun node s => s.nextSeq (8 + node))

/-- Sends a per-tenant message: it takes a credit of boundary 15, or is refused (R19, R225). -/
def State.parSendFor (s : State) (t : Nat) (m : PartnerMsg) : State :=
  if s.avail Bnd.partner t = 0 then s.refuse Bnd.partner t
  else (s.takeCredit Bnd.partner t).parSend m

/-- A capture group fires, and with PEER the partner is told (R378, R379). DESIGN CHOICE: of two fires of one cycle the second
is told only where its stamp is the earlier one (log entry 132). -/
def State.capFireSend (s : State) (m : Nat) (t : Stamp) (unit : Nat) : State :=
  let armed := match Tbl.get none s.now.capFires m with
    | none => s.capAnyArmed m
    | some f => f.armed && decide (t < f.stamp)
  let peer := match (s.cap m).cfg with | some g => g.peer | none => false
  let s := s.capFire m t unit false
  if armed && peer && s.paired then s.parSend (.capfire m t) else s

/-- A CAPT of a tenant fires the group of its unit at a stamp; only a unit of the tenant. -/
def State.capUnitFire (s : State) (u : Nat) (t : Stamp) : State :=
  match (s.cap u).cfg with
  | some g => s.capFireSend g.group t u
  | none => s

end Sys2Proof.Machine
end

