-- ==== Sys2Proof/Machine/Service.lean ====
section
/-! DEFINITION. The end of tenant commands and the common part of a freeze (R330, R331). -/
namespace Sys2Proof.Machine

/-- A TEN_CMD command ends with a result: TEN_CMDSTAT, CMD_DONE, its notification, and Walnut source 40 for RESET,
FREEZE, SAVE and RESTORE (R331, Table 17-1). -/
def State.cmdEnd (s : State) (t code result : Nat) : State :=
  let x := s.tenant t
  let running := match x.cmd with | some c => decide (c.code = code) | none => false
  let s := s.setTenant t { x with cmd := if running then none else x.cmd, lastCmd := code, result := result }
  let s := (s.alertBit t Alert.cmdDone).mbxNotify t 0x81 (words32 [code, result])
  if code = 2 ∨ code = 3 ∨ code = 5 ∨ code = 6 then s.fire 40 (t + code * 2 ^ 16) else s

/-- The scheme side of a freeze is complete: FROZEN, or there is nothing to freeze. -/
def State.schFrozen (s : State) (t : Nat) : Bool :=
  match (Tbl.get ({} : SchTen) s.sch.ten t).st with
  | .run => false
  | .idle | .stop | .standby | .frozen => true

/-- The element side of a freeze is complete. -/
def State.elaFrozen (s : State) (t : Nat) : Bool :=
  match (s.elaT t).st with
  | .frozen | .out => true
  | .seat | .run | .blocked => false

/-- An online change of the tenant waits for its boundary: a freeze waits for it (R273). -/
def State.chgWaits (s : State) (t : Nat) : Bool := decide ((Tbl.get ({} : SchTen) s.sch.ten t).chg.st = .waiting)

/-- FROZEN once both sides are: the freeze ends with OK (Table 15-3). -/
def State.freezeCheck (s : State) (t : Nat) : State :=
  let x := s.tenant t
  if x.freezing.isSome && s.schFrozen t && s.elaFrozen t && !s.chgWaits t then
    let cyc := s.rg .ELA_GRPCNT (s.groupOf t)
    (s.loopsOwner t |>.setTenant t { x with svc := .frozen, freezing := none, saved := stampNs s.dt, savedCycle := cyc }).cmdEnd t 3 0
  else s

/-- A freeze in progress ends without success: the scheme returns to RUN with its schedule, the element keeps running. -/
def State.freezeAbort (s : State) (t result : Nat) : State :=
  let x := s.tenant t
  if x.freezing.isNone then s
  else
    let s := s.setTenant t { x with freezing := none }
    let e := s.elaT t
    let s := s.setEla t { e with pendFreeze := false, st := if e.st = .frozen then .seat else e.st }
    let c := Tbl.get ({} : SchTen) s.sch.ten t
    let s := if c.st = .frozen then
        { s with sch := { s.sch with ten := Tbl.put {} s.sch.ten t { c with st := .run } } } else s
    s.cmdEnd t 3 result

/-- A freeze is applied: from now on it has 1 s, and the element freezes at its window's close (Table 15-3). -/
def State.freezeApply (s : State) (t : Nat) : State :=
  let s := s.setTenant t { s.tenant t with freezing := some s.frc }
  let e := s.elaT t
  (if e.st = ElaSt.out then s else s.setEla t { e with pendFreeze := true }).freezeCheck t

end Sys2Proof.Machine
end

