-- ==== Sys2Proof/Machine/Array.lean ====
section
/-! DEFINITION. Tiles, groups, slot windows and the tenants' states in the element array (chapter 08). -/
namespace Sys2Proof.Machine

/-! Groups (R175 to R177) -/

def State.group (s : State) (g : Nat) : Group := Tbl.get {} s.groups g
def State.setGroup (s : State) (g : Nat) (x : Group) : State := { s with groups := Tbl.put {} s.groups g x }
def State.groupHz (s : State) (g : Nat) : Nat := rateHz (s.fld .ELA_GRPCFG 1 0 g)
def State.groupOn (s : State) (g : Nat) : Bool := s.flag .ELA_GRPCFG 31 g && decide (g < 4)

/-- WIN of a group rate (Table 08-1). -/
def winNs (rate : Nat) : Nat := match rate with | 0 => 7800 | 1 => 6500 | _ => 2160
def State.groupWin (s : State) (g : Nat) : Nat := winNs (s.fld .ELA_GRPCFG 1 0 g)

/-- A cycle of group g starts: its count increments or takes the armed preset. -/
def State.cycleStart (s : State) (g : Nat) (e : Edge) (free : Bool) : State :=
  let x := s.group g
  let n := match x.armed with | some p => p | none => (s.rg .ELA_GRPCNT g + 1) % 2 ^ 64
  (s.setRg .ELA_GRPCNT n g).setGroup g { armed := none, start := some e, free := free }

/-- ELA_GRPCTL ARM: the preset replaces the count at the next start. -/
def execArmPreset (g : Nat) (s : State) :=
  if 4 ≤ g then done s else done (s.setGroup g { s.group g with armed := some (s.rg .ELA_GRPPRE g) })

def execElaGrpevRead (q : Requester) (g : Nat) (s : State) := done (s.readClear q .ELA_GRPEV g)

/-! Slots -/

/-- Tenant and BUDGET of a slot. -/
def State.slotOf (s : State) (tile slot : Nat) : Option (Nat × Nat) :=
  if slot < 32 then Tbl.get none s.slots (32 * tile + slot) else none

def State.budget (s : State) (t : Nat) : Nat :=
  match s.tenCfg t with
  | some c => ((s.slotOf c.tile c.slot).map (·.2)).getD 0
  | none => 0

/-- A tile computes: enabled, in a group that is enabled and started, its quarter on. -/
def State.tileOn (s : State) (tile : Nat) : Bool :=
  s.flag .ELA_TILECFG 31 tile && s.groupOn (s.fld .ELA_TILECFG 17 16 tile) && s.domOn (5 + tile / 32)

/-- WAKE in units of 10 ns (R178). -/
def State.wake (s : State) (tile : Nat) : Nat :=
  let w := s.fld .ELA_TILECFG 7 0 tile
  if 10 ≤ w ∧ w ≤ 200 then w else 30

/-- FRC at which a slot window opens next: in the present cycle, or slot 0 of the next one (R176, R178). -/
def State.openAt (s : State) (g slot : Nat) : Option Nat :=
  (s.group g).start.map fun p =>
    if slot = 0 then p.frc + sec / s.groupHz g else p.frc + slot * s.groupWin g

/-- A slot in use: its tenant is in SEAT or RUN (R178). -/
def State.slotInUse (s : State) (tile slot : Nat) : Option Nat :=
  match s.slotOf tile slot with
  | some (t, _) => match (s.elaT t).st with
    | .seat | .run => some t
    | .out | .blocked | .frozen => none
  | none => none

/-- The sequencer snapshots the slot's point inputs (R178). -/
def State.elaFetch (s : State) (t : Nat) : State :=
  match s.tenCfg t with
  | some { elem := some p, .. } => s.setEla t { s.elaT t with fetched := p.ptins.map fun h => (h, s.point h) }
  | _ => s

/-- The fetch: from 1,000 ns to 200 ns before the window opens (R178). -/
def execFetch (tile slot : Nat) (s : State) :=
  match s.slotInUse tile slot, s.openAt (s.fld .ELA_TILECFG 17 16 tile) slot with
  | some t, some o => if s.tileOn tile && decide (o ≤ s.frc + 1000 ∧ s.frc + 200 ≤ o) then done (s.elaFetch t) else done s
  | _, _ => done s

/-- The core is ungated from WAKE before the window opens on (R178). -/
def execCoreWake (tile slot : Nat) (s : State) :=
  match s.slotInUse tile slot, s.openAt (s.fld .ELA_TILECFG 17 16 tile) slot with
  | some _, some o =>
    if s.tileOn tile && decide (o ≤ s.frc + s.wake tile * 10 ∧ s.frc ≤ o) then
      done { s with awake := Tbl.put false s.awake tile true }
    else done s
  | _, _ => done s

/-! Selecting records (R184 to R187) -/

/-- The present records of a binding in ring order: written before the present cycle, credit not returned (R185, R200). -/
def State.presents (s : State) (b : Binding) : List OutRec :=
  (s.tapRing b.stream b.tap).filterMap fun e => if e.credit && decide (e.wrote < s.frc) then some e.rec_ else none

/-- The records of a binding whose credit has returned (R22). -/
def State.expireds (s : State) (b : Binding) : List OutRec :=
  (s.tapRing b.stream b.tap).filterMap fun e => if e.credit then none else some e.rec_

/-- Samples of a stream for each cycle of its tenant's group: K. -/
def State.perCycle (s : State) (g : Nat) (b : Binding) : Nat :=
  match s.streamCfg b.stream with
  | some c => max 1 (rateHz c.rate / s.groupHz g)
  | none => 1
def State.streamHz (s : State) (b : Binding) : Nat :=
  match s.streamCfg b.stream with
  | some c => rateHz c.rate
  | none => 4000

/-- smp is an output instant of the tap (R166). -/
def State.kept (s : State) (b : Binding) (smp : Nat) : Bool :=
  match s.topo b.stream with
  | some t => (pathOf t.stages 8 (t.tapStage b.tap)).all fun e => decide (smp / mbOf t.stages e.1 % e.2.m = e.2.phase)
  | none => false

/-- Holds the last values; a miss makes Q invalid (R185). -/
def BindSt.miss (b : BindSt) : BindSt := { b with bad := true, st := .missed }

/-- The record of a sample count. -/
def ofCount (l : List OutRec) (target : Nat) : Option OutRec := l.find? fun r => decide (r.smp = target)

/-- Selection by sample count (R185). -/
def State.selectCount (s : State) (b : Binding) (old : BindSt) (target : Nat) : BindSt :=
  match ofCount (s.presents b) target with
  | some r => { rec_ := some r, bad := false, st := .fresh }
  | none => if s.kept b target then old.miss else { old with st := .held }

/-- The record nearest to a stamp within half a period; ties go to the older. -/
def ofStamp (l : List OutRec) (period : Nat) (t0 : Stamp) : Option OutRec :=
  l.foldl (fun (best : Option OutRec) e =>
    let d := (stampDiff e.stamp t0).natAbs
    if period < 2 * d then best
    else match best with
      | some r => if d < (stampDiff r.stamp t0).natAbs then some e else best
      | none => some e) none

/-- The period of a binding's tap in 1/256 ns. -/
def State.tapPeriod (s : State) (b : Binding) : Nat :=
  let m := match s.topo b.stream with | some t => t.factor b.tap | none => 1
  let rate := match s.streamCfg b.stream with | some c => c.rate | none => 0
  periods256 rate m

/-- Selection by stamp (R187). -/
def State.selectStamp (s : State) (b : Binding) (old : BindSt) (at_ : Option Stamp) : BindSt :=
  match at_.bind (ofStamp (s.presents b) (s.tapPeriod b)) with
  | some r => { rec_ := some r, bad := false, st := .fresh }
  | none => old.miss

/-- Every binding's selection at cursor c; binding 0 first, and by its count: the other bindings may align to its stamp
(R187). -/
def State.selectAll (s : State) (g c : Nat) (bs : List Binding) (old : List BindSt) : List BindSt :=
  let one (at_ : Option Stamp) (b : Binding) (o : BindSt) : BindSt :=
    if b.byStamp then s.selectStamp b o at_ else s.selectCount b o (c * s.perCycle g b)
  let olds := (List.range bs.length).map fun i => old.getD i {}
  match bs.zip olds with
  | [] => []
  | (b, o) :: rest =>
    let first := s.selectCount b o (c * s.perCycle g b)
    first :: rest.map fun e => one (first.rec_.map (·.stamp)) e.1 e.2

/-- Misses of a window that are reads of entries whose credit has returned count as expired (R22). -/
def State.selectExpired (s : State) (g c : Nat) (bs : List Binding) (sel : List BindSt) : State :=
  let at_ := (sel.head?.bind (·.rec_)).map (·.stamp)
  ((bs.zip sel).zipIdx.filter fun (e : (Binding × BindSt) × Nat) => decide (e.1.2.st = .missed)).foldl (fun (s : State) e =>
    let b := e.1.1
    let hit := if b.byStamp && decide (e.2 ≠ 0) then at_.bind (ofStamp (s.expireds b) (s.tapPeriod b))
      else ofCount (s.expireds b) (c * s.perCycle g b)
    if hit.isSome then s.countDrop Bnd.output b.stream else s) s

/-! INDIG and COMPL64 (R233) -/

/-- The 64 bytes of an output record (Table 07-4) with stamp, INFO and OFLAGS [13:8] zero. -/
def OutRec.digestBytes (r : OutRec) : List Byte :=
  ((List.range 8).flatMap fun i => leBytes 4 (unsigned 32 (r.vals.getD i 0))) ++
  ((List.range 8).flatMap fun i => leBytes 2 (r.oq.getD i 0)) ++ List.replicate 10 0 ++ leBytes 2 r.smp ++
  leBytes 4 (setBits r.flags 13 8 0)

/-- INDIG of a window. -/
def indigOf (n c : Nat) (binds : List BindSt) (points : List (Nat × Point)) : Nat :=
  let one (b : BindSt) : List Byte := match b.st, b.rec_ with
    | .fresh, some r => 0 :: r.digestBytes
    | .held, _ => [1]
    | _, _ => [2]
  crc64 (leBytes 8 n ++ leBytes 2 c ++ binds.flatMap one ++ points.flatMap fun p => (leBytes 8 p.2.word).take 7)

/-- A binding is complete (R233). -/
def BindSt.complete (b : BindSt) : Bool :=
  match b.st, b.rec_ with
  | .fresh, some r => !(bit r.flags 5 || bit r.flags 12 || bit r.flags 10 || bit r.flags 9)
  | _, _ => false

/-! Windows -/

/-- Program state as at a cold start; counters, load and a pending test injection stay (R194, R196). -/
def ElaTen.init (e : ElaTen) (st : ElaSt) : ElaTen :=
  { st := st, last := e.last, peak := e.peak, cnt := e.cnt, injExtra := e.injExtra, injCount := e.injCount }

/-- The newest present sample count of binding 0 divided by K. -/
def State.newestCursor (s : State) (g : Nat) (b : Binding) : Option Nat :=
  ((s.presents b).getLast?).map fun e => e.smp / s.perCycle g b

/-- The state of a tenant's nodes after a seat. -/
def State.seatedNodes (s : State) (t : Nat) : Tbl NodeSt :=
  match s.tenCfg t with
  | some { elem := some p, .. } =>
    p.nodes.zipIdx.foldl (fun (m : Tbl NodeSt) e => Tbl.upd {} m e.2 e.1.prim.seated) (s.elaT t).nodes
  | _ => (s.elaT t).nodes

/-- Seats the cursor (R186): each seating after the first counts in SLIP. -/
def State.seat (s : State) (t c : Nat) : State × Bool :=
  let e := s.elaT t
  let s := s.setEla t { e with st := .run, cursor := c, once := true, miss0 := 0, nodes := s.seatedNodes t }
  if e.once then (((s.elaAdd t 3 1).setFlag .ELA_STAT 3).fire 14 t, true) else (s, false)

/-- The phase of a cursor at cycle n (R236). -/
def phaseOf (fg c n : Nat) : Nat := (c + fg - n % fg) % fg

/-- Proposes a seating to the partner, once (R236). -/
def State.seatPropose (s : State) (t g c : Nat) : State :=
  let p := s.parTen t
  if p.seatOwn.isSome then s
  else
    let n := s.rg .ELA_GRPCNT g
    let ph := phaseOf (s.groupHz g) c n
    let s := s.setParTen t { p with seatOwn := some (ph, n + 2), seatFrom := s.frc }
    s.parSendFor t (.seat t ph (n + 2) (s.tenant t).seq)

/-- Re-seating is agreed with the partner rather than local (R236). -/
def State.seatShared (s : State) (t : Nat) : Bool := s.classH t && s.pairAligned t && !(s.parTen t).seqDiff

/-- The tenant's tile still has to run its BIST pass after a domain reset (R389). -/
def State.bistPending (s : State) (t : Nat) : Bool := match s.tenCfg t with | some c => bit s.pwr.bistDue c.tile | none => false

/-- The cursor step of a window opening (R184, R186): the state, whether the program runs, and SLIP. -/
def State.openCursor (s : State) (t g : Nat) (b : Binding) : State × Bool × Bool :=
  let e := s.elaT t
  let fg := s.groupHz g
  let n := s.rg .ELA_GRPCNT g
  let newest := s.newestCursor g b
  let wait (s : State) : State × Bool × Bool := (s.elaAdd t 6 1, false, false)
  match e.seatTo with
  | some ph =>
    let (s, slip) := (s.setEla t { e with seatTo := none }).seat t ((n + ph) % fg)
    (s, true, slip)
  | none =>
    match e.st, newest with
    | .seat, some c =>
      if s.bistPending t then wait s
      else if s.classH t && s.pairAligned t && decide (t ∈ s.par.peerRun) then wait s
      else if s.seatShared t && !(s.parTen t).alone then wait (s.seatPropose t g c)
      else
        let (s, slip) := (s.setParTen t { s.parTen t with alone := false }).seat t c
        (s, true, slip)
    | .seat, none => wait s
    | _, _ =>
      let c := (e.cursor + 1) % fg
      let k := s.perCycle g b
      let fs := s.streamHz b
      let newestSmp := ((s.presents b).getLast?).map fun x => x.smp
      let ahead := match newestSmp with | some m => (m + fs - c * k % fs) % fs | none => 0
      let due := decide (3 ≤ e.miss0 ∧ newestSmp.isSome) || decide (2 * k ≤ ahead ∧ 2 * ahead < fs)
      let s' := s.setEla t { e with cursor := c }
      match due, newest with
      | true, some d =>
        if s.seatShared t then (s'.seatPropose t g d, true, false)
        else
          let (s, slip) := s'.seat t d
          (s, true, slip)
      | _, _ => (s', true, false)

/-- Opens the window of tenant t: the inputs of the program are fixed (R185). -/
def State.openWindow (s : State) (t g : Nat) (start : Edge) : State :=
  match s.tenCfg t with
  | some { elem := some p, .. } =>
    match p.bindings with
    | [] => s
    | b0 :: _ =>
      let (s, runs, slip) := s.openCursor t g b0
      let e := s.elaT t
      let n := s.rg .ELA_GRPCNT g
      let binds := if runs then s.selectAll g e.cursor p.bindings e.binds else e.binds
      let missed := if runs then (binds.filter fun b => decide (b.st = .missed)).length else 0
      let miss0 := match binds.head? with
        | some b => if runs then (if b.st = .missed then e.miss0 + 1 else 0) else e.miss0
        | none => 0
      let w : Window := { openFrc := s.frc, openDt := s.dt, cycle := n, slip := slip, binds := binds, points := e.fetched,
                          runs := runs, ended := !runs }
      let s := s.setEla t { e with window := some w, openedAt := some start.frc, binds := binds, miss0 := miss0 }
      let s := s.elaAdd t 2 missed
      let s := if runs then s.selectExpired g e.cursor p.bindings binds else s
      if runs then
        let q := s.parTen t
        let done64 := ((binds.filter BindSt.complete).length :: q.compl).take 64
        s.setParTen t { q with compl := done64, indig := indigOf n e.cursor binds e.fetched }
      else s
  | _ => s

/-- A slot window opens (R176, R184 to R186). -/
def execWindowOpen (tile slot : Nat) (s : State) :=
  let g := s.fld .ELA_TILECFG 17 16 tile
  match s.slotOf tile slot, (s.group g).start with
  | some (t, _), some p =>
    let e := s.elaT t
    let due := s.tileOn tile && decide (p.frc + slot * s.groupWin g ≤ s.frc ∧ s.frc < p.frc + (slot + 1) * s.groupWin g ∧
      e.openedAt ≠ some p.frc) &&
      e.window.isNone
    if !due then done s
    else
      let s := if e.st = ElaSt.blocked ∧ e.pendRelease then s.setEla t (e.init .seat) else s
      match (s.elaT t).st with
      | .seat | .run =>
        done { s.openWindow t g p with awake := Tbl.put false s.awake tile true }
      | .out | .blocked | .frozen => done s
  | _, _ => done s

/-! Running the program (R179, R191 to R194) -/

/-- What running the nodes gave. -/
structure ElaRun where
  cycles : Nat
  outs : List (List NodeOut) := []
  nodes : Tbl NodeSt := []
  reqs : List ElaReq := []
deriving DecidableEq, Repr

/-- Runs the nodes in order. With a limit, a node that is not complete by it leaves no trace (R194). -/
def runNodes (env : NodeEnv) (limit : Option Nat) : List Node → Nat → ElaRun → ElaRun
  | [], _, r => r
  | nd :: rest, i, r =>
    let cyc := r.cycles + primCost nd.prim nd.ins.length
    let stop := match limit with | some l => decide (l < cyc) | none => false
    if stop then r
    else
      let ins := nd.ins.map fun a => (r.outs.getD a.1 []).getD a.2 { sig := .b false, q := 1 }
      let (st, outs, reqs) := primRun { env with node := i } nd.prim ins (Tbl.get {} r.nodes i)
      let isDup (q : ElaReq) : Bool := match q with | .capture _ => decide (q ∈ r.reqs) | _ => false
      runNodes env limit rest (i + 1)
        { cycles := cyc, outs := r.outs ++ [outs], nodes := Tbl.put {} r.nodes i st,
          reqs := r.reqs ++ reqs.filter fun q => !isDup q }

/-- The environment of a window. -/
def State.envOf (s : State) (t : Nat) (p : ElaProg) (w : Window) : NodeEnv :=
  { binds := w.binds, byStamp := false :: (p.bindings.drop 1).map (·.byStamp), slip := w.slip, openDt := w.openDt, points := w.points,
    fg := s.groupHz (s.groupOf t) }

/-- Cycles before the first node: entry, stalls and injected cycles (R194). -/
def ElaTen.head (e : ElaTen) (stalls : Nat) : Nat := 32 + 24 * stalls + (if e.injCount = 0 then 0 else e.injExtra)

/-- FRC counts that a number of tile cycles of 1.2 GHz takes. -/
def tileNs (cycles : Nat) : Nat := (cycles * 5 + 5) / 6

/-- One execution was made: stalls are counted, injection runs down, the load is shown (R194, ELA_TUSE). -/
def State.elaUsed (s : State) (t stalls used : Nat) : State :=
  let e := s.elaT t
  let s := s.setEla t { e with last := used, peak := max e.peak used, injCount := e.injCount - 1,
                               execs := e.execs + 1 }
  match s.tenCfg t with
  | some c =>
    let v := s.rg .ELA_TILESTAT c.tile
    (s.elaAdd t 7 stalls).setRg .ELA_TILESTAT (setBits v 31 16 (satAdd 16 (bits v 31 16) stalls)) c.tile
  | none => s

/-- Node i forgets its last written value, so that it requests again (R193). -/
def State.unwritten (s : State) (t i : Nat) : State :=
  let e := s.elaT t
  s.setEla t { e with nodes := Tbl.upd {} e.nodes i fun n => { n with last := [] } }

/-- The 32-bit value of a node signal of type F or B. -/
def sigWord : Sig → Nat
  | .f w => w
  | .b v => b2n v
  | _ => 0

/-- Places a publication request among those that wait: by arrival, ties by tenant and PUBNO (R214). -/
def pubInsert (r : PubReq) : List PubReq → List PubReq
  | [] => [r]
  | x :: rest =>
    if r.at_ < x.at_ ∨ (r.at_ = x.at_ ∧ (r.tenant < x.tenant ∨ (r.tenant = x.tenant ∧ r.pubno < x.pubno))) then
      r :: x :: rest
    else x :: pubInsert r rest

/-- A request of the element array, a scheme core or a fail state reaches the publisher. -/
def State.pubQueue (s : State) (r : PubReq) : State :=
  let r := { r with at_ := s.frc, cycle := s.rg .ELA_GRPCNT (s.groupOf r.tenant) }
  { s with goose := { s.goose with reqs := pubInsert r s.goose.reqs } }

/-- Issues one buffered request with a credit of its boundary, or refuses it (R19, R192, R193). -/
def State.issue (t : Nat) (stamp : Stamp) (src : Nat) (s : State) (r : ElaReq) : State :=
  let gen := (s.tenant t).gen
  match r with
  | .point node h isF v q =>
    if s.avail Bnd.elaPoint t = 0 then ((s.refuse Bnd.elaPoint t).elaRefused t).unwritten t node
    else
      let p : Point := { value := v, quality := q, type := if isF then 3 else 1, info := src % 4, time := stampNs stamp }
      let s := s.takeCredit Bnd.elaPoint t
      s.pntQueue { tenant := t, gen := gen, bnd := Bnd.elaPoint, handle := h, point := p }
  | .publish node pubno vals =>
    if s.avail Bnd.elaPub t = 0 then ((s.refuse Bnd.elaPub t).elaRefused t).unwritten t node
    else
      let s := s.takeCredit Bnd.elaPub t
      let q : PubReq := { tenant := t, gen := gen, pubno := pubno, vals := vals.map fun v => BitVec.ofNat 32 (sigWord v.sig),
                          quals := vals.map (·.q), stamp := stamp, src := src, bnd := some Bnd.elaPub }
      s.pubQueue q
  | .timed ch action instant width =>
    let act : TtuAct := match action with
      | 0 => .set | 1 => .clear | 2 => .toggle | 3 => .pulse width | _ => .fire
    if s.avail Bnd.elaTimed t = 0 then (s.refuse Bnd.elaTimed t).elaRefused t
    else
      let s := s.takeCredit Bnd.elaTimed t
      { s with ttuReqs := s.ttuReqs ++ [{ tenant := t, gen := gen, ch := ch, act := act, instant := instant }] }
  | .capture u => s.capUnitFire u stamp

/-- The program of a slot and its open window, if one runs there. -/
def State.running (s : State) (tile slot : Nat) : Option (Nat × Nat × ElaProg × Window) :=
  match s.slotOf tile slot with
  | some (t, budget) =>
    match s.tenCfg t, (s.elaT t).window with
    | some { elem := some p, .. }, some w => if w.runs && !w.ended then some (t, budget, p, w) else none
    | _, _ => none
  | none => none

/-- The program reaches END within BUDGET and its commit completes (R191). -/
def execProgramCommit (tile slot stalls : Nat) (s : State) :=
  match s.running tile slot with
  | none => done s
  | some (t, budget, p, w) =>
    let e := s.elaT t
    let r := runNodes (s.envOf t p w) none p.nodes 0 { cycles := e.head stalls, nodes := e.nodes }
    let total := r.cycles + 16 + 2 * r.reqs.length
    if budget < total ∨ s.frc < w.openFrc + tileNs total then done s
    else
      let rec0 := (w.binds.head?.bind (·.rec_))
      let stamp := match rec0 with | some x => x.stamp | none => 0
      let src := match rec0 with | some x => x.stampSrc | none => 3
      let s := s.setEla t { e with nodes := r.nodes, outs := r.outs, consec := 0, window := some { w with ended := true } }
      let s := (s.elaUsed t stalls total).elaAdd t 0 1
      done (r.reqs.foldl (State.issue t stamp src) s)

/-- BUDGET cycles pass before the commit is complete: an overrun. The output buffer is discarded; node state keeps what it held,
the values that PTOUT and PUB compare with among it (R194, R195). -/
def execBudgetStop (tile slot stalls : Nat) (s : State) :=
  match s.running tile slot with
  | none => done s
  | some (t, budget, p, w) =>
    let e := s.elaT t
    let full := runNodes (s.envOf t p w) none p.nodes 0 { cycles := e.head stalls, nodes := e.nodes }
    if full.cycles + 16 + 2 * full.reqs.length ≤ budget ∨ s.frc < w.openFrc + tileNs budget then done s
    else
      let r := runNodes (s.envOf t p w) (some budget) p.nodes 0 { cycles := e.head stalls, nodes := e.nodes }
      let consec := e.consec + 1
      let s := s.setEla t { e with nodes := r.nodes, outs := r.outs, consec := min 2 consec,
                                   pendBlock := e.pendBlock || decide (3 ≤ consec), window := some { w with ended := true } }
      let s := ((s.elaUsed t stalls budget).elaAdd t 1 1).setFlag .ELA_STAT 0
      done (((s.almond 24).fire 46 t).alert t Alert.overrun consec)

/-! BLOCKED (R195, Table 08-6) -/

/-- Mode and value of an output number. -/
def State.failOf (s : State) (t outno : Nat) : Nat × Nat :=
  match s.tenCfg t with
  | some c => Tbl.get (0, 0) c.fails outno
  | none => (0, 0)

/-- The fail state of one output node, made without credit. -/
def State.failNode (t : Nat) (s : State) (nd : Node) : State :=
  match nd.prim with
  | .ptout h _ isF outno =>
    let put (v q : Nat) : State :=
      s.putPoint h { value := v, quality := q, type := if isF then 3 else 1, info := 1, time := stampNs s.dt }
    match s.failOf t outno with
    | (1, _) => put 0 0x41
    | (2, v) => put (if isF then v else v % 2) 0x400
    | _ => s
  | .pub pubno outno =>
    let put (v q : Nat) : State :=
      let n := nd.ins.length
      let r : PubReq := { tenant := t, gen := (s.tenant t).gen, pubno := pubno,
                          vals := List.replicate n (BitVec.ofNat 32 v), quals := List.replicate n q, stamp := s.dt }
      s.pubQueue r
    match s.failOf t outno with
    | (1, _) => put 0 1
    | (2, v) => put v 0x400
    | _ => s
  | .tout ch _ _ _ _ outno =>
    match s.failOf t outno with
    | (1, _) => s.ttuDrive ch (s.chIdle ch)
    | (2, v) => s.ttuDrive ch (decide (v % 2 = 1))
    | _ => s
  | _ => s

/-- The channels that a program's TOUT nodes use. -/
def ElaProg.channels (p : ElaProg) : List Nat := p.nodes.filterMap fun nd => match nd.prim with
  | .tout ch .. => some ch
  | _ => none

/-- The tenant becomes BLOCKED: entries flushed, outputs to their fail states, a freeze in progress abandoned. A pin of a
TOUT keeps its level until its fail state sets it; another pin of the tenant goes to IDLE. -/
def State.elaBlock (s : State) (t : Nat) : State :=
  let prog := match s.tenCfg t with | some c => c.elem | none => none
  let nodes := match prog with | some p => p.nodes | none => []
  let touts := match prog with | some p => p.channels | none => []
  let e := s.elaT t
  let s := s.setEla t { e with st := .blocked, pendBlock := false, pendFreeze := false, window := none, consec := 0 }
  let s := (s.ttuOf t).foldl (fun (s : State) n =>
    if n ∈ touts then s.ttuFlushTo n (s.ch n).level else s.ttuFlush n) s
  let s := nodes.foldl (State.failNode t) s
  let s := (((s.elaAdd t 5 1).setFlag .ELA_STAT 1).fire 13 t).almond 8
  ((s.alert t Alert.blocked 0).loopsOwner t).freezeAbort t 3

/-- Slot 0 of a tile is in use and its wake for the next cycle has come. -/
def State.wokenNext (s : State) (tile : Nat) : Bool :=
  match s.slotInUse tile 0, s.openAt (s.fld .ELA_TILECFG 17 16 tile) 0 with
  | some _, some o => decide (o ≤ s.frc + s.wake tile * 10)
  | _, _ => false

/-- The window of another slot of the tile is open. -/
def State.otherOpen (s : State) (tile slot : Nat) : Bool :=
  (List.range 32).any fun k => match s.slotOf tile k with
    | some (t, _) => decide (k ≠ slot) && (s.elaT t).window.isSome
    | none => false

/-- The core is gated again at the close of a window where neither the next slot nor a woken slot 0 is in use and no other
window is open (R178). -/
def State.coreSleep (s : State) (tile slot : Nat) : State :=
  if (s.slotInUse tile (slot + 1)).isSome || s.wokenNext tile || s.otherOpen tile slot then s
  else { s with awake := Tbl.put false s.awake tile false }

/-- The time of a slot's window in the present cycle has passed. -/
def State.windowOver (s : State) (tile slot : Nat) : Bool :=
  let g := s.fld .ELA_TILECFG 17 16 tile
  match (s.group g).start with
  | some p => decide (p.frc + (slot + 1) * s.groupWin g ≤ s.frc)
  | none => true

/-- A release written in the window that has just closed: applied at the next opening where the window blocked the tenant,
refused with STATE where it did not (R196, R200, R331). -/
def State.releaseSettle (s : State) (t : Nat) : State :=
  let e := s.elaT t
  if !e.pendRelease then s
  else if e.st = ElaSt.blocked then s.cmdEnd t 7 0
  else (s.setEla t { e with pendRelease := false }).cmdEnd t 7 2

/-- A slot window closes: a pending block or freeze of its tenant applies, and a pending release is settled (R180, R195,
R200). -/
def execWindowClose (tile slot : Nat) (s : State) :=
  match s.slotOf tile slot with
  | none => done s
  | some (t, _) =>
    let e := s.elaT t
    match e.window with
    | none => done (if s.windowOver tile slot then s.coreSleep tile slot else s)
    | some w =>
      if s.frc < w.openFrc + s.groupWin (s.fld .ELA_TILECFG 17 16 tile) then done s
      else
        let s := s.coreSleep tile slot
        let s := if e.pendBlock then s.elaBlock t
          else if e.pendFreeze then
            (s.setEla t { e with st := .frozen, pendFreeze := false, window := none }).freezeCheck t
          else s.setEla t { e with window := none }
        done (s.releaseSettle t)

/-- An uncorrectable error in slot memory (R194, R195): the program stops; the block comes at the close of the window. -/
def State.slotError (s : State) (t : Nat) : State :=
  let e := s.elaT t
  match e.st with
  | .seat | .run =>
    let s := s.setFlag .ELA_STAT 6
    match e.window with
    | some w => s.setEla t { e with pendBlock := true, window := some { w with ended := true } }
    | none => s.elaBlock t
  | .out | .blocked | .frozen => s

def execSlotEccError (t : Nat) (s : State) := done (s.slotError t)

/-- RELEASE while BLOCKED: SEAT with initialised state (R196). In a window it waits for what the window ends in (R200). -/
def State.elaRelease (s : State) (t : Nat) : State :=
  let e := s.elaT t
  if e.st = .blocked then s.setEla t (e.init .seat)
  else if e.window.isSome then s.setEla t { e with pendRelease := true }
  else s

/-- A tenant reset: the program stops at once (R200). -/
def State.elaReset (s : State) (t : Nat) : State := s.setEla t ((s.elaT t).init .out)

/-- A class C tenant on standby. -/
def State.onStandby (s : State) (t : Nat) : Bool := s.classC t && decide ((s.parTen t).cst = 2)

/-- A start: SEAT with the program state initialised (Table 08-3); the program of a class C tenant on standby stays OUT until
its TAKEOVER (R246, R248). -/
def State.elaStart (s : State) (t : Nat) : State :=
  match s.tenCfg t with
  | some { elem := some _, .. } => s.setEla t ((s.elaT t).init (if s.onStandby t then .out else .seat))
  | _ => s

/-! Registers -/

def ElaTen.cleared (e : ElaTen) (c : Tbl Nat) : ElaTen := { e with cnt := c, peak := 0 }
def execElaClearSel (s : State) :=
  let t := s.fld .ELA_TSEL 11 0
  done { s with ela := Tbl.recountAt {} s.ela s.now.ela t ElaTen.cnt ElaTen.cleared,
                now := { s.now with ela := Tbl.recountAt {} s.now.ela s.now.ela t ElaTen.cnt ElaTen.cleared } }
def execElaClearAll (s : State) :=
  done { s with ela := Tbl.recount {} s.ela s.now.ela ElaTen.cnt ElaTen.cleared,
                now := { s.now with ela := Tbl.recount {} s.now.ela s.now.ela ElaTen.cnt ElaTen.cleared } }

/-- ELA_TINJ: only in lifecycle TEST. -/
def execTinjWrite (extra count : Nat) (s : State) :=
  let t := s.fld .ELA_TSEL 11 0
  if s.lcTest then done (s.setEla t { s.elaT t with injExtra := extra % 2 ^ 16, injCount := count % 256 })
  else done (s.setFlag .ELA_STAT 7)

end Sys2Proof.Machine
end

