-- ==== Sys2Proof/Machine/Loop.lean ====
section
/-! DEFINITION. The loop engine (R275 to R293). -/
namespace Sys2Proof.Machine

def State.setLoop (s : State) (n : Nat) (l : Loop) : State :=
  { s with lop := { s.lop with loops := Tbl.put {} s.lop.loops n l } }

/-- Coefficient w of loop n (Table 12-4). -/
def State.coef (s : State) (n w : Nat) : FV := fv (s.rg .LOP_COEF n w)
def Coef.escale : Nat := 0
def Coef.ki : Nat := 1
def Coef.kff : Nat := 2
def Coef.omin : Nat := 3
def Coef.omax : Nat := 4
def Coef.spgain : Nat := 5
def Coef.spofs : Nat := 6
def Coef.spslew : Nat := 7
def Coef.spfix : Nat := 8
def Coef.pa : Nat := 9
def Coef.pk : Nat := 10
def Coef.plim : Nat := 11
def Coef.safe : Nat := 12
def Coef.ramp : Nat := 13

/-- A word limited to an interval. -/
def fClamp (v lo hi : FV) : FV := if fLt v.w lo.w then lo else if fLt hi.w v.w then hi else v

/-- Zero of either sign. -/
def fIsZero (w : Nat) : Bool := decide (w % 2 ^ 31 < 2 ^ 23)

/-! Sources (R280, R281) -/

/-- The newest filter output of a tap that is present at the pass latch (R280): written before it, its credit not returned. -/
def State.newestOut (s : State) (stream tap : Nat) : Option OutRec :=
  (((s.tapRing stream tap).filter fun (e : OutEntry) => e.credit && decide (e.wrote < s.frc)).getLast?).map fun (e : OutEntry) =>
    e.rec_

/-- A source word at the pass latch: what the loop then remembers, and whether the source is fresh. -/
def State.srcRead (s : State) (word : Nat) (o : LoopSrc) : LoopSrc × Bool :=
  let stale : LoopSrc × Bool := ({ o with miss := min 255 (o.miss + 1) }, false)
  match bits word 31 30 with
  | 1 =>
    match s.newestOut (bits word 17 6) (bits word 5 4) with
    | some r =>
      let ch := bits word 3 0
      let v := r.oq.getD ch 1 % 4
      if o.smp ≠ some r.smp ∧ (v = 0 ∨ v = 3) then
        ({ val := (fInt (r.vals.getD ch 0)).w, smp := some r.smp, miss := 0 }, true)
      else stale
    | none => stale
  | 2 =>
    let i := bits word 3 0
    let res := s.rg .ADC_RES i
    if Tbl.get 0 s.adc.count i ≠ Tbl.get 0 s.lop.seen i ∧ !bit res 29 then
      ({ o with val := (fInt (signed 16 (bits res 15 0))).w, miss := 0 }, true)
    else stale
  | _ => stale

/-- LOSSN, FRZN, PCOUNT of LOP_DET. -/
def State.lossN (s : State) (n : Nat) : Nat := max 1 (s.fld .LOP_DET 31 24 n)
def State.frzN (s : State) (n : Nat) : Nat := let f := s.fld .LOP_DET 23 16 n; if f = 1 then 2 else f
def State.pCount (s : State) (n : Nat) : Nat := max 1 (s.fld .LOP_DET 15 8 n)

/-- Frequency of a pulse input (R282). -/
def State.pulseHz (s : State) (p : Nat) : FV :=
  fvDiv (fvMul (fInt (s.rg .LOP_PULSECNT p)) (fInt (rateHz (s.fld .LOP_CFG 1 0)))) (fInt (max 1 (s.fld .LOP_PULSECFG 15 0 p)))

/-- The set-point target and the set-point's move toward it (R281, R283). -/
def State.loopSetPoint (s : State) (n : Nat) (l : Loop) : Loop :=
  let word := s.rg .LOP_SPSRC n
  let lin (x : FV) : Nat := (fvAdd (fvMul (s.coef n Coef.spgain) x) (s.coef n Coef.spofs)).w
  let l := match bits word 31 30 with
    | 0 => { l with target := (s.coef n Coef.spfix).w, spLost := false }
    | 3 =>
      let p := bits word 3 0 % 4
      if s.flag .LOP_PSTAT p then { l with spLost := true }
      else { l with target := lin (s.pulseHz p), spLost := false }
    | _ =>
      let (x, fresh) := l.got.sp
      let lost := decide (s.lossN n ≤ x.miss)
      { l with spx := x, target := if lost then l.target else lin (fv x.val),
               spLost := if fresh then false else l.spLost || lost }
  let lim := s.coef n Coef.spslew
  let d := fClamp (fvSub (fv l.target) (fv l.sp)) (fvNeg lim) lim
  { l with sp := (fvAdd (fv l.sp) d).w }

/-! Detectors (R285) -/

/-- The feed-forward source has not been fresh for LOSSN passes. -/
def State.ffMissed (s : State) (n : Nat) (l : Loop) : Bool :=
  decide (bits (s.rg .LOP_FFSRC n) 31 30 ≠ 0 ∧ s.lossN n ≤ l.ff.miss)

/-- The detector that fires in RUN or HOLD, by its cause, with the counts advanced. -/
def State.loopDetect (s : State) (n : Nat) (fresh : Bool) (l : Loop) : Loop × Option Nat :=
  let x := l.fb.val
  let l := if fresh then
      let same := match l.prev with | some (v, _) => decide (v = x) | none => false
      { l with frz := if same then l.frz + 1 else 1 } else l
  let plim := s.coef n Coef.plim
  let l := if fresh && decide (l.st = .run) && !fIsZero plim.w then
      match l.prev with
      | some (fb0, out0) =>
        let a := fv fb0
        let yp := fvAdd a (fvMul (s.coef n Coef.pa) (fvSub (fvMul (s.coef n Coef.pk) (fv out0)) a))
        let bad := fLt plim.w (fvAbs (fvSub (fv x) yp)).w
        { l with implausible := if bad then l.implausible + 1 else 0 }
      | none => l
    else l
  let cause :=
    if s.lossN n ≤ l.fb.miss then some 1
    else if s.frzN n ≠ 0 ∧ fresh ∧ s.frzN n ≤ l.frz then some 2
    else if fresh ∧ s.pCount n ≤ l.implausible then some 3
    else if s.ffMissed n l then some 4
    else none
  (l, cause)

/-- FHOLD with a cause: its counter, FAULT, Walnut 30 (R285). -/
def State.loopFault (s : State) (n cause : Nat) : State :=
  let l := s.loop n
  let s := s.setLoop n { l with st := .fhold, cause := cause, held := 0, entering := false }
  let hi := 31 - 8 * (cause - 1)
  let s := if cause ≤ 4 then s.setFld .LOP_FCNT hi (hi - 7) (satInc 8 (s.fld .LOP_FCNT hi (hi - 7) n)) n else s
  (s.setFlag .LOP_STAT 0).fire 30 (n + cause * 2 ^ 8)

/-! The control law (R283, R284) -/

def State.loopOut (s : State) (n : Nat) (l : Loop) : FV :=
  match l.out with | some w => fv w | none => s.coef n Coef.safe

/-- The entry of the gain table: the whole part of |e| × ESCALE, at most 255 (R283). -/
def gainIdx (e escale : FV) : Nat :=
  let (m, ex) := fParts (fvMul (fvAbs e) escale).w
  if m ≤ 0 then 0 else if 8 < ex then 255
  else if 0 ≤ ex then min 255 (m.toNat * 2 ^ ex.toNat) else min 255 (m.toNat / 2 ^ (-ex).toNat)

/-- The proportional part of a loop's output. -/
def State.loopP (s : State) (n : Nat) (e : FV) : FV :=
  fvMul (fv (s.rg .LOP_GAIN (s.fld .LOP_OWN 21 16 n) (gainIdx e (s.coef n Coef.escale)))) e

/-- One evaluation of the law on fresh feedback. -/
def State.loopLaw (s : State) (n : Nat) (l : Loop) : Loop :=
  let e := fvSub (fv l.sp) (fv l.fb.val)
  let p := s.loopP n e
  let vin := if s.fld .LOP_FFSRC 31 30 n = 0 then f0 else fv l.ff.val
  let ff := fvMul (s.coef n Coef.kff) vin
  let l := { l with err := e.w }
  if l.entering then
    let last := s.loopOut n l
    { l with integ := (fvSub (fvSub last p) ff).w, out := some last.w, sat := false, entering := false }
  else
    let omin := s.coef n Coef.omin
    let omax := s.coef n Coef.omax
    let sum (i : FV) : FV := fvAdd (fvAdd p i) ff
    let u0 := sum (fv l.integ)
    let wind := (fLe omax.w u0.w && fLt 0 e.w) || (fLe u0.w omin.w && fLt e.w 0)
    let integ := if wind then fv l.integ else fvAdd (fv l.integ) (fvMul (s.coef n Coef.ki) e)
    let v := sum integ
    let out := fClamp v omin omax
    { l with integ := integ.w, out := some out.w, sat := fLt out.w v.w || fLt v.w out.w }

/-! Ramp (R287) -/

/-- A RAMP pass: its output, and whether SAFE is reached. -/
def State.loopRamp (s : State) (n : Nat) (l : Loop) : Loop × Bool :=
  let safe := s.coef n Coef.safe
  let m := l.m + 1
  let move := fvMul (fInt m) (s.coef n Coef.ramp)
  let v := if fLt safe.w l.outH then fvMax (fvSub (fv l.outH) move) safe
    else if fLt l.outH safe.w then
      let u := fvAdd (fv l.outH) move
      if fLt safe.w u.w then safe else u
    else safe
  let done := fLe v.w safe.w && fLe safe.w v.w
  ({ l with m := m, out := some (if done then safe.w else v.w), st := if done then .safe else .ramp }, done)

/-! A pass -/

/-- Commands that Table 12-5 lists for a state: 1 RUN, 2 HOLD, 3 SAFE, 4 OFF. -/
def LoopSt.takes (x : LoopSt) (cmd : Nat) : Bool :=
  match cmd, x with
  | 1, .run => false
  | 1, _ => true
  | 2, .run => true
  | 3, .run => true
  | 3, .hold => true
  | 3, .fhold => true
  | 4, .off => false
  | 4, _ => true
  | _, _ => false

/-- A loop enters RUN: from FHOLD, RAMP and SAFE the detector counts are cleared, and in OFF none are kept. The pass of entry
counts as one of RUN. -/
def Loop.toRun (l : Loop) : Loop :=
  let now (x : LoopSrc × Bool) : LoopSrc := { x.1 with miss := if x.2 then 0 else 1 }
  let l := if l.st = .hold then l
    else { l with fb := now l.got.fb, ff := now l.got.ff, frz := 0, implausible := 0, prev := none }
  { l with st := .run, cause := 0, entering := true }

/-- The pending command at the beginning of an evaluation: the loop after it, and whether it is refused. Commands written during
a supervisor restart wait (R291). -/
def State.loopTake (s : State) (n : Nat) (l : Loop) : Loop × Bool :=
  match l.cmd with
  | none => (l, false)
  | some c =>
    if !s.pwr.supRuns then (l, false)
    else
      let l := { l with cmd := none }
      if !l.st.takes c then (l, true)
      else match c with
        | 1 => (l.toRun, false)
        | 2 => ({ l with st := .hold, entering := false }, false)
        | 3 => ({ l with st := .ramp, cause := 6, m := 0, outH := (s.loopOut n l).w, entering := false }, false)
        | _ => ({ l with st := .off, cause := 0, prev := none, entering := false }, false)

/-- The owner, if any, is in service. -/
def State.loopOwnerIn (s : State) (n : Nat) : Bool :=
  !s.flag .LOP_OWN 31 n || decide ((s.tenant (s.fld .LOP_OWN 11 0 n)).svc = .in_)

/-- What the loop writes in its state (R283, R287). -/
def State.loopCompute (s : State) (n : Nat) (fresh : Bool) : State :=
  let l := s.loop n
  let repeat_ (l : Loop) : Loop := { l with out := some (s.loopOut n l).w }
  match l.st with
  | .off => s
  | .run => s.setLoop n (if fresh then s.loopLaw n l else repeat_ l)
  | .hold => s.setLoop n (repeat_ l)
  | .fhold =>
    if s.fld .LOP_HOLD 15 0 n ≤ l.held ∧ 0 < l.held then
      let (l, safe) := s.loopRamp n { l with m := 0, outH := (s.loopOut n l).w }
      applyIf safe (·.setFlag .LOP_STAT 1) (s.setLoop n l)
    else s.setLoop n { repeat_ l with held := l.held + 1 }
  | .ramp =>
    let (l, safe) := s.loopRamp n l
    applyIf safe (·.setFlag .LOP_STAT 1) (s.setLoop n l)
  | .safe => s.setLoop n { l with out := some (s.coef n Coef.safe).w }

/-- The output write (R288): it reaches the loop port of the point database with the owner's generation, and is applied after
every other write of its cycle. -/
def State.loopWrite (s : State) (n : Nat) (time : Nat) : State :=
  let l := s.loop n
  match l.st, l.out with
  | .off, _ => s
  | _, none => s
  | st, some w =>
    let q := if st = .run ∨ st = .hold then 0 else 131
    let h := s.rg .LOP_OUTH n
    let owner := if s.flag .LOP_OWN 31 n then s.fld .LOP_OWN 11 0 n else noOwner
    if badHandle h then s.pointBad
    else s.pntQueue { tenant := owner, gen := (s.tenant owner).gen, bnd := Bnd.loopPort, handle := h, cls := 4,
                      point := { value := w, quality := q, type := 3, info := 13, time := time } }

/-- In RUN and HOLD the detectors act. -/
def LoopSt.watched (x : LoopSt) : Bool := decide (x = .run ∨ x = .hold)

/-- The state of a loop at its evaluation: the command takes effect, or an OFF loop with AUTORUN enters RUN; a detector that fires
in the state before or after prevails, and so does a loss of the owner; then the command is spent (R285, R286, R291). -/
def State.loopState (s : State) (n : Nat) (l : Loop) : State :=
  let fresh := l.got.fb.2
  let hit := l.ownerHit && decide (l.st ≠ .off)
  let (l1, refused) := s.loopTake n { l with ownerHit := false }
  let auto_ := decide (l.st = .off ∧ l1.st = .off) && s.flag .LOP_OWN 30 n && s.loopOwnerIn n && fresh
  let l1 := if auto_ then l1.toRun else l1
  let d := if l1.st.watched && !hit then l1 else { l with ownerHit := false, cmd := l1.cmd }
  let (d, cause) := if d.st.watched then s.loopDetect n fresh d else (d, none)
  match cause with
  | some c => (s.setLoop n d).loopFault n c
  | none =>
    if hit then (s.setLoop n d).loopFault n 5
    else applyIf refused (·.setFlag .LOP_STAT 6) (s.setLoop n (if l1.st.watched then d else l1))

/-- One loop in a pass: inputs, state, law, output. -/
def State.loopEval (time : Nat) (s : State) (n : Nat) : State :=
  let l := s.loop n
  let fresh := l.got.fb.2
  let l := s.loopSetPoint n { l with fb := l.got.fb.1, ff := l.got.ff.1 }
  let s := applyIf (l.spLost && !(s.loop n).spLost) (·.setFlag .LOP_STAT 2) s
  let s := (s.loopState n l).loopCompute n fresh
  let l := s.loop n
  let s := if fresh then s.setLoop n { l with prev := match l.st, l.out with
    | .off, _ => none
    | _, some o => some (l.fb.val, o)
    | _, none => none } else s
  s.loopWrite n time

/-- Pulse counts at the pass latch (R282). -/
def State.pulseLatch (pass : Nat) (s : State) (p : Nat) : State :=
  let x : Pulse := Tbl.get {} s.lop.pulses p
  let gate := max 1 (s.fld .LOP_PULSECFG 15 0 p)
  let hist := (if x.edges = 0 then x.hist else (pass, x.edges) :: x.hist).filter fun e => decide (pass < e.1 + gate)
  let idle := if x.edges = 0 then min 65535 (x.idle + 1) else 0
  let s := { s with lop := { s.lop with pulses := Tbl.put {} s.lop.pulses p { edges := 0, hist := hist, idle := idle } } }
  let s := s.setRg .LOP_PULSECNT ((hist.map (·.2)).foldl (· + ·) 0) p
  if max 1 (s.fld .LOP_PULSECFG 31 16 p) ≤ idle then s.setFlag .LOP_PSTAT p else s

/-- The inputs of one loop at the pass latch (R280). -/
def State.loopLatch (s : State) (n : Nat) : State :=
  let l := s.loop n
  s.setLoop n { l with got := { fb := s.srcRead (s.rg .LOP_FBSRC n) l.fb, ff := s.srcRead (s.rg .LOP_FFSRC n) l.ff,
                                sp := s.srcRead (s.rg .LOP_SPSRC n) l.spx } }

/-- The pass latch: pulse counts, then the sources of every loop (R279 to R282). -/
def State.passLatch (s : State) (p : LoopPass) : State :=
  let s := (List.range 4).foldl (State.pulseLatch (s.rg .LOP_PASSCNT)) s
  let s := p.rest.foldl State.loopLatch s
  { s with lop := { s.lop with seen := s.adc.count, pass := some { p with latched := true } } }

/-- The loop whose turn has come reads its words and its command and writes its output (Table 12-3). -/
def State.loopTurn (s : State) : State :=
  match s.lop.pass with
  | some p =>
    match p.rest with
    | n :: rest =>
      if p.from_ + 500 + 160 * p.q ≤ s.frc then
        State.loopEval (stampNs p.stamp) { s with lop := { s.lop with pass := some { p with q := p.q + 1, rest := rest } } } n
      else s
    | [] => { s with lop := { s.lop with pass := none } }
  | none => s

/-- The pass in progress goes on at an FRC count: its latch 0.5 µs after the start, then each loop in its turn (R279). -/
def State.passTick (s : State) : State :=
  match s.lop.pass with
  | some p =>
    if s.frc < p.from_ + 500 then s
    else iterUpto (p.rest.length + 1) (fun _ => State.loopTurn) (if p.latched then s else s.passLatch p)
  | none => s

/-- A pass begins (R278, R279). Its length, beyond the last turn, is open up to the bound. -/
def State.loopPass (s : State) (stamp : Stamp) (free : Bool) : State :=
  let nloop := min 64 (s.fld .LOP_CFG 22 16)
  let (v, s) := s.freeNext
  let len := if nloop = 0 then 500 else 340 + 160 * nloop + min 160 v
  let s := s.setRg .LOP_PASSCNT ((s.rg .LOP_PASSCNT + 1) % 2 ^ 64)
  let s := s.setRg .LOP_PASSTIME (len + 2 ^ 16 * max len (s.fld .LOP_PASSTIME 31 16))
  let p : LoopPass := { stamp := stamp, from_ := s.frc, rest := s.lop.order.take nloop }
  { s with lop := { s.lop with last := some s.frc, free := free, busyTo := s.frc + len, pass := some p } }

/-- A start edge at internal target 3 (R278). -/
def execLoopPass (s : State) :=
  match Tbl.get [] s.edges 3 with
  | [] => done s
  | e :: rest =>
    let s := { s with edges := Tbl.put [] s.edges 3 rest }
    if !s.domOn 11 then done s
    else match s.lop.last with
      | none => done (s.loopPass e.stamp false)
      | some f =>
        if s.lop.free && decide (e.frc ≤ f + 2 * us) then done { s with lop := { s.lop with free := false } }
        else if e.frc < s.lop.busyTo then
          done ((s.setFld .LOP_EV 15 8 (satInc 8 (s.fld .LOP_EV 15 8))).setFlag .LOP_STAT 3)
        else if (e.frc - f) * 2 * rateHz (s.fld .LOP_CFG 1 0) < sec then
          done ((s.setFld .LOP_EV 7 0 (satInc 8 (s.fld .LOP_EV 7 0))).setFlag .LOP_STAT 4)
        else done (s.loopPass e.stamp false)

/-- No start edge within Ts + 2 µs: the engine starts the pass itself (R278). -/
def execLoopFreewheel (s : State) :=
  match s.lop.last with
  | none => done s
  | some f =>
    if s.domOn 11 && (Tbl.get [] s.edges 3).isEmpty &&
        decide (f + 2 * us ≤ s.frc ∧ sec ≤ (s.frc - f - 2 * us) * rateHz (s.fld .LOP_CFG 1 0)) then
      let s := (s.setFld .LOP_EV 31 16 (satInc 16 (s.fld .LOP_EV 31 16))).setFlag .LOP_STAT 5
      done ((s.fire 31 0).loopPass s.dt true)
    else done s

/-! Commands (R286) and coefficients (R289, R290) -/

/-- A write of LOP_CMD. -/
def State.loopCmd (s : State) (n cmd : Nat) : State :=
  let l := s.loop n
  if l.st.takes cmd then s.setLoop n { l with cmd := some cmd } else s.setFlag .LOP_STAT 6

def execLoopRun (n : Nat) (s : State) := if n < 64 then done (s.loopCmd n 1) else done s
def execLoopHold (n : Nat) (s : State) := if n < 64 then done (s.loopCmd n 2) else done s
def execLoopSafe (n : Nat) (s : State) := if n < 64 then done (s.loopCmd n 3) else done s
def execLoopOff (n : Nat) (s : State) := if n < 64 then done (s.loopCmd n 4) else done s

/-- The checks of R290 on coefficient w, the other words as `get` gives them. -/
def coefOk (get : Nat → Nat) (w v : Nat) : Bool :=
  let g (i : Nat) : Nat := if i = w then v else get i
  if fSpecial v then false
  else if w = Coef.omin ∨ w = Coef.omax ∨ w = Coef.safe then
    fLe (g Coef.omin) (g Coef.omax) && fLe (g Coef.omin) (g Coef.safe) && fLe (g Coef.safe) (g Coef.omax)
  else if w = Coef.ramp then fLt 0 v
  else if w = Coef.escale ∨ w = Coef.spslew then fLe 0 v
  else if w = Coef.pa then fLe 0 v && fLe v f1.w
  else true

def execCoefWrite (n w v : Nat) (s : State) :=
  if 64 ≤ n ∨ 14 ≤ w then done s
  else if coefOk (fun i => s.rg .LOP_COEF n i) w (v % 2 ^ 32) then done (s.setRg .LOP_COEF (v % 2 ^ 32) n w)
  else done (s.setFlag .LOP_STAT 7)

def execGainWrite (g i v : Nat) (s : State) :=
  if 64 ≤ g ∨ 256 ≤ i then done s
  else if fSpecial (v % 2 ^ 32) then done (s.setFlag .LOP_STAT 7)
  else done (s.setRg .LOP_GAIN (v % 2 ^ 32) g i)

def execLopEvRead (q : Requester) (s : State) := done (s.readClear q .LOP_EV)
def execLopFcntRead (q : Requester) (n : Nat) (s : State) := done (s.readClear q .LOP_FCNT n)

/-- A rising edge on PULSE_INp; the glitch filter ignores levels of less than 100 ns (R282). -/
def execPulseInEdge (x : PulseEdge) (s : State) :=
  let p := x.input
  if p < 4 && decide (100 ≤ x.low ∧ 100 ≤ x.high) && s.domOn 11 then
    let s := { s with lop := { s.lop with pulses := Tbl.upd {} s.lop.pulses p fun x => { x with edges := x.edges + 1 } } }
    done (s.clrFlag .LOP_PSTAT p)
  else done s

end Sys2Proof.Machine
end

