-- ==== Sys2Proof/Machine/Publisher.lean ====
section
/-! DEFINITION. The GOOSE publisher (R205 to R215, R223) and the entry of its state frames into pair agreement (R238 to
R242). -/
namespace Sys2Proof.Machine

def State.setPub (s : State) (i : Nat) (p : Pub) : State :=
  { s with goose := { s.goose with pubs := Tbl.put {} s.goose.pubs i p } }
def Pub.inc (p : Pub) (k : Nat) : Pub := { p with cnt := Tbl.upd 0 p.cnt k (satInc 32) }

/-- The publication entry of a tenant and PUBNO. -/
def State.pubOf (s : State) (t no : Nat) : Option Nat :=
  (s.goose.pubs.find? fun e => match e.2.cfg with
    | some c => decide (c.tenant = t ∧ c.pubno = no)
    | none => false).map (·.1)

/-- The publication entries of a tenant. -/
def State.pubsOf (s : State) (t : Nat) : List Nat :=
  (s.goose.pubs.filter fun e => match e.2.cfg with
    | some c => decide (c.tenant = t)
    | none => false).map (·.1)

/-- The cycle count and rate of a publication's group. -/
def State.cycleOf (s : State) (t : Nat) : Nat := s.rg .ELA_GRPCNT (s.groupOf t)
def State.fgOf (s : State) (t : Nat) : Nat := s.groupHz (s.groupOf t)

/-- S of R207: ⌈250 µs × Fg⌉ cycles. -/
def spacing (fg : Nat) : Nat := (250 * fg + 999999) / 1000000

/-- timeAllowedToLive of an interval in cycles (R208). -/
def talOf (talx i fg : Nat) : Nat := (talx * i * 1000 + fg - 1) / fg

/-- Cycles from a to b, modulo 2^64. -/
def cyclesSince (a b : Nat) : Nat := (b + 2 ^ 64 - a) % 2 ^ 64

/-- The next number after n, of stNum or sqNum (R206). -/
def nextNum (n : Nat) : Nat := if n = 2 ^ 32 - 1 then 1 else n + 1

/-- t of a request's stamp (R210). -/
def State.utc (s : State) (t : Stamp) : Nat × Nat × Nat :=
  let ns := stampNs t
  let v := s.rg .GPB_UTCOFS
  let sec := (ns / 1000000000 + 2 ^ 32 - bits v 15 0) % 2 ^ 32
  let q := (if bit v 31 then 128 else 0) + (if s.locked then 20 else 32 + 31)
  (sec, ns % 1000000000 * 2 ^ 24 / 1000000000, q)

/-- Length of a BER element with n octets of content. -/
def berLen (n : Nat) : Nat := if n < 128 then n + 2 else if n < 256 then n + 3 else n + 4
/-- Octets of a BER integer. -/
def berInt (v : Nat) : Nat := if v < 128 then 1 else Nat.log2 (2 * v) / 8 + 1

/-- Octets of one value of a member type. -/
def memLen (t : MemType) (v : W32) : Nat :=
  match t with
  | .b => 3
  | .f => 7
  | .s => let n := signed 32 v.toNat; 2 + berInt (if n < 0 then (-n - 1).toNat else n.toNat)
  | .u => 2 + berInt v.toNat

/-- allData of a state (Table 09-4). -/
def allDataOf (c : PubCfg) (vals : List W32) (quals : List Nat) : List GooseMember :=
  (List.range c.nmem).flatMap fun i =>
    let ty := c.mtypes.getD i .b
    let v := vals.getD i 0
    let v := match ty with | .b => BitVec.ofNat 32 (v.toNat % 2) | _ => v
    .value ty v :: (if c.valueOnly then [] else [.quality (quals.getD i 0 % 2 ^ 13)])

/-- The length of a publication frame, FCS included, without trailer or HSR tag. -/
def gooseLen (c : PubCfg) (g : GoosePdu) : Nat :=
  let data := (g.allData.map fun m => match m with | .value t v => memLen t v | .quality _ => 5).foldl (· + ·) 0
  let pdu := berLen c.gocbRef.length + (2 + berInt g.tal) + berLen c.datSet.length + berLen c.goId.length + 10 +
    (2 + berInt g.stNum) + (2 + berInt g.sqNum) + 3 + (2 + berInt c.confRev) + 3 + (2 + berInt g.entries) + berLen data
  12 + 4 + 2 + 8 + berLen pdu + (if g.tag.isSome then 34 else 0) + 4

/-- The frame of a state (R209). -/
def pubFrame (c : PubCfg) (st : PubState) (sq tal : Nat) (tag : Option MacTag) : Frame :=
  let g : GoosePdu :=
    { appid := c.appid, gocbRef := c.gocbRef, datSet := c.datSet, goId := c.goId, simulation := c.sim, tal := tal,
      tSec := st.tSec, tFrac := st.tFrac, tQual := st.tQual, stNum := st.stNum, sqNum := sq, confRev := c.confRev,
      ndsCom := false, entries := if c.valueOnly then c.nmem else 2 * c.nmem, allData := allDataOf c st.vals st.quals,
      tag := tag }
  { da := c.da, sa := c.sa, vlan := some { pcp := c.pcp, vid := c.vid }, etherType := 0x88B8, payload := .goose g,
    len := gooseLen c g }

/-- The redundancy sequence number of a publication frame (R240). -/
def pubSeq (own : Bool) (side cycle pubno : Nat) : Nat :=
  (if own then side * 2 ^ 15 else 0) + (cycle + 2048 * pubno) % 32768

/-- The ports of a node. -/
def State.nodePorts (s : State) (node : Nat) : List Nat :=
  s.portsOf fun r => decide (nodeOf r = some node)

/-- The builder (R209, R213, R244): a frame without key, or of a silenced tenant, is not sent. -/
def State.pubOut (s : State) (i cycle sq tal : Nat) (st : PubState) (isState own : Bool) : State :=
  let p := s.pub i
  match p.cfg with
  | none => s
  | some c =>
    let key := if c.auth = 2 then s.usableKey c.keySlot Use.gooseGen (some c.tenant) else some 0
    match key with
    | none => ((s.setPub i (p.inc 4)).setFlag .GPB_STAT 2).fire 17 i
    | some k =>
      if (s.parTen c.tenant).silenced then s.parInc c.tenant 6
      else
        let tag : Option MacTag := if c.auth = 2 then some { key := k } else none
        let s := s.setPub i ({ p with sentSt := st.stNum, sentSq := sq }.inc (if isState then 0 else 1))
        let seq := pubSeq own s.pwr.side cycle c.pubno
        s.originate 12 .publisher (pubFrame c st sq tal tag) 7 { ports := s.nodePorts (b2n c.st) } true fun _ s => (s, seq)

/-- DIVRUN has come to DIVPERSIST (R243). -/
def State.disPersist (s : State) (run : Nat) : State :=
  match s.par.cfg with
  | some c => if run = c.divPersist then s.setFlag .PAR_STAT 2 else s
  | none => s

/-- A disagreement of a tenant opens (R243). -/
def State.disOpen (s : State) (t : Nat) : State :=
  let p := s.parTen t
  if p.open_ then s else ((s.setParTen t { p with open_ := true, divrun := 1 }).parInc t 4).disPersist 1

/-- A state in agreement is released (Table 10-5). -/
def State.agreeRelease (s : State) (a : Agree) (own : Bool) : State :=
  let p := s.pub a.entry
  let s := { s with par := { s.par with agree := s.par.agree.filter fun x => decide (x ≠ a) } }
  match p.cfg, p.cur with
  | some c, some st =>
    if st.stNum = a.stNum then
      let st := { st with own := own }
      let s := s.setPub a.entry { p with cur := some st, sent := some st }
      s.pubOut a.entry a.cycle 0 (talOf c.talx c.mint (s.fgOf c.tenant)) st true own
    else s
  | _, _ => s

/-- The partner's DIGEST meets the local state: AGREED or DIVERGED (Table 10-5); divergence with equal INDIG is a hardware
suspicion (R245). -/
def State.agreeMeet (s : State) (a : Agree) (d : DigestRec) : State :=
  let opened := (s.parTen a.tenant).open_
  if d.cdig = a.cdig then (s.parInc a.tenant 0).agreeRelease a opened
  else
    let s := ((s.parInc a.tenant 1).setFlag .PAR_STAT 1).disOpen a.tenant
    let s := if d.indig = a.indig then { s with sge := { s.sge with suspect := true } } else s
    ((s.fire 21 a.tenant).almond 9).agreeRelease a true

/-- Octets of a number, the first most significant. -/
def beOctets (n v : Nat) : List Byte := (leBytes n v).reverse

/-- A BER element: tag, length, content. -/
def berTlv (tag : Nat) (content : List Byte) : List Byte :=
  let n := content.length
  let len := if n < 128 then [n] else if n < 256 then [0x81, n] else [0x82, n / 256, n % 256]
  (tag :: len).map (BitVec.ofNat 8) ++ content

/-- A BER integer in its shortest form. -/
def berNat (tag v : Nat) : List Byte := berTlv tag (beOctets (berInt v) v)

/-- One member of allData in BER (Table 09-4). PRESUMED: the tags and forms of IEC 61850-8-1, which the spec names but does not
restate; a bit-string carries its unused bits first, bit 0 leads, and true is 1. -/
def GooseMember.ber : GooseMember → List Byte
  | .value .b v => berTlv 0x83 [BitVec.ofNat 8 (v.toNat % 2)]
  | .value .s v =>
    let n := signed 32 v.toNat
    let k := berInt (if n < 0 then (-n - 1).toNat else n.toNat)
    berTlv 0x85 (beOctets k (v.toNat % 256 ^ k))
  | .value .f v => berTlv 0x87 (8 :: beOctets 4 v.toNat)
  | .value .u v => berNat 0x86 v.toNat
  | .quality q => berTlv 0x84 (3 :: beOctets 2 ((List.range 13).foldl (fun n i => if bit q i then n + 2 ^ (15 - i) else n) 0))

/-- allData in BER. -/
def berData (l : List GooseMember) : List Byte := berTlv 0xAB (l.flatMap GooseMember.ber)

/-- Publication content (R211) and CDIG, the first 128 bits of its SHA-384 (R238). DESIGN CHOICE: TENANT and PUBNO, which are no
fields of Table 09-4, lead in two octets and one; the fields follow in the order of R211. -/
def cdigOf (c : PubCfg) (st : PubState) (tal : Nat) : Nat :=
  Config.sha384 (beOctets 2 c.tenant ++ beOctets 1 c.pubno ++ berNat 0x85 st.stNum ++ berNat 0x86 0 ++ berNat 0x81 tal ++
    berData (allDataOf c st.vals st.quals)) / 2 ^ 256

/-- A state frame enters agreement: its DIGEST is sent, and a DIGEST of the partner that waits for it decides (R238,
R239). -/
def State.agreeEnter (s : State) (i : Nat) (c : PubCfg) (st : PubState) (n : Nat) : State :=
  let q := s.parTen c.tenant
  let a : Agree := { entry := i, tenant := c.tenant, pubno := c.pubno, cycle := n % 2 ^ 32,
                     cdig := cdigOf c st (talOf c.talx c.mint (s.fgOf c.tenant)), indig := q.indig, stNum := st.stNum, tr := s.frc }
  let d : DigestRec := { tenant := c.tenant, pubno := c.pubno, side := s.pwr.side, silenced := q.silenced, cycle := a.cycle,
                         stNum := st.stNum, compl := q.compl64, indig := q.indig, cdig := a.cdig }
  let s := { s with par := { s.par with agree := s.par.agree ++ [a] } }.parSendFor c.tenant (.digest d)
  let mine (h : HeldDigest) : Bool :=
    decide (h.rec_.tenant = a.tenant ∧ h.rec_.pubno = a.pubno ∧ h.rec_.cycle = a.cycle)
  match s.par.digs.find? mine with
  | some h => { s with par := { s.par with digs := s.par.digs.filter fun x => !mine x } }.agreeMeet a h.rec_
  | none => s

/-- A state is released in cycle n (R207, R208, R212, R241). -/
def State.pubRelease (s : State) (i : Nat) (st : PubState) (n : Nat) : State :=
  let p := s.pub i
  match p.cfg with
  | none => s
  | some c =>
    let s := s.setPub i { p with cur := some st, pending := none, stateCycle := some n, frameCycle := some n, sq := 0,
                                 interval := c.mint, due := some ((n + c.mint) % 2 ^ 64) }
    let direct (s : State) : State :=
      let s := s.setPub i { s.pub i with sent := some st }
      s.pubOut i n 0 (talOf c.talx c.mint (s.fgOf c.tenant)) st true true
    if st.fail then
      let would := s.classH c.tenant && s.pairAligned c.tenant && decide (c.tenant ∈ s.par.peerRun)
      direct (if would then s.disOpen c.tenant else s)
    else if s.inForce c.tenant then s.agreeEnter i c st n
    else direct s

/-- The spacing of R207 allows a state frame in cycle n. -/
def Pub.mayState (p : Pub) (fg n : Nat) : Bool :=
  (match p.stateCycle with | some c => decide (spacing fg ≤ cyclesSince c n) | none => true) &&
  decide (p.frameCycle ≠ some n)

/-- A request makes a new state, which is released or held pending; an equal one counts as SAME (R205 to R207). A fail
request that equals the pending state stands in its place (R215). Of two scheme requests of one cycle the later stands, and
COALESCED counts the first (R222): the first is not released while the second waits (`hold`). DESIGN CHOICE: a first one
whose frame was already sent counts all the same, and the later one is pending. -/
def State.pubState (s : State) (i : Nat) (r : PubReq) (stamp : Stamp) (hold : Bool) : State :=
  let p := s.pub i
  match p.cfg with
  | none => s
  | some c =>
    let n := s.cycleOf c.tenant
    let fail := r.bnd.isNone
    let scheme := if r.bnd = some Bnd.schPub then some r.cycle else none
    let newest := match p.pending with | some x => some x | none => p.cur
    let same := match newest with | some x => decide (x.vals = r.vals ∧ x.quals = r.quals) | none => false
    if same then
      let p := p.inc 3
      s.setPub i (if fail then { p with pending := p.pending.map fun x => { x with fail := true } } else p)
    else
      let no := nextNum p.stNum
      let (sec, frac, q) := s.utc stamp
      let st : PubState := { vals := r.vals, quals := r.quals, stNum := no, tSec := sec, tFrac := frac, tQual := q,
                             fail := fail, scheme := scheme }
      let twice := scheme.isSome && (match p.cur with | some x => decide (x.scheme = scheme) | none => false)
      let again := p.pending.isSome || twice
      let p := { (if again then p.inc 2 else p) with stNum := no, silent := false, pending := some st }
      let s := applyIf again (·.setFlag .GPB_STAT 1) (s.setPub i p)
      if p.mayState (s.fgOf c.tenant) n && !hold then s.pubRelease i st n else s

/-- A later scheme request of the same cycle waits for the same publication (R222). -/
def State.pubHeld (s : State) (r : PubReq) : Bool :=
  decide (r.bnd = some Bnd.schPub) && s.goose.reqs.any fun x =>
    decide (x.bnd = some Bnd.schPub ∧ x.tenant = r.tenant ∧ x.gen = r.gen ∧ x.pubno = r.pubno ∧ x.cycle = r.cycle)

/-- The publisher takes the oldest publication request (R205, R215). -/
def State.takePubRequest (s : State) : State :=
  match s.goose.reqs with
  | [] => s
  | r :: rest =>
    let s := { s with goose := { s.goose with reqs := rest } }
    if r.gen ≠ (s.tenant r.tenant).gen then s
    else
      let s := match r.bnd with | some b => s.giveCredit b r.tenant | none => s
      match s.pubOf r.tenant r.pubno with
      | none => s
      | some i =>
        match r.bnd with
        | none => ((s.setPub i ((s.pub i).inc 5)).setFlag .GPB_STAT 0).pubState i r r.stamp false
        | some b => s.pubState i r (if b = Bnd.schPub then s.dt else r.stamp) (s.pubHeld r)

/-- A pending state of the entry may be released in the present cycle of its group (R207). -/
def State.pubReady (s : State) (i : Nat) : Bool :=
  match (s.pub i).cfg with
  | some c => (s.pub i).pending.isSome && (s.pub i).mayState (s.fgOf c.tenant) (s.cycleOf c.tenant)
  | none => false

/-- A retransmission of the entry is due and may be sent in the present cycle of its group (R207, R208). -/
def State.pubDue (s : State) (i : Nat) : Bool :=
  let p := s.pub i
  match p.cfg, p.due with
  | some c, some d =>
    let n := s.cycleOf c.tenant
    p.cur.isSome && !p.silent && !s.pubReady i && decide (p.frameCycle ≠ some n ∧ cyclesSince d n < 2 ^ 63)
  | _, _ => false

/-- Frames that fall due at the start of a cycle are built in the order of the cycle's start, then by tenant, then by PUBNO
(R214): the place of an entry. -/
def State.pubPlace (s : State) (i : Nat) : Nat × Nat × Nat :=
  match (s.pub i).cfg with
  | some c => (match (s.group (s.groupOf c.tenant)).start with | some p => p.frc | none => 0, c.tenant, c.pubno)
  | none => (0, 0, 0)

def pubBefore (a b : Nat × Nat × Nat) : Bool :=
  decide (a.1 < b.1 ∨ (a.1 = b.1 ∧ (a.2.1 < b.2.1 ∨ (a.2.1 = b.2.1 ∧ a.2.2 < b.2.2))))

/-- No entry in question stands before the entry i at the builder. -/
def State.pubFirst (s : State) (due : Nat → Bool) (i : Nat) : Bool :=
  s.goose.pubs.all fun e => !due e.1 || !pubBefore (s.pubPlace e.1) (s.pubPlace i)

/-- At the first cycle that its spacing allows, a pending state is released (R207), in the builder's order (R214): before its
turn it stays pending. -/
def execPendingRelease (i : Nat) (s : State) :=
  let p := s.pub i
  match p.cfg, p.pending with
  | some c, some st =>
    if s.pubReady i && s.pubFirst s.pubReady i then done (s.pubRelease i st (s.cycleOf c.tenant)) else done s
  | _, _ => done s

/-- A retransmission falls due (R208, R241); it is built after the states that may be released, in the builder's order
(R214): before its turn it stays due. -/
def execRetransmission (i : Nat) (s : State) :=
  let p := s.pub i
  match p.cfg, p.cur with
  | some c, some st =>
    if !s.pubDue i || s.goose.pubs.any (fun e => s.pubReady e.1) || !s.pubFirst s.pubDue i then done s
    else
      let n := s.cycleOf c.tenant
      let iv := min (2 * p.interval) c.maxt
      let sq := nextNum p.sq
      let s := s.setPub i { p with sq := sq, interval := iv, due := some ((n + iv) % 2 ^ 64), frameCycle := some n }
      let own := if s.classH c.tenant then st.own || (s.parTen c.tenant).open_ else true
      done (s.pubOut i n sq (talOf c.talx iv (s.fgOf c.tenant)) st false own)
  | _, _ => done s

/-- A tenant reset (R215): pending states and states in agreement are discarded, publications fall silent. Their last state
is known only to receivers: the next request makes a new one. -/
def State.pubReset (s : State) (t : Nat) : State :=
  let s := { s with par := { s.par with agree := s.par.agree.filter fun a => decide (a.tenant ≠ t) } }
  (s.pubsOf t).foldl (fun (s : State) i =>
    let p := s.pub i
    s.setPub i { p with pending := none, cur := none, sent := none, silent := true, due := none }) s

def execGpbClearSel (s : State) :=
  let i := s.fld .GPB_PSEL 12 0
  let put (x : Pub) (c : Tbl Nat) : Pub := { x with cnt := c }
  done { s with goose := { s.goose with pubs := Tbl.recountAt {} s.goose.pubs s.now.pubs i Pub.cnt put },
                now := { s.now with pubs := Tbl.recountAt {} s.now.pubs s.now.pubs i Pub.cnt put } }
def execGpbClearAll (s : State) :=
  let put (x : Pub) (c : Tbl Nat) : Pub := { x with cnt := c }
  done { s with goose := { s.goose with pubs := Tbl.recount {} s.goose.pubs s.now.pubs Pub.cnt put },
                now := { s.now with pubs := Tbl.recount {} s.now.pubs s.now.pubs Pub.cnt put } }

end Sys2Proof.Machine
end

