-- ==== Sys2Proof/Machine/Layout.lean ====
section
/-! DEFINITION. The sections of an image or a record, taken apart from their bytes; a section that breaks a limit or the
layout yields none (R34, R35, code LIMIT). -/
namespace Sys2Proof.Machine

/-- f of 0 to n − 1, if each yields a value. -/
def collect {α : Type} (n : Nat) (f : Nat → Option α) : Option (List α) := (List.range n).mapM f

/-- A value that satisfies a condition. -/
def ensure {α : Type} (ok : Bool) (a : α) : Option α := if ok then some a else none

/-- No number occurs twice. -/
def distinct : List Nat → Bool
  | [] => true
  | a :: rest => !rest.contains a && distinct rest

def sum (l : List Nat) : Nat := l.foldl (· + ·) 0

/-- A signed field of n bytes. -/
def bint (b : Bytes) (o n : Nat) : Int := signed (8 * n) (bnum b o n)

/-! PORTS, DOMAINS, HOST, TILES -/

/-- R86, R87. -/
def portEntry (b : Bytes) : Option PortEntry :=
  let e : PortEntry :=
    { role := bnum b 0 1, speed := bnum b 1 1, flags := bnum b 2 1, maxfrm := bnum b 3 1, pfcMask := bnum b 4 1,
      upHold := bnum b 5 1, downFilt := bnum b 6 2, pauseCap := bnum b 8 2, rxIdle := bnum b 10 2 }
  let fec := bit e.flags 0
  let an := bit e.flags 1
  let act := bit e.flags 2 || bit e.flags 3
  let quiet := decide (e.role = Role.pbA ∨ e.role = Role.pbB ∨ e.role = Role.partner)
  ensure (decide (e.role ≤ 6 ∧ e.speed ≤ 2 ∧ e.flags < 16 ∧ e.maxfrm ≤ 2 ∧ 1 ≤ e.upHold ∧ 1 ≤ e.downFilt ∧
      e.downFilt ≤ 1000 ∧ 1 ≤ e.pauseCap ∧ e.pauseCap ≤ 10000 ∧ e.rxIdle ≤ 16383) && bzero b 12 16 &&
    !(fec && decide (e.speed ≠ 0)) && !(an && decide (e.speed ≠ 2)) && !(act && quiet) &&
    !(decide (e.pfcMask ≠ 0) && !bit e.flags 3) && !(decide (e.role = Role.partner ∧ e.maxfrm ≠ 2))) e

/-- R109 and the PARTNER rule of Table 02-2. -/
def portsSection (b : Bytes) (len : Nat) : Option (List PortEntry) := do
  let l ← collect 8 fun n => portEntry (bcut b (16 * n) 16)
  let count (r : Nat) : Nat := (l.filter fun (e : PortEntry) => decide (e.role = r)).length
  ensure (decide (len = 128 ∧ count Role.partner = 1 ∧ count Role.pbA ≤ 2 ∧ count Role.pbB ≤ 2 ∧ count Role.stA ≤ 1 ∧
    count Role.stB ≤ 1)) l

/-- R387. -/
def domainsSection (b : Bytes) (len : Nat) : Option Nat :=
  let m := bnum b 0 2
  ensure (decide (len = 16) && bzero b 2 16 && [0, 1, 2, 11, 12, 13].all fun d => bit m d) m

/-- R322. -/
def hostSection (b : Bytes) (len : Nat) : Option (Bool × List Nat) :=
  let split := bnum b 0 1
  let nvf := (List.range 4).map fun h => bnum b (4 + 2 * h) 2
  ensure (decide (len = 16 ∧ split ≤ 1) && bzero b 1 4 && bzero b 12 16 && nvf.all (fun n => decide (n ≤ 1024)) &&
    (decide (split = 1) || bzero b 6 12)) (decide (split = 1), nvf)

/-- Tile cycles per window of a rate (Table 08-1). -/
def windowCycles : Nat → Nat
  | 0 => 9360
  | 1 => 7800
  | _ => 2592

/-- R56. -/
def tilesSection (b : Bytes) (len : Nat) : Option (Nat × List Nat × List TileEntry) := do
  let on := bnum b 0 16
  let groups := (List.range 4).map fun g => bnum b (16 + g) 1
  let groupOk (g : Nat) : Bool := decide (g % 128 < 4) && !(bit g 7 && decide (g % 4 = 3))
  let tile (t : Nat) : Option TileEntry :=
    let e := bcut b (32 + 72 * t) 72
    if bit on t then
      let g := groups.getD (bnum e 0 1) 0
      let x : TileEntry := { group := bnum e 0 1, wake := bnum e 1 1, budgets := (List.range 32).map fun k => bnum e (8 + 2 * k) 2 }
      ensure (decide (x.group ≤ 3 ∧ 10 ≤ x.wake ∧ x.wake ≤ 200) && bzero e 2 8 && bit g 7 &&
        x.budgets.all fun v => decide (v ≤ windowCycles (g % 4))) x
    else ensure (bzero e 0 72) {}
  let l ← collect 128 tile
  ensure (decide (len = 9248) && groups.all groupOk && bzero b 20 32) (on, groups, l)

/-! TENANTS -/

/-- A handle range (Table 15-2), COUNT 0 or not; none where a reserved bit is set or it runs past the last handle (R6, R329). -/
def rangeEntry (b : Bytes) : Option Range :=
  let w := bnum b 4 4
  let r : Range := { first := bnum b 0 4, count := bits w 25 0, read := bit w 31, write := bit w 30 }
  ensure (decide (bits w 29 26 = 0 ∧ r.first + r.count ≤ 33554432) && !badHandle r.first) r

/-- A TENANTS entry (R328, R329), with the number of links that SPLIT provides; it yields no tenant where EN is clear, but its
fields keep their ranges then too (R35). -/
def tenantEntry (links : Nat) (b : Bytes) : Option (Option TenantCfg) := do
  let fl := bnum b 0 1
  let ranges ← collect 8 fun i => rangeEntry (bcut b (8 + 8 * i) 8)
  let fmode := bnum b 80 16
  let mode (m : Nat) : Nat := fmode / 4 ^ m % 4
  let modes := (List.range 64).map mode
  let c : TenantCfg :=
    { classC := bit fl 1, rank := bnum b 1 1, link := bnum b 2 1, canRights := bnum b 3 1, vf := bnum b 4 2, tile := bnum b 6 1,
      slot := bnum b 7 1, ranges := ranges.filter fun (r : Range) => decide (r.count ≠ 0),
      fails := ((List.range 64).filter fun m => decide (mode m ≠ 0)).map fun m => (m, (mode m, bnum b (96 + 4 * m) 4)) }
  ensure (decide (fl < 4 ∧ c.rank ≤ 15 ∧ c.link < links ∧ c.canRights < 16 ∧ 1 ≤ c.vf ∧ c.vf ≤ 1024 ∧ c.tile ≤ 127 ∧
      c.slot ≤ 31) && bzero b 72 80 && bzero b 352 512 && modes.all fun m => decide (m ≠ 3)) (if bit fl 0 then some c else none)

/-- The first n entries as a table. -/
def optTable {α : Type} (l : List (Option α)) : Tbl (Option α) :=
  l.zipIdx.filterMap fun (e : Option α × Nat) => e.1.map fun x => (e.2, some x)

/-- The TENANTS section of an image. -/
def tenantsSection (links : Nat) (b : Bytes) (len : Nat) : Option (Tbl (Option TenantCfg)) := do
  let l ← collect 4096 fun t => tenantEntry links (bcut b (512 * t) 512)
  ensure (decide (len = 2097152)) (optTable l)

/-! STREAMS and FILTERS -/

/-- A stream entry with its number (R138, R139). -/
def streamEntry (b : Bytes) : Option (Nat × StreamCfg) :=
  let n := bnum b 0 2
  let rate := bnum b 4 1
  let asdus := bnum b 5 1
  let legacy := decide (bnum b 6 1 = 1)
  let k := bnum b 21 1
  let c : StreamCfg :=
    { appid := bnum b 2 2, rate := rate, asdus := asdus, legacy := legacy, nch := bnum b 7 1, chtype := bnum b 8 1,
      auth := bnum b 9 1, syncAcc := bnum b 10 1, simAcc := decide (bnum b 11 1 = 1), confRev := bnum b 12 4,
      keySlot := bnum b 16 2, tmo := bnum b 18 1, gapMax := bnum b 19 1, depth := bnum b 20 1, iwin := bnum b 24 4,
      uwin := bnum b 28 4, svid := blist b 32 k }
  let asdusOk := if rate = 2 then decide (asdus = 6) && !legacy
    else decide (asdus = 1) || (decide (asdus = 2) && !legacy)
  let ok := decide (n ≤ 4095 ∧ 0x4000 ≤ c.appid ∧ c.appid ≤ 0x7FFF ∧ rate ≤ 2 ∧ bnum b 6 1 ≤ 1 ∧ 1 ≤ c.nch ∧ c.nch ≤ 8 ∧
      c.auth ≤ 2 ∧ c.syncAcc < 8 ∧ bnum b 11 1 ≤ 1 ∧ (c.auth = 0 ∨ c.keySlot ≤ 16383) ∧ 2 ≤ c.tmo ∧ c.gapMax ≤ 31 ∧ c.depth ≤ 3 ∧ 1 ≤ k ∧
      k ≤ 64) && asdusOk && bzero b 22 24 && bzero b (32 + k) 128 &&
    (!legacy || decide (c.nch = 8 ∧ c.chtype = 0xF0)) && decide (c.gapMax < c.ringDepth)
  ensure ok (n, c)

/-- Every pair of a list satisfies a relation. -/
def pairwiseB {α : Type} (f : α → α → Bool) : List α → Bool
  | [] => true
  | a :: rest => rest.all (f a) && pairwiseB f rest

/-- A table from numbered values. -/
def numTable {α : Type} [DecidableEq α] (l : List (Nat × α)) : Tbl (Option α) :=
  l.foldl (fun t (e : Nat × α) => Tbl.put none t e.1 (some e.2)) []

/-- A consumer entry: stream, tenant, MAND. -/
def consEntry (w : Nat) : Option (Nat × Nat × Bool) :=
  ensure (decide (bits w 30 24 = 0)) (bits w 11 0, bits w 23 12, bit w 31)

/-- The STREAMS section: its streams, and its consumer entries. -/
def streamsRaw (b : Bytes) (len : Nat) : Option (List (Nat × StreamCfg) × List (Nat × Nat × Bool)) := do
  let n := bnum b 0 4
  let m := bnum b 4 4
  if !(decide (1 ≤ n ∧ n ≤ 4096 ∧ m ≤ 65536 ∧ len = 16 + 128 * n + 4 * m) && bzero b 8 16) then none
  else
    let l ← collect n fun i => streamEntry (bcut b (16 + 128 * i) 128)
    let cons ← collect m fun i => consEntry (bnum b (16 + 128 * n + 4 * i) 4)
    let same (x y : Nat × StreamCfg) : Bool := decide (x.1 ≠ y.1 ∧ (x.2.appid ≠ y.2.appid ∨ x.2.svid ≠ y.2.svid))
    let once (x y : Nat × Nat × Bool) : Bool := decide (x.1 ≠ y.1 ∨ x.2.1 ≠ y.2.1)
    let most := cons.all fun c => decide ((cons.filter fun (d : Nat × Nat × Bool) => decide (d.2.1 = c.2.1)).length ≤ 64)
    ensure (pairwiseB same l && pairwiseB once cons && most) (l, cons)

/-- Streams with the consumers that name them. -/
def withConsumers (l : List (Nat × StreamCfg)) (cons : List (Nat × Nat × Bool)) : List (Nat × StreamCfg) :=
  l.map fun (e : Nat × StreamCfg) =>
    (e.1, { e.2 with consumers := (cons.filter fun (c : Nat × Nat × Bool) => decide (c.1 = e.1)).map fun (c : Nat × Nat × Bool) => c.2 })

/-- A stage descriptor (Table 07-3); `words` are the coefficient words of its section. -/
def stageEntry (b : Bytes) (k ncoef : Nat) (word : Nat → Int) : Option (StageCfg × List (Nat × Nat)) :=
  let u8 (o : Nat) : Nat := bnum b o 1
  let u16 (o : Nat) : Nat := bnum b o 2
  let src := u8 1
  let srcOk := decide (src = 0xFF ∨ src < k)
  let from_ := if src = 0xFF then none else some src
  let read (o n : Nat) : List Int := (List.range n).map fun i => word (o + i)
  let ci := u16 6
  let cu := u16 8
  match u8 0 with
  | 1 =>
    let n := u8 5 + 1
    ensure (srcOk && decide (1 ≤ u8 2 ∧ u8 2 ≤ 16 ∧ u8 3 ≤ 40 ∧ u8 4 < u8 2 ∧ u16 12 = n ∧ ci + n ≤ ncoef ∧ cu + n ≤ ncoef))
      ({ ty := .fir, src := from_, m := u8 2, shift := u8 3, phase := u8 4, n := n, coefI := read ci n, coefU := read cu n,
         gd := u16 10, memLen := n }, [(ci, n), (cu, n)])
  | 2 =>
    let n := u8 4
    ensure (srcOk && decide (u8 2 = 1 ∧ u8 3 ≤ 40 ∧ 1 ≤ n ∧ n ≤ 8 ∧ u8 5 = 0 ∧ 1 ≤ u16 12 ∧ u16 12 ≤ 1024 ∧
        ci + 5 * n ≤ ncoef ∧ cu + 5 * n ≤ ncoef))
      ({ ty := .biquad, src := from_, shift := u8 3, n := n, coefI := read ci (5 * n), coefU := read cu (5 * n), gd := u16 10,
         memLen := u16 12 }, [(ci, 5 * n), (cu, 5 * n)])
  | 3 =>
    ensure (srcOk && decide (u8 2 = 1 ∧ 4 ≤ u8 3 ∧ u8 3 ≤ 20 ∧ 1 ≤ u8 5 ∧ u16 10 = 0 ∧ 1 ≤ u16 12 ∧ u16 12 ≤ 1024))
      ({ ty := .dcb, src := from_, k := u8 3, mask := u8 4, frzHold := u8 5, frzLvl := bnum b 6 4, memLen := u16 12 }, [])
  | 4 =>
    ensure (srcOk && decide (1 ≤ u8 2 ∧ u8 2 ≤ 16 ∧ u8 3 = 0 ∧ u8 4 < u8 2 ∧ u8 5 = 0 ∧ bnum b 6 6 = 0 ∧ u16 12 = 1))
      ({ ty := .decim, src := from_, m := u8 2, phase := u8 4, memLen := 1 }, [])
  | _ => none

/-- A topology entry with its stream (Table 07-2). -/
def topoEntry (b : Bytes) (ncoef : Nat) (word : Nat → Int) (shift : Nat) : Option (Nat × TopoCfg) := do
  let n := bnum b 0 2
  let ns := bnum b 3 1
  let nt := bnum b 4 1
  let ret := bnum b 5 1
  let taps := (List.range nt).map fun t => bnum b (8 + t) 1
  if !(decide (n ≤ 4095 ∧ bnum b 2 1 ≤ 15 ∧ 1 ≤ ns ∧ ns ≤ 8 ∧ 1 ≤ nt ∧ nt ≤ 4 ∧ (ret = 0 ∨ (4 ≤ ret ∧ ret ≤ 64)) ∧
      1 ≤ bnum b 6 1 ∧ bnum b 7 1 ≤ 1 ∧ bnum b 12 2 ≤ 2047) && taps.all (fun t => decide (t < ns)) && bzero b (8 + nt) 12 &&
      bzero b 14 16 && bzero b (16 + 14 * ns) 128) then none
  else
    let st ← collect ns fun k => stageEntry (bcut b (16 + 14 * k) 14) k ncoef word
    some (n, { engine := bnum b 2 1, ret := if ret = 0 then 16 else ret, share := bnum b 6 1, offset := bnum b 12 2,
               hold := decide (bnum b 7 1 = 1), taps := taps, stages := st.map fun (e : StageCfg × List (Nat × Nat)) => e.1,
               spans := (st.flatMap fun (e : StageCfg × List (Nat × Nat)) => e.2).map fun (x : Nat × Nat) => (shift + x.1, x.2) })

/-- The FILTERS section; coefficient words count from `shift` on. -/
def filtersRaw (b : Bytes) (len shift : Nat) : Option (List (Nat × TopoCfg)) := do
  let n := bnum b 0 4
  let m := bnum b 4 4
  let base := 16 + 128 * n
  if !(decide (n ≤ 4096 ∧ m ≤ 262144 ∧ len = base + 4 * m) && bzero b 8 16) then none
  else
    let coefs := bcut b base (4 * m)
    let word (i : Nat) : Int := bint coefs (4 * i) 4
    let small := (List.range m).all fun i => decide (-(2 ^ 23 : Int) ≤ word i ∧ word i < 2 ^ 23)
    let l ← collect n fun i => topoEntry (bcut b (16 + 128 * i) 128) m word shift
    ensure (small && distinct (l.map fun (e : Nat × TopoCfg) => e.1)) l

/-! CREDITS, MEMORY, THYME, PROGRAMS -/

/-- The CREDITS section: budgets and shares (R57), their sums not compared. -/
def creditsRaw (b : Bytes) (len : Nat) : Option (List Nat × Tbl Nat) := do
  let ofs (k : Nat) : Nat := bnum b (16 * k + 8) 4
  let span (k : Nat) : Nat × Nat := (ofs k, 2 * crdOwners k)
  let apart (x y : Nat × Nat) : Bool := decide (x.1 + x.2 ≤ y.1 ∨ y.1 + y.2 ≤ x.1)
  let one (k : Nat) : Option (Nat × List Nat) :=
    let a := bcut b (ofs k) (2 * crdOwners k)
    let budget := bnum b (16 * k + 4) 4
    let shares := (List.range (crdOwners k)).map fun o => bnum a (2 * o) 2
    ensure (decide (bnum b (16 * k) 2 = k ∧ bnum b (16 * k + 2) 2 = crdOwners k ∧ 1 ≤ budget ∧ budget ≤ 1048576 ∧
      ofs k % 4 = 0 ∧ 256 ≤ ofs k ∧ ofs k + 2 * crdOwners k ≤ len) && bzero b (16 * k + 12) (16 * k + 16))
      (budget, shares)
  let l ← collect 16 one
  let tab := l.zipIdx.flatMap fun (e : (Nat × List Nat) × Nat) =>
    (e.1.2.zipIdx.filter fun (x : Nat × Nat) => decide (x.1 ≠ 0)).map fun (x : Nat × Nat) => (crdKey e.2 x.2, x.1)
  ensure (pairwiseB apart ((List.range 16).map span)) (l.map fun (e : Nat × List Nat) => e.1, tab)

/-- Sum of the shares of a boundary. -/
def shareSum (shares : Tbl Nat) (k : Nat) : Nat :=
  sum ((shares.filter fun (e : Nat × Nat) => decide (e.1 / 4096 = k)).map fun (e : Nat × Nat) => e.2)

/-- No boundary's shares sum to more than its BUDGET. -/
def sharesFit (budgets : List Nat) (shares : Tbl Nat) : Bool :=
  (List.range 16).all fun k => decide (shareSum shares k ≤ budgets.getD k 0)

/-- The MEMORY section: bank groups and capture regions (R58). -/
def memorySection (b : Bytes) (len : Nat) : Option (List Nat × List Nat) :=
  let banks := (List.range 32).map fun k => bnum b k 1
  let regions := (List.range 16).map fun u => bnum b (64 + 16 * u) 8
  let own (u : Nat) : Nat := (banks.filter fun o => decide (o = 2 + u)).length
  let regOk (u : Nat) : Bool :=
    let r := regions.getD u 0
    decide (r % 65536 = 0 ∧ r ≤ 2 ^ 30 * own u) && bzero b (72 + 16 * u) (80 + 16 * u)
  ensure (decide (len = 320) && banks.all (fun o => decide (o ≤ 17)) && bzero b 32 64 && (List.range 16).all regOk &&
    decide (sum regions ≤ 2 ^ 33)) (banks, regions)

/-- A THYME entry (R59). -/
def thymeEntry (n : Nat) (b : Bytes) : Option ThyEntry :=
  let e : ThyEntry := { kind := bnum b 0 1, target := bnum b 1 1, arg := bnum b 2 1, flags := bnum b 3 1, owner := bnum b 4 2 }
  ensure (decide (e.kind ≤ 2 ∧ e.target ≤ 11 ∧ e.flags < 32 ∧ e.owner ≤ 4095 ∧ e.arg ≤ 15) && bzero b 6 16 &&
    !(decide (e.arg ≠ 0 ∧ e.target ≠ 9)) && !(bit e.flags 0 && decide (16 ≤ n)) &&
    !(decide (e.kind = 2) && (bit e.flags 2 || decide (1 ≤ e.target ∧ e.target ≤ 9))) &&
    !(decide (e.kind = 0 ∧ e ≠ {})) && !(decide (e.owner ≠ 0 ∧ e.kind ≠ 2))) e

def thymeSection (b : Bytes) (len : Nat) : Option (List ThyEntry) := do
  let l ← collect 32 fun n => thymeEntry n (bcut b (16 * n) 16)
  ensure (decide (len = 512)) l

/-- A PROGRAMS reference within a program area of a length (R60). -/
def progRef (area : Nat) (b : Bytes) : Option ProgRef :=
  let r : ProgRef := { kind := bnum b 0 1, tenant := bnum b 2 2, ofs := bnum b 4 4, length := bnum b 8 4, digest := bbig b 16 48 }
  ensure (decide ((r.kind = 1 ∨ r.kind = 2) ∧ r.tenant ≤ 4095 ∧ r.ofs % 64 = 0 ∧ r.ofs + r.length ≤ area) && bzero b 1 2 &&
    bzero b 12 16) r

def programsSection (b : Bytes) (len area : Nat) : Option (List ProgRef) := do
  let n := bnum b 0 4
  let l ← collect (min n 8192) fun i => progRef area (bcut b (16 + 64 * i) 64)
  ensure (decide (n ≤ 8192 ∧ len = 16 + 64 * n) && bzero b 4 16) l

/-! CAPTURE, LOOPS, SCHEME, PAIR, KEYS -/

/-- A capture channel in position p of a unit (Table 17-4). -/
def capChan (b : Bytes) (p na : Nat) : Option CapChan :=
  let w := bnum b 0 4
  let k := bits w 31 28
  let kind : CapKind := match k with
    | 1 => .raw
    | 2 => .tap
    | 3 => .conv
    | 4 => .point
    | 5 => .bit
    | _ => .none
  let point := decide (k = 4 ∨ k = 5)
  let c : CapChan :=
    { kind := kind, stream := bits w 27 16, tap := bits w 15 14, bit := bits w 13 9, ch := bits w 3 0, handle := bnum b 4 4,
      skew := bint b 8 4, src := w }
  let placed := if k = 0 then true else if k = 5 then decide (na ≤ p) else decide (p < na)
  ensure (decide (k ≤ 5 ∧ bits w 8 4 = 0) && placed && (if point then !badHandle c.handle else decide (c.handle = 0)) &&
    (decide (k ≠ 1 ∧ k ≠ 2) || decide (c.ch ≤ 7)) && (decide (p ≠ 0) || decide (k = 1))) c

/-- A capture unit (Table 17-3). -/
def capEntry (b : Bytes) : Option CapCfg := do
  let fl := bnum b 1 1
  let na := bnum b 6 1
  let nd := bnum b 7 1
  let g : CapCfg :=
    { unit := bnum b 0 1, peer := bit fl 0, rearm := bit fl 1, overwrite := bit fl 2, ts100ns := bit fl 3, countMode := bit fl 4,
      group := bnum b 2 1, rate := bnum b 3 1, owner := bnum b 4 2, na := na, nd := nd, pre := bnum b 8 4, post := bnum b 12 4,
      hold := bnum b 16 2, close := bnum b 18 2, nslot := bnum b 20 2 }
  if !(decide (g.unit ≤ 15 ∧ fl < 32 ∧ g.group ≤ 15 ∧ g.rate ≤ 2 ∧ (g.owner ≤ 4095 ∨ g.owner = 0xFFFF) ∧ 1 ≤ na ∧ na ≤ 64 ∧
      nd ≤ 63 ∧ na + nd ≤ 64 ∧ 1 ≤ g.pre ∧ g.pre ≤ 65535 ∧ 1 ≤ g.post ∧ g.post ≤ 16777215 ∧ 1 ≤ g.hold ∧
      (g.countMode = true ∨ g.hold ≤ 60000) ∧ 10 ≤ g.close ∧ g.close ≤ 200 ∧ 1 ≤ g.nslot ∧ g.nslot ≤ 1024) && bzero b 22 64 &&
      bzero b (64 + 12 * (na + nd)) 832) then none
  else
    let ch ← collect (na + nd) fun p => capChan (bcut b (64 + 12 * p) 12) p na
    some { g with chans := ch }

def captureSection (b : Bytes) (len : Nat) : Option (List CapCfg) := do
  let n := bnum b 0 1
  let l ← collect (min n 16) fun i => capEntry (bcut b (16 + 832 * i) 832)
  let master (m : Nat) : Bool := l.any fun (g : CapCfg) => decide (g.unit = m ∧ g.group = m)
  ensure (decide (n ≤ 16 ∧ len = 16 + 832 * n) && bzero b 1 16 && distinct (l.map fun (g : CapCfg) => g.unit) &&
    l.all fun (g : CapCfg) => master g.group) l

/-- A source word (Table 12-2); `kinds` are those the source allows. -/
def sourceOk (w : Nat) (kinds : List Nat) : Bool :=
  let k := bits w 31 30
  let ch := bits w 3 0
  kinds.contains k && decide (bits w 29 18 = 0) &&
  (match k with
   | 0 => decide (w = 0)
   | 1 => decide (ch ≤ 7)
   | 2 => decide (bits w 17 4 = 0)
   | _ => decide (bits w 17 4 = 0 ∧ ch ≤ 3))

/-- A LOOPS entry (Table 12-1). -/
def loopEntry (b : Bytes) (ngt : Nat) : Option LoopEntry :=
  let e : LoopEntry :=
    { loop := bnum b 0 1, flags := bnum b 1 1, owner := bnum b 2 2, fb := bnum b 4 4, sp := bnum b 8 4, ff := bnum b 12 4,
      outh := bnum b 16 4, gtab := bnum b 20 4, coef := (List.range 14).map fun w => bnum b (24 + 4 * w) 4, det := bnum b 80 4,
      holdn := bnum b 84 2 }
  let get (w : Nat) : Nat := e.coef.getD w 0
  ensure (decide (e.loop ≤ 63 ∧ e.flags < 4 ∧ e.owner ≤ 4095 ∧ e.gtab < ngt ∧ e.det % 256 = 0) && bzero b 86 128 &&
    (bit e.flags 0 || decide (e.owner = 0)) && !badHandle e.outh && sourceOk e.fb [1, 2] && sourceOk e.sp [0, 1, 2, 3] &&
    sourceOk e.ff [0, 1, 2] && (List.range 14).all fun w => coefOk get w (get w)) e

def loopsSection (b : Bytes) (len : Nat) : Option (Nat × List LoopEntry × Nat × Tbl Nat) := do
  let n := bnum b 0 1
  let ngt := bnum b 2 2
  let l ← collect (min n 64) fun i => loopEntry (bcut b (16 + 128 * i) 128) ngt
  let base := 16 + 128 * n
  let gain (i : Nat) : Nat × Nat := (i, bnum (bcut b (base + 1024 * (i / 256)) 1024) (4 * (i % 256)) 4)
  let gains := ((List.range (256 * min ngt 64)).map gain).filter fun (e : Nat × Nat) => decide (e.2 ≠ 0)
  ensure (decide (n ≤ 64 ∧ bnum b 1 1 ≤ 2 ∧ ngt ≤ 64 ∧ len = base + 1024 * ngt) && bzero b 4 16 &&
    distinct (l.map fun (e : LoopEntry) => e.loop)) (bnum b 1 1, l, ngt, gains)

/-- A SCHEME entry (R256). -/
def schEntry (b : Bytes) : Option SchEntry :=
  let e : SchEntry := { tenant := bnum b 0 2, core := bnum b 2 1, units := bnum b 3 1, load := bnum b 4 2 }
  ensure (decide (e.tenant ≤ 4095 ∧ e.core ≤ 15 ∧ 1 ≤ e.units) && bzero b 6 8) e

def schemeSection (b : Bytes) (len : Nat) : Option (Nat × List SchEntry) := do
  let n := bnum b 0 4
  let l ← collect (min n 4096) fun i => schEntry (bcut b (16 + 8 * i) 8)
  let on (k : Nat) : List SchEntry := l.filter fun (e : SchEntry) => decide (e.core = k)
  let fits (k : Nat) : Bool :=
    decide (sum ((on k).map fun (e : SchEntry) => e.units) ≤ 496 ∧ sum ((on k).map fun (e : SchEntry) => e.load) ≤ 9500)
  ensure (decide (n ≤ 4096 ∧ len = 16 + 8 * n ∧ bnum b 4 1 ≤ 31) && bzero b 5 16 &&
    distinct (l.map fun (e : SchEntry) => e.tenant) && (List.range 16).all fits) (bnum b 4 1, l)

/-- The PAIR section (R224). -/
def pairSection (b : Bytes) (len : Nat) : Option PairCfg :=
  let home := bcut b 32 512
  let c : PairCfg :=
    { port := bnum b 0 1, window := bnum b 1 1, detect := bnum b 2 2, snap := bnum b 4 4, pairKey := bnum b 8 2,
      snapKey := bnum b 10 2, divPersist := bnum b 12 2, dlag := bnum b 14 1, skewLim := bnum b 15 1, joinWait := bnum b 16 2,
      home := (List.range 4096).filter fun t => bit (bnum home (t / 8) 1) (t % 8) }
  ensure (decide (len = 544 ∧ c.port ≤ 7 ∧ 5 ≤ c.window ∧ c.window ≤ 50 ∧ 3 ≤ c.detect ∧ c.detect ≤ 1000 ∧ 10 ≤ c.snap ∧
    c.snap ≤ 10000 ∧ c.pairKey ≤ 16383 ∧ c.snapKey ≤ 16383 ∧ 1 ≤ c.divPersist ∧ 1 ≤ c.dlag ∧ c.dlag ≤ 8 ∧ 1 ≤ c.skewLim ∧
    c.skewLim ≤ 50 ∧ 10 ≤ c.joinWait ∧ c.joinWait ≤ 1000) && bzero b 18 32) c

/-- A KEYS entry with its slot (R352). -/
def keyEntry (b : Bytes) : Option (Nat × KeyAttr) :=
  let n := bnum b 0 2
  let k : KeyAttr := { kind := bnum b 2 1, use := bnum b 3 1, owner := bnum b 4 2 }
  let allowed := match k.kind with
    | 1 => 2 ^ Use.derive
    | 2 => 15
    | 3 => 2 ^ Use.snapshot + 2 ^ Use.wrap
    | _ => 0
  ensure (decide (((4 ≤ n ∧ n ≤ 15) ∨ (4112 ≤ n ∧ n ≤ 16383)) ∧ 1 ≤ k.kind ∧ k.kind ≤ 4 ∧ k.use &&& (255 - allowed) = 0 ∧
    (k.owner ≤ 4095 ∨ k.owner = sysOwner)) && bzero b 6 16) (n, k)

def keysSection (b : Bytes) (len : Nat) : Option (List (Nat × KeyAttr)) := do
  let n := bnum b 0 2
  let l ← collect (min n 12284) fun i => keyEntry (bcut b (16 + 16 * i) 16)
  ensure (decide (n ≤ 12284 ∧ len = 16 + 16 * n) && bzero b 2 16 && distinct (l.map fun (e : Nat × KeyAttr) => e.1)) l

/-! GOOSE -/

def memTypeOf : Nat → MemType
  | 0 => .b
  | 1 => .s
  | 2 => .f
  | _ => .u

/-- A publication entry (Table 09-2). -/
def pubEntry (b : Bytes) (str : Nat → Option (List Byte)) : Option PubCfg := do
  let gocb ← str (bnum b 40 2)
  let dat ← str (bnum b 42 2)
  let gid ← str (bnum b 44 2)
  let v := bnum b 20 2
  let da := bbig b 8 6
  let mt := bnum b 38 2
  let n := bnum b 7 1
  let c : PubCfg :=
    { tenant := bnum b 0 2, pubno := bnum b 2 1, scheme := decide (bnum b 3 1 = 1), appid := bnum b 4 2,
      st := decide (bnum b 6 1 = 1), nmem := n, da := da, sa := bbig b 14 6, pcp := bits v 15 13, vid := bits v 11 0,
      valueOnly := decide (bnum b 22 1 = 1), sim := decide (bnum b 23 1 = 1), confRev := bnum b 24 4, mint := bnum b 28 2,
      talx := bnum b 30 1, auth := bnum b 31 1, maxt := bnum b 32 4, keySlot := bnum b 36 2,
      mtypes := (List.range n).map fun i => memTypeOf (mt / 4 ^ i % 4), gocbRef := gocb, datSet := dat, goId := gid }
  ensure (decide (c.tenant ≤ 4095 ∧ c.pubno ≤ 15 ∧ bnum b 3 1 ≤ 1 ∧ c.appid ≤ 0x3FFF ∧ bnum b 6 1 ≤ 1 ∧ 1 ≤ n ∧ n ≤ 8 ∧
    0x010CCD010000 ≤ da ∧ da ≤ 0x010CCD0101FF ∧ bits v 12 12 = 0 ∧ bnum b 22 1 ≤ 1 ∧ bnum b 23 1 ≤ 1 ∧ 1 ≤ c.mint ∧
    2 ≤ c.talx ∧ c.talx ≤ 8 ∧ (c.auth = 0 ∨ c.auth = 2) ∧ c.mint ≤ c.maxt ∧ c.maxt ≤ 16777215 ∧
    (c.auth = 0 ∨ c.keySlot ≤ 16383) ∧
    mt / 4 ^ n = 0) && bzero b 46 48) c

/-- A member-map entry. -/
def mapEntry (b : Bytes) : Option SubMap :=
  let q := bnum b 5 1
  let m : SubMap := { handle := bnum b 0 4, member := bnum b 4 1, qmember := if q = 0xFF then none else some q, type := bnum b 6 1 }
  ensure (decide (m.member ≤ 63 ∧ (q ≤ 63 ∨ q = 0xFF) ∧ 1 ≤ m.type ∧ m.type ≤ 4) && bzero b 7 8 && !badHandle m.handle) m

/-- A subscription entry (Table 09-3). -/
def subEntry (b : Bytes) (str : Nat → Option (List Byte)) (maps : List SubMap) : Option SubCfg := do
  let gocb ← str (bnum b 18 2)
  let fl := bnum b 11 1
  let k := bnum b 21 1
  let at_ := bnum b 22 2
  let c : SubCfg :=
    { tenant := bnum b 0 2, appid := bnum b 2 2, sa := bbig b 4 6, auth := bnum b 10 1, simAcc := bit fl 0, event := bit fl 1,
      confRev := bnum b 12 4, keySlot := bnum b 16 2, gocbRef := gocb, nds := bnum b 20 1, maps := (maps.drop at_).take k,
      grace := bnum b 24 2, tmoMax := bnum b 26 2 }
  ensure (decide (c.tenant ≤ 4095 ∧ c.appid ≤ 0x3FFF ∧ c.auth ≤ 2 ∧ fl < 4 ∧ c.keySlot ≤ 16383 ∧ 1 ≤ c.nds ∧ c.nds ≤ 64 ∧
    k ≤ 16 ∧ at_ + k ≤ maps.length ∧ c.grace ≤ 1000 ∧ 1 ≤ c.tmoMax ∧ c.tmoMax ≤ 6000) && bzero b 28 32) c

/-- A string record: length and octets. -/
def strEntry (b : Bytes) : Option (List Byte) :=
  let n := bnum b 0 1
  ensure (decide (1 ≤ n ∧ n ≤ 63) && bzero b (1 + n) 64) (blist b 1 n)

/-- The GOOSE section (R203). -/
def gooseSection (b : Bytes) (len : Nat) : Option (List PubCfg × List SubCfg) := do
  let np := bnum b 0 2
  let ns := bnum b 2 2
  let nm := bnum b 4 4
  let nstr := bnum b 8 2
  let o1 := 16 + 48 * np
  let o2 := o1 + 32 * ns
  let o3 := o2 + 8 * nm
  if !(decide (np ≤ 8192 ∧ ns ≤ 16384 ∧ nm ≤ 131072 ∧ 1 ≤ nstr ∧ nstr ≤ 32768 ∧ len = o3 + 64 * nstr) && bzero b 10 16) then none
  else
    let strs ← collect nstr fun i => strEntry (bcut b (o3 + 64 * i) 64)
    let str (i : Nat) : Option (List Byte) := strs[i]?
    let maps ← collect nm fun i => mapEntry (bcut b (o2 + 8 * i) 8)
    let pubs ← collect np fun i => pubEntry (bcut b (16 + 48 * i) 48) str
    let subs ← collect ns fun i => subEntry (bcut b (o1 + 32 * i) 32) str maps
    some (pubs, subs)

end Sys2Proof.Machine
end

