-- ==== Sys2Proof/Machine/Can.lean ====
section
/-! DEFINITION. The CAN FD controllers (R305 to R321). Bits on a bus are outside: a command tells what a frame or an error
was and when its start-of-frame bit was sampled. Error counters follow ISO 11898-1. -/
namespace Sys2Proof.Machine

def State.setCan (s : State) (k : Nat) (c : Can) : State := { s with can := Tbl.put {} s.can k c }
def Can.buf (c : Can) (b : Nat) : CanBuf := Tbl.get {} c.bufs b
def Can.setBuf (c : Can) (b : Nat) (x : CanBuf) : Can := { c with bufs := Tbl.put {} c.bufs b x }

/-- The CAN_ base, ring entry e and transmit buffer b of controller k. -/
def canBase : Nat := 0x140000
def canRing (k e : Nat) : Nat := canBase + 0x10000 + k * 0x8000 + e * 0x60
def canBuffer (k b : Nat) : Nat := canBase + 0x30000 + k * 0x400 + b * 0x60

/-- Mode (Table 14-1). -/
def State.canMode (s : State) (k : Nat) : Nat := s.fld .CAN_CFG 3 2 k

/-- The controller takes part on its bus: it exists, is powered, out of INIT and not bus-off; domain 11 is on. -/
def State.canOn (s : State) (k : Nat) : Bool :=
  let c := s.canC k
  decide (k < 4) && s.flag .CAN_CFG 1 k && !c.init && !c.busOff && s.domOn 11

def State.canCount (s : State) (k j : Nat) : State := s.incRg .CAN_CNT k j

/-- Puts in place new counters and their error state: STATE_CHG, and on entering bus-off its counter and Walnut 34. -/
def State.canCounters (s : State) (k : Nat) (c : Can) : State :=
  let old := s.canC k
  let off := decide (255 < c.tec) && !old.busOff
  let c := if off then { c with busOff := true, recovers := s.flag .CAN_CFG 5 k } else c
  let s := s.setCan k c
  let s := if off then (s.canCount k 4).fire 34 k else s
  if off || decide (c.passive ≠ old.passive) then s.setFlag .CAN_STAT 3 k else s

/-- The end of a frame or error frame: an INIT that waited takes effect (R308). -/
def State.canFrameEnd (s : State) (k : Nat) : State :=
  let c := s.canC k
  if c.initWaits then s.setCan k { c with init := true, initWaits := false } else s

/-! The receive ring (R315, R316) -/

/-- Bytes of a ring entry. -/
def canEntry (data : List Byte) (stamp : Stamp) (seq idw flags dlc : Nat) : List Byte :=
  (data ++ List.replicate 64 0).take 64 ++ leBytes 8 (stampNs stamp) ++ leBytes 1 stamp ++ leBytes 1 1 ++ leBytes 2 seq ++
    leBytes 4 idw ++ leBytes 1 flags ++ leBytes 1 dlc ++ List.replicate 14 0

/-- Data bytes of a frame by FLAGS and DLC, as ISO 11898-1 has them: none with RTR; classical frames at most 8. -/
def canLen (flags dlc : Nat) : Nat :=
  if bit flags 1 then [0, 1, 2, 3, 4, 5, 6, 7, 8, 12, 16, 20, 24, 32, 48, 64].getD (dlc % 16) 0
  else if bit flags 0 then 0 else min 8 (dlc % 16)

/-- Unread entries. -/
def State.canUnread (s : State) (k : Nat) : Nat := (s.rg .CAN_RWR k + 2 ^ 32 - s.rg .CAN_RRD k) % 2 ^ 32

/-- A reset of the owning tenant: RRD set to RWR, each unread entry counted in DISCARD (R317). -/
def State.canDiscard (s : State) (k : Nat) : State :=
  let n := s.canUnread k
  let s := iterUpto (min n 256) (fun _ (s : State) => (s.giveCredit Bnd.can k).canCount k 3) s
  { s.setRg .CAN_RRD (s.rg .CAN_RWR k) k with now := { s.now with cans := Tbl.put false s.now.cans k true } }

/-- Writes an entry with a credit of boundary 12, or drops it. An entry written in the FRC count of its owner's reset is
discarded with the others (Table 14-3). -/
def State.canWrite (s : State) (k : Nat) (data : List Byte) (stamp : Stamp) (idw flags dlc : Nat) : State :=
  let c := s.canC k
  if 256 ≤ s.canUnread k ∨ s.avail Bnd.can k = 0 then
    ((s.ingestDrop Bnd.can k).setFlag .CAN_STAT 6 k).setCan k { c with loss := true }
  else
    let w := s.rg .CAN_RWR k
    let flags := flags + 32 * b2n c.loss
    let s := { s with mem := memPutAll s.mem (canRing k (w % 256)) (canEntry data stamp w idw flags dlc) }
    let s := ((s.takeCredit Bnd.can k).setRg .CAN_RWR ((w + 1) % 2 ^ 32) k).setFlag .CAN_STAT 0 k
    let s := if bit flags 6 then s else s.canCount k 0
    let s := s.setCan k { c with loss := false }
    if Tbl.get false s.now.cans k then s.canDiscard k else s

/-- A write of CAN_RRD: accepted from the current RRD up to RWR. -/
def State.canRrd (s : State) (k v : Nat) : State :=
  if 4 ≤ k then s
  else
    let v := v % 2 ^ 32
    let n := (v + 2 ^ 32 - s.rg .CAN_RRD k) % 2 ^ 32
    if n ≤ s.canUnread k then iterUpto (min n 256) (fun _ (s : State) => s.giveCredit Bnd.can k) (s.setRg .CAN_RRD v k)
    else s.setFlag .CAN_STAT 7 k
def execRrdWrite (k v : Nat) (s : State) := done (s.canRrd k v)

/-! Receiving -/

/-- A watch is met by IDW (R318). -/
def State.canWatchMet (k : Nat) (idw : Nat) (s : State) (m : Nat) : State :=
  let w := s.rg .CAN_NODE k m
  if bits w 60 32 &&& Nat.xor (bits w 28 0) (bits idw 28 0) = 0 then
    let c := s.canC k
    (s.setCan k { c with watch := Tbl.put 0 c.watch m s.frc }).clrFlag .CAN_NODESTAT m k
  else s

/-- A frame from another node, received without error (R309, R315); in NORMAL and RESTRICTED it is acknowledged (Table 14-1).
PRESUMED: with FDEN clear no CAN FD frame is received without error. -/
def execCanFrameRx (k : Nat) (f : CanFrame) (sof : Nat) (s : State) :=
  let c := s.canC k
  if !s.canOn k || c.waits11 || (bit f.flags 1 && !s.flag .CAN_CFG 4 k) then done s
  else
    let s := if s.canMode k = 1 then s else s.emit (.canAck k)
    let s := s.canWrite k (f.data.take (canLen f.flags f.dlc)) (s.dtAt (min sof s.frc) 0) f.idw (f.flags % 16) f.dlc
    let s := (List.range 16).foldl (State.canWatchMet k f.idw) s
    let c := s.canC k
    let s := if s.canMode k ≠ 0 then s
      else if c.rec_ = 0 then s
      else if c.rec_ ≤ 127 then s.canCounters k { c with rec_ := c.rec_ - 1 }
      else
        let (v, s) := s.freeNext
        s.canCounters k { c with rec_ := 119 + v % 9 }
    done (s.canFrameEnd k)

/-- An enabled watch was not met for TMO ms; a frame in the cycle in which they end still meets it (Table 14-3). -/
def execNodeWatchTimeout (k m : Nat) (s : State) :=
  let w := s.rg .CAN_NODE k m
  let tmo := max 1 (s.fld .CAN_NODETMO 15 0 k m)
  if k < 4 && decide (m < 16) && bit w 63 && !s.flag .CAN_NODESTAT m k && s.domOn 11 &&
      decide (Tbl.get 0 (s.canC k).watch m + tmo * ms < s.frc) then
    done (((s.setFlag .CAN_NODESTAT m k).setFlag .CAN_STAT 8 k).fire 33 (k + m * 2 ^ 8))
  else done s

/-! Transmission (R310 to R314) -/

/-- A byte, IDW, FLAGS and DLC of a transmit buffer. -/
def State.canBufIdw (s : State) (k b : Nat) : Nat := ofLe (memGet s.mem (canBuffer k b + 76) 4)
def State.canBufFlags (s : State) (k b : Nat) : Nat := (memByte s.mem (canBuffer k b + 80)).toNat

/-- FLAGS of the frame that a buffer sends. PRESUMED: with FDEN clear FDF, BRS and ESI are ignored, and the frame leaves in
classical format. -/
def State.canSendFlags (s : State) (k b : Nat) : Nat :=
  let v := s.canBufFlags k b
  if s.flag .CAN_CFG 4 k then v else setBits v 3 1 0
def State.canBufDlc (s : State) (k b : Nat) : Nat := (memByte s.mem (canBuffer k b + 81)).toNat

/-- The arbitration field as a number: the lowest wins the bus. A CAN FD frame sends a dominant bit in place of RTR. -/
def canArb (idw flags : Nat) : Nat :=
  let rtr := if bit flags 1 then 0 else b2n (bit flags 0)
  if bit idw 31 then bits idw 28 18 * 2 ^ 21 + 2 ^ 20 + 2 ^ 19 + bits idw 17 0 * 2 + rtr
  else bits idw 28 18 * 2 ^ 21 + rtr * 2 ^ 20

/-- The buffer offered at a start of arbitration: among those requested by then, the one that would win; the lowest
among equals (R310). -/
def State.canOffer (s : State) (k sof : Nat) : Option Nat :=
  let c := s.canC k
  let pend := (List.range 8).filter fun b => match (c.buf b).pend with | some f => decide (f ≤ sof) | none => false
  pend.foldl (fun best b =>
    let a := canArb (s.canBufIdw k b) (s.canSendFlags k b)
    match best with
    | some x => if a < canArb (s.canBufIdw k x) (s.canSendFlags k x) then some b else best
    | none => some b) none

/-- A buffer completes with a result; a mailbox request is told by CAN_RESULT. -/
def State.canResult (s : State) (k b result lec : Nat) (late : Bool) : State :=
  let c := s.canC k
  let x := c.buf b
  let s := s.setCan k (c.setBuf b {})
  let s := (s.setRg .CAN_TXSTAT (result + lec * 2 ^ 5 + 2 ^ 8 * b2n late) k b).setFlag .CAN_STAT 4 k
  match x.owner with
  | some o =>
    if o.mbx && decide (o.gen = (s.tenant o.tenant).gen) then
      s.mbxNotify o.tenant 0x83 (words32 [k, result + 2 ^ 8 * b2n late])
    else s
  | none => s

/-- A request on a buffer: refused in LISTEN; ignored when it is pending (R308, R310). -/
def State.canRequest (s : State) (k b : Nat) (owner : Option CanOwner) : State :=
  let c := s.canC k
  if (c.buf b).pend.isSome then s
  else if s.canMode k = 1 then s.setFlag .CAN_STAT 5 k
  else (s.setCan k (c.setBuf b { pend := some s.frc, owner := owner })).setRg .CAN_TXSTAT 1 k b

def execCanTxReq (k mask : Nat) (s : State) :=
  if 4 ≤ k then done s
  else done (iterUpto 8 (fun b (s : State) => if bit mask b then s.canRequest k b none else s) s)

/-- Cancels buffer b; `busy` is the start-of-frame instant of an own frame that is on the bus (R313). -/
def State.canCancel (k : Nat) (busy : Option Nat) (s : State) (b : Nat) : State :=
  let c := s.canC k
  let x := c.buf b
  if x.pend.isNone then s
  else
    let onBus := match busy with | some f => decide (s.canOffer k f = some b) | none => false
    if onBus then s.setCan k (c.setBuf b { x with cancel := true }) else s.canResult k b 3 0 false

def execCanTxCancel (k mask : Nat) (busy : Option Nat) (s : State) :=
  if 4 ≤ k then done s
  else
    -- the frame on the bus is judged before any buffer is removed
    let own := match busy with | some f => s.canOffer k f | none => none
    let bs := (List.range 8).filter fun b => bit mask b
    let first := bs.filter fun b => decide (some b = own)
    let rest := bs.filter fun b => decide (some b ≠ own)
    done (rest.foldl (State.canCancel k none) (first.foldl (State.canCancel k busy) s))

/-- The controller may transmit. -/
def State.canSends (s : State) (k : Nat) : Bool :=
  let c := s.canC k
  s.canOn k && decide (s.canMode k = 0) && !c.stuck && !c.waits11

/-- The own frame whose start-of-frame bit was sampled at `sof` wins and is sent, or loses arbitration; `tdc` is the
transmitter delay measured. -/
def execCanTxComplete (k sof : Nat) (lost : Bool) (tdc : Nat) (s : State) :=
  if !s.canSends k then done s
  else match s.canOffer k sof with
    | none => done s
    | some b =>
      let x := (s.canC k).buf b
      let flags := s.canSendFlags k b
      if lost then
        if x.cancel then done (s.canResult k b 3 0 false)
        else if bit flags 7 then done (s.canResult k b 4 0 false)
        else done s
      else
        let stamp := s.dtAt (min sof s.frc) 0
        let idw := s.canBufIdw k b
        let dlc := s.canBufDlc k b
        let data := memGet s.mem (canBuffer k b) (canLen flags dlc)
        let s := { s with mem := memPutAll s.mem (canBuffer k b + 64) (leBytes 8 (stampNs stamp) ++ leBytes 1 stamp) }
        let s := s.canResult k b 2 0 x.cancel
        let s := s.emit (.canFrame k { idw := idw, flags := flags % 16, dlc := dlc, data := data })
        let c := s.canC k
        let s := if c.tec = 0 then s else s.canCounters k { c with tec := c.tec - 1 }
        let s := s.canWrite k data stamp idw (flags % 16 + 16) dlc
        let s := if bit flags 2 && s.flag .CAN_DBT 1 k then s.setFld .CAN_TDC 23 16 tdc k else s
        done (s.canFrameEnd k)

/-- An error is detected (R309): its ERROR entry, LEC and, in NORMAL, the error counters; `own` is the own frame that
met it, `major` an error that adds 8 to REC; a stuff error of an own frame in arbitration leaves TEC as it is (`CanOwn.arb`). In NORMAL an error frame is sent (Table
14-1). After an error in LISTEN or RESTRICTED the controller takes no part until 11 recessive bits. -/
def execCanError (k lec : Nat) (own : Option CanOwn) (major : Bool) (s : State) :=
  if !s.canOn k || (s.canC k).waits11 then done s
  else
    let lec := lec % 8
    let s := ((s.canWrite k [] s.dt 0 64 lec).setFlag .CAN_STAT 1 k).canCount k 1
    let b := match own with | some f => if s.canSends k then s.canOffer k f.sof else none | none => none
    let c := { s.canC k with lec := lec }
    if s.canMode k ≠ 0 then done ((s.setCan k { c with waits11 := true }).canFrameEnd k)
    else
      let s := s.emit (.canErrorFrame k c.passive)
      match b with
      | none => done ((s.canCounters k { c with rec_ := c.rec_ + (if major then 8 else 1) }).canFrameEnd k)
      | some b =>
        let ack := decide (lec = 3)
        let s := if ack then s.canCount k 2 else s
        let c := if (ack && c.passive) || (own.any (·.arb) && decide (lec = 1)) then c else { c with tec := c.tec + 8 }
        let s := s.canCounters k c
        let x := (s.canC k).buf b
        let s := if x.cancel then s.canResult k b 5 lec true
          else if bit (s.canBufFlags k b) 7 then s.canResult k b 5 lec false
          else s
        done (s.canFrameEnd k)

/-! Stuck bus and bus-off (R319) -/

def execStuckDominant (k : Nat) (s : State) :=
  if k < 4 && s.flag .CAN_CFG 1 k && s.domOn 11 then
    done ((s.setCan k { s.canC k with stuck := true }).setFlag .CAN_STAT 9 k)
  else done s

/-- 11 recessive bits. -/
def execStuckDominantRelease (k : Nat) (s : State) :=
  if k < 4 then done (s.setCan k { s.canC k with stuck := false, waits11 := false }) else done s

def execBusOffRecovery (k : Nat) (s : State) :=
  let c := s.canC k
  if c.busOff && c.recovers && !c.init then
    done ((s.setCan k { c with busOff := false, recovers := false, tec := 0, rec_ := 0 }).setFlag .CAN_STAT 3 k)
  else done s

/-! INIT (R306, R308) -/

/-- The timing registers allow leaving INIT. -/
def State.canTimingOk (s : State) (k : Nat) : Bool :=
  let brp (r : Reg) : Nat := s.fld r 31 24 k + 1
  let t1 (r : Reg) : Nat := s.fld r 23 16 k + 1
  let t2 (r : Reg) : Nat := s.fld r 15 9 k + 1
  let sjw (r : Reg) : Nat := s.fld r 8 2 k + 1
  let quanta (r : Reg) : Nat := brp r * (1 + t1 r + t2 r)
  decide (2 ≤ t1 .CAN_NBT) && decide (sjw .CAN_NBT ≤ t2 .CAN_NBT) &&
  decide (brp .CAN_DBT ≤ 32 ∧ t1 .CAN_DBT ≤ 32 ∧ t2 .CAN_DBT ≤ 16 ∧ sjw .CAN_DBT ≤ t2 .CAN_DBT) &&
  decide (80 ≤ quanta .CAN_NBT) &&
  (!s.flag .CAN_CFG 4 k || decide (10 ≤ quanta .CAN_DBT ∧ quanta .CAN_DBT ≤ quanta .CAN_NBT))

/-- INIT is set; while a frame is on the bus it takes effect at the end of the frame. -/
def State.canInitSet (s : State) (k : Nat) (busy : Bool) : State :=
  let s := s.setFlag .CAN_CFG 0 k
  let c := s.canC k
  if busy && s.canOn k then s.setCan k { c with initWaits := true } else s.setCan k { c with init := true, initWaits := false }
def execInitSet (k : Nat) (busy : Bool) (s : State) := if k < 4 then done (s.canInitSet k busy) else done s

/-- INIT is cleared: the controller leaves INIT when the timing is valid, else it stays; from bus-off, recovery starts. -/
def State.canInitClear (s : State) (k : Nat) : State :=
  let c := s.canC k
  if s.canTimingOk k then
    (s.clrFlag .CAN_CFG 0 k).setCan k { c with init := false, initWaits := false, recovers := c.recovers || c.busOff }
  else s.setFlag .CAN_STAT 2 k
def execInitClear (k : Nat) (s : State) := if k < 4 then done (s.canInitClear k) else done s

/-- A write of CAN_CFG: MODE and FDEN only in INIT (R308); ABOR starts the recovery from bus-off at once (R319). -/
def State.canCfgWrite (s : State) (k v : Nat) : State :=
  let old := s.rg .CAN_CFG k
  let inInit := (s.canC k).init && bit old 0
  let blocked := !inInit && decide (bits v 4 2 ≠ bits old 4 2)
  let new_ := setBits (v &&& 0x8FFF003E) 4 2 (if inInit then bits v 4 2 else bits old 4 2) + bits old 0 0
  let s := applyIf blocked (·.setFlag .CAN_STAT 2 k) (s.setRg .CAN_CFG new_ k)
  let c := s.canC k
  let s := if c.busOff && bit new_ 5 then s.setCan k { c with recovers := true } else s
  match bit old 0, bit v 0 with
  | false, true => s.canInitSet k false
  | true, false => s.canInitClear k
  | false, false => if (s.canC k).busOff then s.canInitClear k else s
  | true, true => s

/-- A write of CAN_NODE: an enabled watch counts from its enabling. -/
def State.canNodeWrite (s : State) (k m v : Nat) : State :=
  let c := s.canC k
  let on := bit v 63 && !s.flag .CAN_NODE 63 k m
  let s := s.setRg .CAN_NODE v k m
  if on then s.setCan k { c with watch := Tbl.put 0 c.watch m s.frc } else s

/-! Requests of tenants -/

/-- The lowest buffer that is free. -/
def State.canFree (s : State) (k : Nat) : Option Nat :=
  (List.range 8).find? fun b => ((s.canC k).buf b).pend.isNone

/-- A tenant's frame goes into a free buffer and is requested; 0 ACCEPTED or OK, 5 RIGHTS, 7 BUSY. DESIGN CHOICE: 6 STATE where
LISTEN refuses the request; the spec names no status for it. -/
def State.canSend (s : State) (t k : Nat) (bytes : List Byte) (mbx : Bool) : State × Nat :=
  let rights := match s.tenCfg t with | some c => bit c.canRights k | none => false
  if 4 ≤ k ∨ !rights then (s, 5)
  else if s.canMode k = 1 then (s.setFlag .CAN_STAT 5 k, 6)
  else match s.canFree k with
    | none => (s, 7)
    | some b =>
      let s := { s with mem := memPutAll s.mem (canBuffer k b) ((bytes ++ List.replicate 96 0).take 96) }
      (s.canRequest k b (some { tenant := t, gen := (s.tenant t).gen, mbx := mbx }), 0)

/-- A tenant reset (Table 15-9): its rings are emptied and its pending requests cancelled. -/
def State.canReset (s : State) (t : Nat) : State :=
  (List.range 4).foldl (fun (s : State) k =>
    let s := if s.flag .CAN_CFG 31 k && decide (s.fld .CAN_CFG 27 16 k = t) then s.canDiscard k else s
    (List.range 8).foldl (fun (s : State) b => match ((s.canC k).buf b).owner with
      | some o => if o.tenant = t then s.canResult k b 3 0 false else s
      | none => s) s) s

def execCanCntRead (q : Requester) (k j : Nat) (s : State) := done (s.readClear q .CAN_CNT k j)

end Sys2Proof.Machine
end

