-- ==== Sys2Proof/Machine/Subscriber.lean ====
section
/-! DEFINITION. The GOOSE subscriber (R216 to R221, R223) and the holding of class H deliveries (R235). -/
namespace Sys2Proof.Machine

def State.setSub (s : State) (i : Nat) (x : Sub) : State :=
  { s with goose := { s.goose with subs := Tbl.put {} s.goose.subs i x } }
def Sub.add (x : Sub) (k n : Nat) : Sub := { x with cnt := Tbl.upd 0 x.cnt k fun c => satAdd 32 c n }
def Sub.inc (x : Sub) (k : Nat) : Sub := x.add k 1

/-- The subscription entries of a frame (R216). -/
def State.subsFor (s : State) (g : GoosePdu) (sa : Nat) : List Nat :=
  (s.goose.subs.filter fun e => match e.2.cfg with
    | some c => decide (c.appid = g.appid ∧ c.gocbRef = g.gocbRef ∧ (c.sa = 0 ∨ c.sa = sa))
    | none => false).map (·.1)

/-- TYPE of Table 08-7 of a member type. -/
def memType : MemType → Nat
  | .b => 1 | .s => 2 | .f => 3 | .u => 4

/-- Every mapped member is there with its type, every quality member is a bit-string (R217). -/
def mapsOk (c : SubCfg) (data : List GooseMember) : Bool :=
  c.maps.all fun m =>
    (match data[m.member]? with | some (.value t _) => decide (memType t = m.type) | _ => false) &&
    (match m.qmember with
      | none => true
      | some k => match data[k]? with | some (.quality _) => true | _ => false)

/-- The point writes of a delivery (R219): a Boolean as 0 or 1, a quality of 13 bits. -/
def subPoints (c : SubCfg) (data : List GooseMember) (stamp : Stamp) : List (Nat × Point) :=
  c.maps.map fun m =>
    let v := match data[m.member]? with | some (.value t b) => if t = .b then b2n (b.toNat ≠ 0) else b.toNat | _ => 0
    let q := match m.qmember with
      | none => 0
      | some k => match data[k]? with | some (.quality b) => b % 2 ^ 13 | _ => 0
    (m.handle, { value := v, quality := q, type := m.type, info := 12, time := stampNs stamp })

/-- Applies a delivery as one unit at boundary 11; without a credit it is an ingest drop and REDELIVER is set (R219,
R220). -/
def State.subApply (s : State) (i : Nat) (c : SubCfg) (points : List (Nat × Point)) (stamp : Stamp) (event : Bool) : State :=
  if s.avail Bnd.gooseDeliver c.tenant = 0 then
    let s := s.ingestDrop Bnd.gooseDeliver c.tenant
    (s.setSub i ({ s.sub i with redeliver := true }.inc 13)).setFlag .GSB_STAT 1
  else
    let s := s.takeCredit Bnd.gooseDeliver c.tenant
    let s := points.foldl (fun (s : State) p => s.putPoint p.1 p.2) s
    if event then { s with evts := s.evts ++ [(c.tenant, { kind := 1, num := i, stamp := stamp })] } else s

/-- allData as a digest for NOTICE. -/
def dataDigest (data : List GooseMember) : Nat := Config.sha384 (berData data)

/-- Key of a NOTICE: entry, stNum, allData digest (R235). -/
def HeldNotice.key (h : HeldNotice) : Nat × Nat × Nat := (h.sub, h.stNum, h.ddig)
def noteKey (e : Nat × Nat × Nat × Nat) : Nat × Nat × Nat := (e.1, e.2.1, e.2.2.1)

/-- The partner's NOTICE gives a held delivery its common cycle. -/
def HeldNotice.meet (h : HeldNotice) (arrival dlag : Nat) : HeldNotice :=
  { h with matched := true, cycle := max h.arrival arrival + dlag }

/-- A delivery is held; the partner's NOTICE that came before it is used up. -/
def State.noticeHold (s : State) (h : HeldNotice) (dlag : Nat) : State :=
  match s.par.peerNotes.find? fun e => decide (noteKey e = h.key) with
  | some e => { s with par := { s.par with notices := s.par.notices ++ [h.meet e.2.2.2 dlag], peerNotes := s.par.peerNotes.erase e } }
  | none => { s with par := { s.par with notices := s.par.notices ++ [h] } }

/-- The count of the tenant's group cycle that had started at a device time (R235). -/
def State.cycleAt (s : State) (t : Nat) (stamp : Stamp) : Nat :=
  let g := s.groupOf t
  let n := s.rg .ELA_GRPCNT g
  match (s.group g).start with
  | some p => if stamp < p.stamp then n - 1 else n
  | none => n

/-- The writes of a timeout (R221): each mapped point keeps its value and becomes invalid with oldData. -/
def State.stalePoints (s : State) (c : SubCfg) (stamp : Stamp) : List (Nat × Point) :=
  c.maps.map fun (m : SubMap) =>
    let p := s.point m.handle
    (m.handle, { p with quality := setBit (setBits p.quality 1 0 1) 7, info := 13, time := stampNs stamp })

/-- A delivery or a timeout write (`stale`): held with a NOTICE for a class H tenant of a PAIRED module, else applied (R235). -/
def State.subDeliver (s : State) (i : Nat) (c : SubCfg) (points : List (Nat × Point)) (stamp : Stamp) (event stale : Bool)
    (ddig : Nat) : State :=
  match s.par.cfg with
  | some pc =>
    if s.classH c.tenant && s.paired then
      let a := s.cycleAt c.tenant stamp
      let no := (s.sub i).stNum
      let h : HeldNotice := { tenant := c.tenant, sub := i, stNum := no, ddig := ddig, arrival := a, cycle := a + pc.dlag,
                              event := event, stamp := stamp, stale := stale, points := points }
      (s.noticeHold h pc.dlag).parSendFor c.tenant (.notice i no ddig a)
    else s.subApply i c points stamp event
  | none => s.subApply i c points stamp event

/-- Outcome of Table 09-6 for a frame that passed steps 1 to 4. -/
inductive SubRow where
  | fresh | retx | conflict | step (gap : Nat) | restart | old
deriving DecidableEq, Repr

def subRow (x : Sub) (g : GoosePdu) : SubRow :=
  let a := if x.stNum = 2 ^ 32 - 1 ∧ g.stNum = 1 then 1 else (g.stNum + 2 ^ 32 - x.stNum) % 2 ^ 32
  if x.st = .none ∨ x.st = .stale then .fresh
  else if a = 0 then (if g.allData = x.data then .retx else .conflict)
  else if a < 2 ^ 31 then .step (a - 1)
  else if g.stNum = 1 ∧ g.sqNum = 0 then .restart
  else .old

/-- The timeout of a frame in ns (R221). -/
def SubCfg.timeout (c : SubCfg) (tal : Nat) : Nat :=
  if tal = 0 ∨ c.tmoMax * 10 < tal then c.tmoMax * 10 * ms else (tal + c.grace) * ms

/-- One entry checks and serves a frame (R217 to R221). -/
def State.subFrame (rx : RxFrame) (g : GoosePdu) (s : State) (i : Nat) : State :=
  let x := s.sub i
  match x.cfg with
  | none => s
  | some c =>
    let auth : Option Nat := match c.auth, g.tag with
      | 0, _ => none
      | 1, none => none
      | _, none => some 6
      | _, some tag => match s.checkTag tag c.keySlot Use.gooseVerify (some c.tenant) with
        | none => some 7
        | some ok => if ok then none else some 6
    match auth with
    | some k =>
      let s := (s.setSub i (x.inc k)).setFlag .GSB_STAT (if k = 6 then 3 else 2)
      if k = 6 then s.fire 19 i else s
    | none =>
      if g.simulation && !c.simAcc then s.setSub i (x.inc 8)
      else if g.confRev ≠ c.confRev then s.setSub i (x.inc 9)
      else if g.ndsCom || decide (g.entries ≠ c.nds) || !mapsOk c g.allData then s.setSub i (x.inc 10)
      else
        let row := subRow x g
        let x := x.inc 0
        let x := match row with
          | .retx => x.inc 2
          | .conflict => x.inc 11
          | .step gap => x.add (if rx.loss then 5 else 4) gap
          | .old => if x.redeliver then x else x.inc 3
          | _ => x
        let deliver := x.redeliver || decide (row ≠ .retx ∧ row ≠ .old)
        let rearm := deliver || decide (row = .retx)
        let x := if deliver then { x.inc 1 with st := .valid, stNum := g.stNum, data := g.allData, redeliver := false } else x
        let x := if rearm then
            { x with expiry := some (rx.frc + c.timeout g.tal), lastNs := stampNs rx.stamp } else x
        let s := s.setSub i { x with sqNum := g.sqNum, lastSt := g.stNum }
        let s := applyIf (decide (row = .conflict)) (·.setFlag .GSB_STAT 4) s
        if deliver then s.subDeliver i c (subPoints c g.allData rx.stamp) rx.stamp c.event false (dataDigest g.allData) else s

/-- The subscriber takes the next GOOSE frame (R216); its credit at boundary 2 returns. -/
def execGooseFrame (s : State) :=
  match s.goose.queue with
  | [] => done s
  | rx :: rest =>
    let s := { s with goose := { s.goose with queue := rest } }.giveCredit Bnd.goose rx.port
    match rx.frame.payload with
    | .goose g =>
      match s.subsFor g rx.frame.sa with
      | [] => done ((s.incRg .GSB_UNKNOWN).setFlag .GSB_STAT 0)
      | es => done (es.foldl (State.subFrame rx g) s)
    | _ => done ((s.incRg .GSB_UNKNOWN).setFlag .GSB_STAT 0)

/-- The timeout of a subscription expires: STALE, its points invalid with oldData (R221). -/
def execSubscriptionTimeout (i : Nat) (s : State) :=
  let x := s.sub i
  match x.cfg, x.expiry with
  | some c, some t =>
    if t ≤ s.frc ∧ x.st = SubSt.valid then
      let s := (s.setSub i ({ x with st := .stale, expiry := none }.inc 12)).setFlag .GSB_STAT 5
      let s := (s.fire 18 i).almond 27
      done (s.subDeliver i c (s.stalePoints c s.dt) s.dt false true 0)
    else done s
  | _, _ => done s

/-- A tenant reset sets REDELIVER on the tenant's subscriptions (R220). -/
def State.subReset (s : State) (t : Nat) : State :=
  { s with
    goose := { s.goose with subs := s.goose.subs.map fun e => (e.1, match e.2.cfg with
      | some c => if c.tenant = t then { e.2 with redeliver := true } else e.2
      | none => e.2) },
    par := { s.par with notices := s.par.notices.filter fun h => decide (h.tenant ≠ t) } }

def execGsbClearSel (s : State) :=
  let i := s.fld .GSB_SSEL 13 0
  let put (x : Sub) (c : Tbl Nat) : Sub := { x with cnt := c }
  done { s with goose := { s.goose with subs := Tbl.recountAt {} s.goose.subs s.now.subs i Sub.cnt put },
                now := { s.now with subs := Tbl.recountAt {} s.now.subs s.now.subs i Sub.cnt put } }
def execGsbClearAll (s : State) :=
  let put (x : Sub) (c : Tbl Nat) : Sub := { x with cnt := c }
  done { s with goose := { s.goose with subs := Tbl.recount {} s.goose.subs s.now.subs Sub.cnt put },
                now := { s.now with subs := Tbl.recount {} s.now.subs s.now.subs Sub.cnt put } }
def execGsbUnknownRead (q : Requester) (s : State) := done (s.readClear q .GSB_UNKNOWN)

end Sys2Proof.Machine
end

