-- ==== Sys2Proof/Machine/Snapshot.lean ====
section
/-! DEFINITION. Snapshots of a tenant and their restoring (R246, R346, R347). -/
namespace Sys2Proof.Machine

def State.setSch (s : State) (t : Nat) (c : SchTen) : State :=
  { s with sch := { s.sch with ten := Tbl.put {} s.sch.ten t c } }

/-- No task of the program is active; none is active or queued (R265, R269). -/
def SchTen.quiet (c : SchTen) : Bool := c.tasks.all fun e => e.2.cur.isNone
def SchTen.atBoundary (c : SchTen) : Bool := c.tasks.all fun e => e.2.cur.isNone && e.2.queue.isEmpty

/-- SCH_TICK. -/
def State.tick (s : State) : Nat := s.rg .SCH_TICK

/-- Initial values of a program's variables. -/
def SchProg.initVals (p : SchProg) : Tbl Nat :=
  (List.range p.vars.length).foldl (fun v i => Tbl.put 0 v i ((p.vars.getD i { name := 0, type := 0 }).init)) []

/-- What a start or a stop of the whole program leaves of its tasks: the run times of SCH_TASKTIME. -/
def schTimes (l : Tbl TaskSt) : Tbl TaskSt :=
  (l.map fun (e : Nat × TaskSt) => (e.1, ({ last := e.2.last, peak := e.2.peak } : TaskSt))).filter
    fun (e : Nat × TaskSt) => decide (e.2 ≠ {})

/-- The tasks at a start: every cyclic task's grid restarts at the tick. -/
def schGrids (p : SchProg) (l : Tbl TaskSt) (tick : Nat) : Tbl TaskSt :=
  (List.range p.cyc.length).foldl (fun (acc : Tbl TaskSt) i =>
    Tbl.upd {} acc i fun x => { x with grid := tick }) (schTimes l)

/-- A warm start (R267): retained variables keep their values of the current copy, grids restart at the tick, event
queues are empty. -/
def SchTen.warm (c : SchTen) (tick : Nat) : SchTen :=
  match c.prog with
  | none => c
  | some p =>
    let kept := if c.curB then c.keepB else c.keepA
    let vals := (List.range p.vars.length).foldl (fun v i =>
      if (p.vars.getD i { name := 0, type := 0 }).retained then Tbl.put 0 v i (Tbl.get 0 kept i) else v) p.initVals
    { c with st := .run, vals := vals, mustCold := false, releasing := false, keptFor := some p.digest,
             tasks := schGrids p c.tasks tick }

/-- A cold start (R267): every variable is initialised and forces are cleared. -/
def SchTen.cold (c : SchTen) (tick : Nat) : SchTen :=
  match c.prog with
  | none => c
  | some p =>
    let kept := (List.range p.vars.length).foldl (fun v i =>
      let x := p.vars.getD i { name := 0, type := 0 }
      if x.retained then Tbl.put 0 v i x.init else v) []
    { c with st := .run, vals := p.initVals, keepA := kept, keepB := kept, forces := [], mustCold := false, noWarm := false, keptFor := some p.digest,
             releasing := false, tasks := schGrids p c.tasks tick }

/-- Digest of a tenant's element and scheme programs; zero if none. -/
def State.elemDigest (s : State) (t : Nat) : Nat :=
  match s.tenCfg t with
  | some { elem := some p, .. } => p.digest
  | _ => 0
def State.schDigest (s : State) (t : Nat) : Nat :=
  match (s.schT t).prog with
  | some p => p.digest
  | none => 0

/-- A section of n bytes with its head, padded to 64 bytes (R346). -/
def snapSection (n : Nat) : Nat := (n + 8 + 63) / 64 * 64

/-- Bytes of a snapshot. The spec gives the sizes of sections 1 to 3; a publication, a timed-output entry and a
subscription count 64 bytes each. -/
def snapLength (mem sch pubs touts subs : Nat) : Nat :=
  192 + snapSection mem + snapSection (8192 * 16) + snapSection sch + snapSection (64 * pubs) + snapSection (64 * touts) +
    snapSection (64 * subs) + 16

/-- The snapshot of a tenant under a key; it draws a nonce. -/
def State.snapOf (s : State) (t slot key : Nat) (shipped : Bool) (saved cycle : Nat) : Snapshot × State :=
  let pubs := (s.pubsOf t).map fun i => (i, s.pub i)
  let touts := (s.ttuOf t).flatMap fun n => (s.ch n).q.map fun e => (n, e)
  let subs := s.goose.subs.filter fun e => match e.2.cfg with
    | some c => decide (c.tenant = t)
    | none => false
  let mem := match s.tenCfg t with | some { elem := some p, .. } => p.memory | _ => 0
  let sch := match (s.schT t).prog with | some p => p.data | none => 0
  let x : Snapshot :=
    { shipped := shipped, tenant := t, gen := (s.tenant t).gen, tenSeq := (s.tenant t).seq, elem := s.elemDigest t,
      sch := s.schDigest t, saved := saved, cycle := cycle,
      length := snapLength mem sch pubs.length touts.length subs.length, keySlot := slot, key := key,
      nonce := Config.randomBits s.freeN, ela := s.elaT t,
      points := s.pts.filter fun e => decide (e.1 / 8192 = t), run := s.schT t, pubs := pubs, touts := touts, subs := subs }
  (x, { s with freeN := s.freeN + 1 })

/-- The 192 bytes of the header (Table 15-10), the additional authenticated data of the snapshot. -/
def Snapshot.header (x : Snapshot) : List Byte :=
  [0x56, 0x53, 0x4E, 0x50] ++ leBytes 2 1 ++ leBytes 2 (b2n x.shipped) ++ leBytes 2 x.tenant ++ leBytes 2 x.gen ++
    leBytes 4 x.tenSeq ++ digestBytes x.elem ++ digestBytes x.sch ++ leBytes 8 x.saved ++ leBytes 8 x.cycle ++
    leBytes 4 x.length ++ leBytes 2 x.keySlot ++ List.replicate 2 0 ++ leBytes 12 x.nonce ++ List.replicate 44 0

/-- Puts the saved slot memory in place; the cursor is seated afresh (R347). On standby the program does not run (R246). -/
def State.snapEla (s : State) (t : Nat) (x : Snapshot) : State :=
  let e := s.elaT t
  match s.tenCfg t with
  | some { elem := some _, .. } =>
    s.setEla t { x.ela with st := if s.onStandby t then .out else .seat, window := none, openedAt := e.openedAt, seatTo := none, pendBlock := false,
                            pendFreeze := false, pendRelease := false, once := false, cnt := e.cnt, last := e.last,
                            peak := e.peak }
  | _ => s

/-- Writes the saved points: every own point as saved (R347). -/
def State.snapPoints (s : State) (t : Nat) (x : Snapshot) : State :=
  let own := s.pts.filter fun e => decide (e.1 / 8192 = t)
  let s := own.foldl (fun (s : State) e =>
    if x.points.any fun p => decide (p.1 = e.1) then s else s.putPoint e.1 {}) s
  x.points.foldl (fun (s : State) p => s.putPoint p.1 p.2) s

/-- Restores a publication's state and schedule; the schedule goes on from the present cycle (R347). DESIGN CHOICE: a stNum that has
gone on since the SAVE does not go back. -/
def State.snapPub (s : State) (e : Nat × Pub) : State :=
  let p := s.pub e.1
  match p.cfg with
  | none => s
  | some c =>
    let n := s.cycleOf c.tenant
    let o := e.2
    s.setPub e.1 { p with cur := o.cur, pending := o.pending, sent := o.sent, stNum := max p.stNum o.stNum, sq := o.sq,
                          interval := o.interval, silent := false,
                          due := if o.cur.isSome then some ((n + 1) % 2 ^ 64) else none }

/-- Queues a timed-output entry again when its instant lies at least 200 ns ahead, else drops and counts it (R347). -/
def State.snapTout (t : Nat) (s : State) (e : Nat × TtuEntry) : State :=
  if s.dt + 200 * 256 ≤ e.2.instant ∧ s.chOwnerKind e.1 = 2 ∧ s.chOwner e.1 = t then
    let c := s.ch e.1
    s.setCh e.1 { c with q := ttuInsert { e.2 with owner := some (t, (s.tenant t).gen) } c.q }
  else s.incRg .TEN_CNT t 15

/-- Loads the scheme state of a snapshot. -/
def State.snapSch (s : State) (t : Nat) (x : Snapshot) : State :=
  let c := s.schT t
  match c.prog with
  | some _ => s.setSch t { x.run with prog := c.prog, core := c.core, st := if s.onStandby t then .standby else .run, chg := c.chg, mustCold := false,
                                      noWarm := false, releasing := false, cnt := c.cnt }
  | none => s

/-- A restore that passes (R347). -/
def State.snapRestore (s : State) (t : Nat) (x : Snapshot) : State :=
  let s := ((s.snapEla t x).snapSch t x).snapPoints t x
  let s := x.pubs.foldl State.snapPub s
  let s := x.touts.foldl (State.snapTout t) s
  s.subReset t

end Sys2Proof.Machine
end

