-- ==== Sys2Proof/Machine/Pair.lean ====
section
/-! DEFINITION. Pairing (R224 to R255): partner messages, pairing state, alignment, seating, joins, agreement,
disagreements, class C snapshots; and the start of tile cycles. -/
namespace Sys2Proof.Machine

/-! Disagreement (R243) -/

/-- Ends a disagreement; `resolved` counts it. -/
def State.disClose (s : State) (t : Nat) (resolved : Bool) : State :=
  let p := s.parTen t
  if !p.open_ then s
  else
    let s := s.setParTen t { p with open_ := false, divrun := 0 }
    if resolved then (s.parInc t 5).setFlag .PAR_STAT 3 else s

/-- Disagreements of tenants whose agreement is no longer in force close. -/
def State.disCheck (s : State) : State :=
  (s.par.ten.map (·.1)).foldl (fun (s : State) t => if s.inForce t then s else s.disClose t false) s

/-- The state digests of a tenant's publications. -/
def State.sumDigs (s : State) (t : Nat) : List (Nat × Nat) :=
  (s.pubsOf t).filterMap fun i =>
    let p := s.pub i
    match p.cfg, p.cur with
    | some c, some st => some (c.pubno, cdigOf c st 0)
    | some c, none => some (c.pubno, 0)
    | _, _ => none

/-- Both summaries of one cycle with equal digests close the disagreement. -/
def State.sumCompare (s : State) (t : Nat) : State :=
  let p := s.parTen t
  match p.own, p.peer with
  | some a, some b => if a = b then s.disClose t true else s
  | _, _ => s

/-- Sends the SUMMARY of the present cycle. -/
def State.sumSend (s : State) (t : Nat) : State :=
  let p := s.parTen t
  let n := s.cycleOf t % 2 ^ 32
  let digs := s.sumDigs t
  let s := s.setParTen t { p with own := some (n, digs) }
  (s.parSendFor t (.summary t p.silenced n digs p.compl64)).sumCompare t

/-! Pairing state (R230) -/

/-- Enabled class H tenants in RUN. -/
def State.hRunning (s : State) : List Nat :=
  (s.ela.filter fun e => decide (e.2.st = .run) && s.classH e.1).map (·.1)

/-- The pairing state changes (R230); each entry to PAIRED sends the summaries of R252. Groups are aligned while PAIRED or on
the way to it (R232). -/
def State.pairGo (s : State) (st : PairSt) : State :=
  let aligned := if s.paired then 0 else s.par.aligned
  let s := { s with par := { s.par with st := st, since := s.frc, aligned := aligned } }
  let s := (s.setFlag .PAR_STAT 0).fire 20 (pairCode st)
  let s := if st = .lost then s.almond 10 else s
  let s := s.disCheck
  if st = .paired then
    let s := { s with par := { s.par with peerNotes := [], lateNotes := [] } }
    let s := (s.par.ten.map (·.1)).foldl (fun (s : State) t =>
      s.setParTen t { s.parTen t with alone := false, seatOwn := none, seatPeer := none }) s
    s.hRunning.foldl State.sumSend s
  else s

/-- Every enabled group is aligned (R232). -/
def State.allAligned (s : State) : Bool := (List.range 4).all fun g => !s.groupOn g || bit s.par.aligned g

/-- ROLE, SIDE and lifecycle of this module. -/
def State.role1 (s : State) : Nat := s.fld .PAR_CFG 0 0
def State.lifecycle (s : State) : Nat := s.fld .ATT_LC 2 0

/-- The checks of R231 on the partner's last HELLO. -/
def State.helloOk (s : State) (h : HelloInfo) : Bool :=
  decide (h.side ≠ s.pwr.side ∧ h.role ≠ s.role1 ∧ h.lifecycle = s.lifecycle ∧ (h.lifecycle = 2 ∨ h.lifecycle = 0) ∧
    h.image = s.boot.imageDigest)

/-- HANDSHAKE goes on: to PAIRED, to MISMATCH, or waits for alignment (Table 10-3, R231). -/
def State.handshake (s : State) : State :=
  match s.par.st, s.par.partner with
  | .handshake, some h =>
    if !s.helloOk h then s.pairGo .mismatch
    else
      let s := if h.run = s.boot.runDigest then s else s.setFlag .PAR_STAT 9
      if s.allAligned then s.pairGo .paired else s
  | _, _ => s

/-! Alignment (R232) -/

/-- The skew of group g from the partner's last HEARTBEAT, partner start less own start, in 1/256 ns. -/
def State.groupSkew (s : State) (g : Nat) : Option Int :=
  match (s.group g).start, s.par.peerStarts.getD g none with
  | some own, some (n, st) =>
    let pofs := signed 64 (s.rg .PAR_POFS)
    let dn := signed 64 ((n + 2 ^ 64 - s.rg .ELA_GRPCNT g) % 2 ^ 64)
    some (stampDiff (stampAdd st (-pofs)) own.stamp - dn * (256000000000 / (s.groupHz g : Int)))
  | _, _ => none

/-- A join fails (R237). -/
def State.joinFail (s : State) (t : Nat) : State :=
  (((s.setParTen t { s.parTen t with join := .failed, joinRec := none, joinRecv := 0 }).parInc t 8).setFlag .PAR_STAT 5).fire 23
    (t + 2 ^ 15)

/-- Joins of a tenant, as joiner and as donor, when its group is no longer aligned (R254). -/
def State.joinUnaligned (s : State) (t : Nat) : State :=
  let s := s.setParTen t { s.parTen t with donor := none }
  let j := (s.parTen t).join
  if j = .requested ∨ j = .running then s.joinFail t else s

/-- Measures group g: it is aligned while the skew of equal counts is within SKEWLIM and the nearest starts have equal counts,
which is while that skew is below half a period (R232). A group that ceases to be aligned stops agreement for its tenants and
fails their joins (R254). -/
def State.alignOne (s : State) (g : Nat) : State :=
  match s.par.cfg, s.groupSkew g with
  | some c, some d =>
    let ok := decide (d.natAbs ≤ c.skewLim * 1000 * 256 ∧ 2 * d.natAbs * s.groupHz g < 256000000000)
    let was := bit s.par.aligned g
    let s := { s with par := { s.par with skew := Tbl.put 0 s.par.skew g (d.tdiv 256),
                                          aligned := if ok then setBit s.par.aligned g else clrBit s.par.aligned g } }
    if was && !ok then
      let s := ((s.setFlag .PAR_STAT 8).fire 24 g).disCheck
      ((s.par.ten.map (·.1)).filter fun t => decide (s.groupOf t = g)).foldl State.joinUnaligned s
    else s
  | _, _ => s

def State.alignAll (s : State) : State := (List.range 4).foldl (fun (s : State) g => if s.groupOn g then s.alignOne g else s) s

/-! Cycle starts (R177, R243) -/

/-- A cycle start counts DIVRUN and sends the summaries of open disagreements. -/
def State.pairCycle (s : State) (g : Nat) : State :=
  let s := if s.paired then s.alignOne g else s
  (s.par.ten.map (·.1)).foldl (fun (s : State) t =>
    let p := s.parTen t
    if p.open_ && decide (s.groupOf t = g) then
      let run := min 65535 (p.divrun + 1)
      ((s.setParTen t { p with divrun := run }).disPersist run).sumSend t
    else s) s

/-- The oldest start edge of a group is taken: absorbed into a free-wheel start, ignored as early, or a start (R177). -/
def execGroupCycleStart (g : Nat) (s : State) :=
  match Tbl.get [] s.edges (5 + g) with
  | [] => done s
  | e :: rest =>
    let s := { s with edges := Tbl.put [] s.edges (5 + g) rest }
    if !s.groupOn g then done s
    else
      let x := s.group g
      match x.start with
      | none => done ((s.cycleStart g e false).pairCycle g)
      | some p =>
        let d := e.frc - p.frc
        if x.free && decide (d ≤ 2 * us) then done s
        else if 2 * d * s.groupHz g < sec then
          let v := s.rg .ELA_GRPEV g
          done ((s.setRg .ELA_GRPEV (setBits v 15 0 (satInc 16 (bits v 15 0))) g).setFlag .ELA_STAT 5)
        else done ((s.cycleStart g e false).pairCycle g)

/-- No start edge within P + 2 µs: the tiles start the cycle themselves (R177). -/
def execFreewheelStart (g : Nat) (s : State) :=
  let x := s.group g
  match x.start, Tbl.get [] s.edges (5 + g) with
  | some p, [] =>
    if s.groupOn g && decide (sec ≤ (s.frc - p.frc - 2 * us) * s.groupHz g) then
      let s := (s.cycleStart g { stamp := s.dt, frc := s.frc } true).pairCycle g
      let v := s.rg .ELA_GRPEV g
      done (((s.setRg .ELA_GRPEV (setBits v 31 16 (satInc 16 (bits v 31 16))) g).setFlag .ELA_STAT 4).fire 15 g)
    else done s
  | _, _ => done s

/-! Receiving (R226) -/

/-- The frame came over the partner port; else it is a beacon. -/
def State.onPartner (s : State) (rx : RxFrame) : Bool := decide (s.role rx.port = Role.partner)

/-- Drops the front frame and its remaining messages. -/
def State.parDrop (s : State) : State := { s with par := { s.par with rx := s.par.rx.tail, accepted := false } }

/-- The front message was served: the next one of its frame, or the next frame, comes to the front. -/
def State.parNext (s : State) : State :=
  match s.par.rx with
  | [] => s
  | rx :: rest =>
    match rx.frame.payload with
    | .partner f =>
      if f.msgs.length ≤ 1 then s.parDrop
      else { s with par := { s.par with
        rx := { rx with frame := { rx.frame with payload := .partner { f with msgs := f.msgs.tail } } } :: rest } }
    | _ => s.parDrop

/-- A discarded partner frame. -/
def State.parRefuse (s : State) (k : Nat) : State := (((s.parDrop).addRg64 .PAR_LCNT 1 k).setFlag .PAR_STAT 7).fire 25 0

/-- Checks the front frame once: tag, then counter (R226). The second component tells that it stands accepted. -/
def State.parAccept (s : State) (rx : RxFrame) (f : PartnerFrame) : State × Bool :=
  if s.par.accepted then (s, true)
  else
    match s.par.cfg with
    | none => (s.parDrop, false)
    | some c =>
      if s.checkTag f.tag c.pairKey Use.pair none ≠ some true then (s.parRefuse 2, false)
      else
        let hello := f.msgs.any fun m => match m with | .hello .. => true | _ => false
        let replay := !hello && (match s.par.floor with | some x => decide (f.ctr ≤ x) | none => false)
        if replay then (s.parRefuse 3, false)
        else
          let s := { s with par := { s.par with accepted := true, floor := some f.ctr } }.addRg64 .PAR_LCNT 1 1
          if s.onPartner rx then ({ s with par := { s.par with heard := some s.frc } }, true)
          else ({ s with par := { s.par with beacon := some s.frc } }.addRg64 .PAR_LCNT 1 4, true)

/-- Serves the front message when it is of the kind wanted; `beacon` chooses frames of the station node. -/
def State.parServe (s : State) (beacon : Bool) (serve : RxFrame → PartnerMsg → Option (State → State)) : State :=
  match s.par.rx with
  | [] => s
  | rx :: _ =>
    match rx.frame.payload with
    | .partner f =>
      match f.msgs with
      | [] => s.parDrop
      | m :: _ =>
        if s.onPartner rx = beacon then s
        else match serve rx m with
          | none => s
          | some g =>
            let (s, ok) := s.parAccept rx f
            if ok then g s.parNext else s
    | _ => s.parDrop

/-- HELLO (R230, R231). -/
def State.hello (s : State) (h : HelloInfo) : State :=
  let old := s.par.partner
  let changed := match old with | some o => decide (o.image ≠ h.image ∨ o.role ≠ h.role) | none => true
  let s := { s with par := { s.par with partner := some h } }
  match s.par.st with
  | .seek | .isolated | .lost => (s.pairGo .handshake).handshake
  | .mismatch => if changed then (s.pairGo .handshake).handshake else s
  | .handshake => s.handshake
  | .paired => s

def execHello (s : State) := done (s.parServe false fun _ m => match m with
  | .hello side role lc image run addr => some fun s =>
    s.hello { side := side, role := role, lifecycle := lc, image := image, run := run, addr := addr }
  | _ => none)

/-- What a HEARTBEAT reports, without its exchange stamps. -/
def State.peerReport (s : State) (st : Nat) (starts : List (Option (Nat × Stamp))) (run : List Nat) : State :=
  { s with par := { s.par with peerSt := st, peerStarts := starts, peerRun := run } }

/-- HEARTBEAT (R227, R232). -/
def execHeartbeat (s : State) := done (s.parServe false fun rx m => match m with
  | .heartbeat x st starts run => some fun s =>
    let t4 := rx.stamp
    let s := match x with
      | some e =>
        let s := { s with par := { s.par with hbIn := some (e.t3, t4) } }
        match e.back with
        | some (t1, t2) =>
          let s := s.setRg .PAR_POFS (unsigned 64 ((stampDiff t2 t1 - stampDiff t4 e.t3) / 2))
          s.setRg .PAR_PDLY (unsigned 32 ((stampDiff t4 t1 - stampDiff e.t3 t2) / 2))
        | none => s
      | none => s
    ((s.peerReport st starts run).alignAll.disCheck).handshake
  | _ => none)

/-- A beacon: its HEARTBEAT, and with a HEALTH the report (R228). -/
def execBeacon (s : State) := done (s.parServe true fun _ m => match m with
  | .heartbeat _ st starts run => some fun s =>
    let s := s.peerReport st starts run
    if s.par.st = .lost then s.pairGo .isolated else s
  | .health w => some fun s =>
    { s with sge := { s.sge with prep := w, peerAt := some s.frc, peerLost := false } }.setFlag .SGE_STAT 7
  | _ => some fun s => s)

/-- FRC at which a held DIGEST counts as unmatched: the close of the tenant's window in its CYCLE, plus WINDOW (R239). -/
def State.digestEnd (s : State) (d : DigestRec) (window : Nat) : Nat :=
  let g := s.groupOf d.tenant
  let slot := match s.tenCfg d.tenant with | some c => c.slot | none => 0
  let dn := signed 32 ((d.cycle + 2 ^ 32 - s.rg .ELA_GRPCNT g % 2 ^ 32) % 2 ^ 32)
  let start : Int := match (s.group g).start with | some p => (p.frc : Int) | none => (s.frc : Int)
  (start + dn * (1000000000 : Int) / (s.groupHz g : Int) + (slot + 1 : Nat) * (s.groupWin g : Int)).toNat + window * us

/-- The local state of a DIGEST was released already. -/
def State.digestDone (s : State) (d : DigestRec) : Bool :=
  match s.pubOf d.tenant d.pubno with
  | some i => match (s.pub i).stateCycle with
    | some n => decide (n % 2 ^ 32 = d.cycle)
    | none => false
  | none => false

/-- DIGEST (R239): one that comes after WINDOW no longer releases the state. -/
def execDigest (s : State) := done (s.parServe false fun _ m => match m with
  | .digest d => some fun s =>
    let s := s.setParTen d.tenant { s.parTen d.tenant with peerCompl := d.compl }
    match s.par.cfg with
    | none => s
    | some c =>
      match s.par.agree.find? fun a => decide (a.tenant = d.tenant ∧ a.pubno = d.pubno ∧ a.cycle = d.cycle ∧
          s.frc ≤ a.tr + c.window * us) with
      | some a => s.agreeMeet a d
      | none =>
        if s.digestDone d then s
        else { s with par := { s.par with digs := s.par.digs ++ [{ rec_ := d, until_ := s.digestEnd d c.window }] } }
  | _ => none)

/-- SUMMARY (R243): compared with the own summary of the cycle; a module that has sent none for the cycle answers. -/
def execSummary (s : State) := done (s.parServe false fun _ m => match m with
  | .summary t _ cycle digs compl => some fun s =>
    let p := s.parTen t
    let s := s.setParTen t { p with peer := some (cycle, digs), peerCompl := compl }
    let n := s.cycleOf t % 2 ^ 32
    if !p.open_ && decide (p.own.map (·.1) ≠ some n) then s.sumSend t else s.sumCompare t
  | _ => none)

/-- Gives the first item that fits its new form. -/
def mapFirst {α : Type} (fits : α → Bool) (f : α → α) : List α → List α
  | [] => []
  | x :: l => if fits x then f x :: l else x :: mapFirst fits f l

/-- The last 256 of a list of notes with one more. -/
def noteAdd (l : List (Nat × Nat × Nat × Nat)) (e : Nat × Nat × Nat × Nat) : List (Nat × Nat × Nat × Nat) :=
  let l := l.filter (fun x => decide (noteKey x ≠ noteKey e)) ++ [e]
  l.drop (l.length - 256)

/-- NOTICE (R235): it fixes the delivery cycle of the own held delivery with the same key. One that comes after its delivery
has been applied changes nothing; one that comes before it is kept. DEDUCED: a NOTICE serves one delivery, the newest of its
key counts, and it is late for a delivery applied alone in its arrival cycle or after. -/
def execNotice (s : State) := done (s.parServe false fun _ m => match m with
  | .notice sub stNum ddig arrival => some fun s =>
    match s.par.cfg with
    | none => s
    | some c =>
      let e := (sub, stNum, ddig, arrival)
      let mine (h : HeldNotice) : Bool := decide (h.key = noteKey e) && !h.matched
      let late := s.par.lateNotes.any fun x => decide (noteKey x = noteKey e ∧ arrival ≤ x.2.2.2)
      let lateNotes := s.par.lateNotes.filter fun x => decide (noteKey x ≠ noteKey e)
      if s.par.notices.any mine then
        { s with par := { s.par with notices := mapFirst mine (fun h => h.meet arrival c.dlag) s.par.notices } }
      else if late then { s with par := { s.par with lateNotes := lateNotes } }
      else { s with par := { s.par with peerNotes := noteAdd s.par.peerNotes e, lateNotes := lateNotes } }
  | _ => none)

/-- SEAT (R236): a proposal; a differing TEN_SEQ lets the tenant seat alone; a join drops it (R254). -/
def execSeat (s : State) := done (s.parServe false fun _ m => match m with
  | .seat t phase act seq => some fun s =>
    let p := s.parTen t
    if p.join = .requested ∨ p.join = .running then s
    else if seq ≠ (s.tenant t).seq then s.setParTen t { p with seqDiff := true, seatOwn := none, seatPeer := none }
    else s.setParTen t { p with seqDiff := false, seatPeer := some (phase, act) }
  | _ => none)

/-- JOIN: a request fixes the donor's join cycle; the pieces of a record are gathered, and it is kept until the joiner applies
it (R237). -/
def execJoinMessage (s : State) := done (s.parServe false fun _ m => match m with
  | .joinAsk t => some fun s =>
    if s.classH t && decide ((s.elaT t).st = .run) then
      s.setParTen t { s.parTen t with donor := some (s.cycleOf t + 2), seatOwn := none, seatPeer := none }
    else s
  | .joinRec i n r => some fun s =>
    let p := s.parTen r.tenant
    if p.join ≠ .requested ∧ p.join ≠ .running then s
    else if i ≠ 0 ∧ i ≠ p.joinRecv then s.setParTen r.tenant { p with joinRecv := 0 }
    else if i + 1 < n then s.setParTen r.tenant { p with join := .running, joinRecv := i + 1 }
    else s.setParTen r.tenant { p with join := .running, joinRecv := 0, joinRec := some r }
  | _ => none)

/-- SNAPSHOT (R247): the last block verifies the tag; only then the kept snapshot is replaced. -/
def execSnapshot (s : State) := done (s.parServe false fun _ m => match m with
  | .snapshot i n x => some fun s =>
    let p := s.parTen x.tenant
    if i ≠ 0 ∧ i ≠ p.recv then s.setParTen x.tenant { p with recv := 0 }
    else if i + 1 < n then s.setParTen x.tenant { p with recv := i + 1 }
    else
      let key := match s.par.cfg with | some c => s.usableKey c.snapKey Use.snapshot none | none => none
      if x.formatOk && x.intact && decide (key = some x.key) then
        (s.setParTen x.tenant { p with recv := 0, kept := some (x, s.frc) }).parInc x.tenant 11
      else (s.setParTen x.tenant { p with recv := 0 }).setFlag .PAR_STAT 6
  | _ => none)

/-- HEALTH (R250). -/
def execHealth (s : State) := done (s.parServe false fun _ m => match m with
  | .health w => some fun s =>
    { s with sge := { s.sge with prep := w, peerAt := some s.frc, peerLost := false } }.setFlag .SGE_STAT 7
  | _ => none)

/-- CAPFIRE (R379): the own group of the same master fires with PEER set, at the own device time of the stamp. -/
def execCapfire (s : State) := done (s.parServe false fun _ m => match m with
  | .capfire u t => some fun s =>
    match (s.cap u).cfg with
    | some g =>
      if g.peer && decide (g.group = u) && s.paired then s.capFire u (stampAdd t (-(signed 64 (s.rg .PAR_POFS)))) u true else s
    | none => s
  | _ => none)

/-! Sending -/

/-- A period has passed since an instant. -/
def State.due (s : State) (from_ : Option Nat) (period : Nat) : Bool :=
  match from_ with
  | some t => decide (t + period ≤ s.frc)
  | none => true

def execHelloSend (s : State) :=
  if s.paired || !s.due s.par.helloAt (10 * ms) then done s
  else
    let s := { s with par := { s.par with helloAt := some s.frc } }
    done (s.parSend (.hello s.pwr.side s.role1 s.lifecycle s.boot.imageDigest s.boot.runDigest (s.fld .PAR_BADDR 47 0)))

/-- Counts and start stamps of the groups. -/
def State.groupStarts (s : State) : List (Option (Nat × Stamp)) :=
  (List.range 4).map fun g => (s.group g).start.map fun p => (s.rg .ELA_GRPCNT g, p.stamp)

/-- HEARTBEAT with the stamps of the partner's last one; its own egress stamp is put in at transmission (R227). -/
def execHeartbeatSend (s : State) :=
  if !s.due s.par.hbAt (100 * us) then done s
  else
    let s := { s with par := { s.par with hbAt := some s.frc } }
    done (s.parSend (.heartbeat (some { back := s.par.hbIn, t3 := s.dt }) (pairCode s.par.st) s.groupStarts s.hRunning))

/-- A beacon over the station node to the address learnt from HELLO (R228). -/
def execBeaconSend (s : State) :=
  match s.par.cfg, s.par.partner with
  | some c, some h =>
    if !s.flag .PAR_BADDR 63 || !s.due s.par.beaconAt ms then done s
    else
      let s := { s with par := { s.par with beaconAt := some s.frc } }
      let hb : PartnerMsg := .heartbeat none (pairCode s.par.st) s.groupStarts s.hRunning
      let msgs := if s.sge.beacon then [hb, .health s.sge.lrep] else [hb]
      let s := { s with sge := { s.sge with beacon := false } }
      done (s.parEmit c h.addr (s.nodePorts 1) true msgs)
  | _, _ => done s

/-- The next piece of a message in reception: the bytes of the whole message, or what has come so far. -/
def supGather (part : Option (Nat × List Byte)) (i n : Nat) (d : List Byte) : Option (List Byte) × Option (Nat × List Byte) :=
  let sofar := if i = 0 then some [] else match part with | some (k, l) => if k = i then some l else none | none => none
  match sofar with
  | none => (none, none)
  | some l => if i + 1 < n then (none, some (i + 1, l ++ d)) else (some (l ++ d), none)

/-- The next piece of the partner's SUPMSG is received; a whole message is the supervisor's (R225, R253). -/
def execSupmsg (s : State) :=
  done (s.parServe false fun _ m => match m with
    | .supmsg i n d => some fun s =>
      let r := supGather s.par.supPart i n d
      { s with par := { s.par with sup := s.par.sup ++ r.1.toList, supPart := r.2 } }
    | _ => none)

/-! Timers of the pairing state (Table 10-3) -/

def State.detect (s : State) : Nat := match s.par.cfg with | some c => c.detect * ms | none => 20 * ms
def State.beaconSilent (s : State) : Bool := s.due s.par.beacon s.detect

def execSilenceDetect (s : State) :=
  if s.paired && s.due s.par.heard s.detect then
    done (if s.beaconSilent then s.pairGo .lost else s.pairGo .isolated)
  else done s

def execBeaconSilenceDetect (s : State) :=
  if s.par.st = .isolated ∧ s.beaconSilent then done (s.pairGo .lost) else done s

def execHandshakeTimeout (s : State) :=
  if s.par.st = .handshake ∧ s.par.since + sec ≤ s.frc then done ((s.addRg64 .PAR_LCNT 1 5).pairGo .seek) else done s

/-! Agreement (R239) -/

/-- WINDOW passes without a DIGEST: ALONE (Table 10-5). -/
def execAgreementWindowExpiry (t pubno : Nat) (s : State) :=
  let window := match s.par.cfg with | some c => c.window * us | none => 0
  match s.par.agree.find? fun a => decide (a.tenant = t ∧ a.pubno = pubno ∧ a.tr + window ≤ s.frc) with
  | none => done s
  | some a =>
    let opened := (s.parTen t).open_
    let s := (((s.parInc t 2).setFlag .PAR_STAT 10).fire 22 t).agreeRelease a opened
    done (s.disOpen t)

/-- A held DIGEST finds no local state: UNMATCHED, and a disagreement opens (R239, R243). -/
def execDigestHoldExpiry (i : Nat) (s : State) :=
  match s.par.digs[i]? with
  | some h =>
    if h.until_ ≤ s.frc then
      let s := { s with par := { s.par with digs := s.par.digs.eraseIdx i } }
      let t := h.rec_.tenant
      done ((s.parInc t 3).disOpen t)
    else done s
  | none => done s

/-! Deliveries (R235) -/

/-- Just before the fetch instant of cycle D the held writes of a tenant are applied. The fetch of slot 0 lies in the
cycle before. -/
def execNoticeDeliveryApply (t : Nat) (s : State) :=
  match s.par.cfg with
  | none => done s
  | some _ =>
    let slot := match s.tenCfg t with | some x => x.slot | none => 0
    let n := s.cycleOf t + (if slot = 0 then 1 else 0)
    let hs := s.par.notices
    let due (h : HeldNotice) : Bool := decide (h.tenant = t ∧ h.cycle ≤ n)
    let s := { s with par := { s.par with notices := hs.filter fun h => !due h } }
    done ((hs.filter due).foldl (fun (s : State) (h : HeldNotice) =>
      let late := noteAdd s.par.lateNotes (h.sub, h.stNum, h.ddig, h.cycle)
      let s := if h.matched then s else { s.parInc t 10 with par := { (s.parInc t 10).par with lateNotes := late } }
      match (s.sub h.sub).cfg with
      | some sc => s.subApply h.sub sc (if h.stale then s.stalePoints sc h.stamp else h.points) h.stamp h.event
      | none => s) s)

/-! Seating (R236) -/

/-- The phase that both modules seat with in cycle n, if one is agreed for it. -/
def State.seatAgreed (s : State) (t n : Nat) : Option Nat :=
  let p := s.parTen t
  let prim (a b : Nat) : Nat := if s.role1 = 0 then a else b
  match (s.elaT t).st, p.seatOwn, p.seatPeer with
  | .seat, some (a, m), some (b, k) => if max m k ≤ n then some (prim a b) else none
  | .run, some (a, m), some (b, k) =>
    if m = n ∧ k = n then some (prim a b) else if m = n then some a else if k = n then some b else none
  | .run, some (a, m), none => if m = n then some a else none
  | .run, none, some (b, k) => if k = n then some b else none
  | _, _, _ => none

def execSeatActivation (t : Nat) (s : State) :=
  match s.seatAgreed t (s.cycleOf t) with
  | some ph =>
    let s := s.setParTen t { s.parTen t with seatOwn := none, seatPeer := none }
    done ((s.setEla t { s.elaT t with seatTo := some ph }).parInc t 9)
  | none => done s

/-- No partner SEAT within JOINWAIT: the tenant seats alone. -/
def execJoinwaitExpiry (t : Nat) (s : State) :=
  let p := s.parTen t
  let wait := match s.par.cfg with | some c => c.joinWait * ms | none => 0
  if p.seatOwn.isSome && p.seatPeer.isNone && decide (p.seatFrom + wait ≤ s.frc ∧ (s.elaT t).st = .seat) then
    done (s.setParTen t { p with seatOwn := none, alone := true })
  else done s

/-! Commands of PAR_TCMD (R237, R244, R246, R248) -/

def State.parSel (s : State) : Nat := s.fld .PAR_TSEL 11 0

def execSilence (s : State) :=
  let t := s.parSel
  if s.classH t then done (s.setParTen t { s.parTen t with silenced := true }) else done s
def execUnsilence (s : State) :=
  let t := s.parSel
  if s.classH t then done (s.setParTen t { s.parTen t with silenced := false }) else done s

/-- JOIN: the donor is asked; a pending SEAT proposal is dropped (R254). -/
def execJoin (s : State) :=
  let t := s.parSel
  let st := (s.elaT t).st
  if s.classH t && s.paired && decide (st = .seat ∨ st = .run) then
    let s := s.setParTen t { s.parTen t with join := .requested, joinRec := none, joinRecv := 0, seatOwn := none, seatPeer := none,
                                             askedAt := s.cycleOf t }
    done (s.parSendFor t (.joinAsk t))
  else done s

/-- The next block of a snapshot in transit is asked for: it leaves with a credit of boundary 15. Without one it is refused,
as every unit there (R19): the snapshot ends incomplete. DESIGN CHOICE: a block is asked for when the snapshot is taken and at
each later return of a credit of its tenant, and a snapshot that a refusal ends counts as failed (PAR_STAT.SNAP_FAIL). -/
def State.shipNext (s : State) (t : Nat) : State :=
  match (s.parTen t).ship with
  | none => s
  | some (x, i, n) =>
    if s.avail Bnd.partner t = 0 then
      let s := s.refuse Bnd.partner t
      (s.setParTen t { s.parTen t with ship := none }).setFlag .PAR_STAT 6
    else
      let s := (s.takeCredit Bnd.partner t).parSend (.snapshot i n x)
      if i + 1 < n then s.setParTen t { s.parTen t with ship := some (x, i + 1, n) }
      else (s.setParTen t { s.parTen t with ship := none }).parInc t 11

/-- Takes a class C snapshot and ships its first block; it is skipped while the previous one is in transit (R246), and without
a usable SNAPKEY. -/
def State.snapTake (s : State) (t : Nat) : State :=
  let p := s.parTen t
  let key := match s.par.cfg with | some c => (s.usableKey c.snapKey Use.snapshot none).map fun k => (c.snapKey, k) | none => none
  let skip := (s.setParTen t { p with snapAt := s.frc }).setFlag .PAR_STAT 6
  if p.ship.isSome then skip
  else match key with
    | none => skip
    | some (slot, k) =>
      let (x, s) := s.snapOf t slot k true (stampNs s.dt) (s.cycleOf t)
      (s.setParTen t { p with ship := some (x, 0, piecesOf x.length), snapAt := s.frc }).shipNext t

/-- The tenant is an active class C tenant of a PAIRED module. -/
def State.shipping (s : State) (t : Nat) : Bool := s.classC t && decide ((s.parTen t).cst = 1) && s.paired

def execShip (s : State) := if s.shipping s.parSel then done (s.snapTake s.parSel) else done s

/-- Every SNAP ms at a common cycle boundary (R246). -/
def execSnapshotTake (t : Nat) (s : State) :=
  let snap := match s.par.cfg with | some c => c.snap * ms | none => 0
  if s.shipping t && (s.schT t).atBoundary && decide ((s.parTen t).snapAt + snap ≤ s.frc) then done (s.snapTake t) else done s

/-- A class C tenant's publications restart: their next state has stNum 1 (R248). -/
def State.pubRestart (s : State) (t : Nat) : State :=
  (s.pubsOf t).foldl (fun (s : State) i =>
    s.setPub i { s.pub i with cur := none, pending := none, sent := none, stNum := 0, sq := 0, due := none }) s

/-- TAKEOVER: the kept snapshot is restored and the tenant starts as at a warm restart; refused when the snapshot names
another scheme program (R248, R265). -/
def execTakeover (s : State) :=
  let t := s.parSel
  let p := s.parTen t
  match p.kept with
  | some (x, _) =>
    if !s.classC t || decide (p.cst ≠ 2) then done s
    else if x.sch ≠ s.schDigest t then done (s.setFlag .SCH_STAT 7)
    else
      let s := s.setParTen t { s.parTen t with cst := 1, recv := 0 }
      let s := (s.snapRestore t x).pubRestart t
      let c := s.schT t
      done (s.setSch t (c.warm (s.tick + 1)))
  | none => done s

/-- RELEASE of an active class C tenant (R248): its scheme program goes to STANDBY at the first tick with no task active (R265).
DESIGN CHOICE: the element program stops at once, and the publications fall silent as at a tenant reset, once no task can call
them. -/
def execPairRelease (s : State) :=
  let t := s.parSel
  if s.classC t && decide ((s.parTen t).cst = 1) then
    let c := s.schT t
    let s := s.setParTen t { s.parTen t with cst := 2, ship := none }
    let s := s.elaReset t
    done (if c.st = .run then s.setSch t { c with releasing := true } else s.pubReset t)
  else done s

/-! Joins (R237) -/

/-- Octets of a join record, at most 21 KiB (R237). DESIGN CHOICE: slot memory, 16 for each point, 8 for each value and quality of
a publication's states and 32 for its numbers; the spec gives the bound only. -/
def State.joinLen (s : State) (r : JoinRec) : Nat :=
  let mem := match s.tenCfg r.tenant with | some { elem := some p, .. } => p.memory | _ => 0
  let states (p : Pub) : Nat := ((p.cur.toList ++ p.pending.toList).map fun x => 8 * x.vals.length).foldl (· + ·) 32
  min (21 * 1024) (mem + 16 * r.points.length + (r.pubs.map fun e => states e.2).foldl (· + ·) 0 + 16)

/-- At the close of window j the donor captures the join record and sends it. -/
def execJoinCapture (t : Nat) (s : State) :=
  let p := s.parTen t
  let e := s.elaT t
  let n := s.cycleOf t
  let start := (s.group (s.groupOf t)).start.map (·.frc)
  match p.donor with
  | none => done s
  | some j =>
    if e.st ≠ ElaSt.run ∨ !s.pairAligned t then done (s.setParTen t { p with donor := none })
    else if n < j ∨ (n = j ∧ (e.window.isSome ∨ e.openedAt ≠ start)) then done s
    else
      let ptins := match s.tenCfg t with | some { elem := some g, .. } => g.ptins | _ => []
      let r : JoinRec :=
        { tenant := t, cycle := n, phase := phaseOf (s.groupHz (s.groupOf t)) e.cursor n, seq := (s.tenant t).seq, ela := e,
          points := (ptins.filter fun h => decide (h / 8192 = t)).map fun h => (h, s.point h),
          pubs := (s.pubsOf t).map fun i => (i, s.pub i) }
      let k := piecesOf (s.joinLen r)
      done ((List.range k).foldl (fun (s : State) i => s.parSendFor t (.joinRec i k r)) (s.setParTen t { p with donor := none }))

/-- A publication takes the donor's numbers, states and schedule. -/
def Pub.join (p o : Pub) : Pub :=
  { p with cur := o.cur, pending := o.pending, sent := o.sent, stNum := o.stNum, sq := o.sq, stateCycle := o.stateCycle,
           frameCycle := o.frameCycle, due := o.due, interval := o.interval, silent := o.silent }

/-- The fetch instant of a tenant in cycle n has come (R178). -/
def State.fetchPast (s : State) (t n : Nat) : Bool :=
  let g := s.groupOf t
  match (s.group g).start, s.tenCfg t with
  | some p, some c =>
    let start : Int := (p.frc : Int) + ((n : Int) - (s.rg .ELA_GRPCNT g : Int)) * 1000000000 / (s.groupHz g : Int)
    decide (start + (c.slot * s.groupWin g : Nat) ≤ (s.frc : Int) + 1000)
  | _, _ => false

/-- The joiner applies a record with equal TEN_SEQ after its own window j and before its fetch instant of cycle j + 1, and runs
from window j + 1; else the join fails, and so it does with no record by that instant, j being two after the request (R237). -/
def execJoinApply (t : Nat) (s : State) :=
  let p := s.parTen t
  let e := s.elaT t
  let n := s.cycleOf t
  let start := (s.group (s.groupOf t)).start.map (·.frc)
  if p.join ≠ .requested ∧ p.join ≠ .running then done s
  else match p.joinRec with
    | some r =>
      if s.fetchPast t (r.cycle + 1) || decide (r.seq ≠ (s.tenant t).seq) || !s.pairAligned t then done (s.joinFail t)
      else if n < r.cycle ∨ (n = r.cycle ∧ (e.window.isSome ∨ e.openedAt ≠ start)) then done s
      else
        let s := s.setEla t { r.ela with window := none, openedAt := e.openedAt, seatTo := none, pendBlock := false,
                                         pendFreeze := e.pendFreeze, st := .run, cnt := e.cnt, last := e.last,
                                         peak := e.peak, once := true,
                                         cursor := (r.cycle + r.phase) % s.groupHz (s.groupOf t) }
        let s := r.points.foldl (fun (s : State) x => s.putPoint x.1 x.2) s
        let s := r.pubs.foldl (fun (s : State) x => s.setPub x.1 ((s.pub x.1).join x.2)) s
        let s := s.setParTen t { s.parTen t with join := .none, joinRec := none, silenced := false, seqDiff := false }
        done (((s.parInc t 7).setFlag .PAR_STAT 4).fire 23 t)
    | none => if s.fetchPast t (p.askedAt + 3) then done (s.joinFail t) else done s

/-- A tenant reset ends agreement, joins and a silence of the tenant (R244, R254, Table 15-9). -/
def State.parReset (s : State) (t : Nat) : State :=
  let p := s.parTen t
  (s.disClose t false).setParTen t
    { p with silenced := false, seatOwn := none, seatPeer := none, alone := false, seqDiff := false, donor := none, joinRec := none,
             joinRecv := 0,
             join := if p.join = .requested ∨ p.join = .running then .failed else p.join, open_ := false, divrun := 0,
             ship := none }

/-! Counter clears (R255) -/

def PairTen.put (x : PairTen) (c : Tbl Nat) : PairTen := { x with cnt := c }
def execParClearLink (s : State) := done (iterUpto 6 (fun k (s : State) => s.clrCount .PAR_LCNT k) s)
def execParClearAll (s : State) :=
  done { s with par := { s.par with ten := Tbl.recount {} s.par.ten s.now.par PairTen.cnt PairTen.put },
                now := { s.now with par := Tbl.recount {} s.now.par s.now.par PairTen.cnt PairTen.put } }
def execParClearSel (s : State) :=
  let t := s.parSel
  done { s with par := { s.par with ten := Tbl.recountAt {} s.par.ten s.now.par t PairTen.cnt PairTen.put },
                now := { s.now with par := Tbl.recountAt {} s.now.par s.now.par t PairTen.cnt PairTen.put } }

end Sys2Proof.Machine
end

