-- ==== Sys2Proof/Machine/Scheme.lean ====
section
/-! DEFINITION. Scheme cores and the cyclic runtime (R256 to R274): ticks, activations, program states, forces and online
changes. What the code of a task computes comes with the command that ends its activation. -/
namespace Sys2Proof.Machine

/-! Programs -/

/-- The running structure digest is extended (R47, R272). -/
def State.extendRun (s : State) (d : Digest) : State :=
  { s with boot := { s.boot with runDigest := Config.sha384 (digestBytes s.boot.runDigest ++ digestBytes d) } }

/-- The limits of Table 11-1. -/
def SchProg.limitOk (p : SchProg) : Bool :=
  decide (p.cyc.length ≤ 8 ∧ p.evt.length ≤ 16 ∧ 1 ≤ p.cyc.length + p.evt.length ∧ p.code ≤ 2 ^ 20 ∧ p.data ≤ 2 ^ 20 ∧
    p.retained ≤ 8192 ∧ p.pubs.length ≤ 16) &&
  p.cyc.all (fun c => decide (1 ≤ c.period ∧ c.period ≤ 40000 ∧ c.phase < c.period ∧ c.prio ≤ 15 ∧ c.inp.length ≤ 1024 ∧
    c.outp.length ≤ 1024)) &&
  p.evt.all fun e => decide (e.prio ≤ 15 ∧ 1 ≤ e.wdog ∧ e.wdog ≤ 40000 ∧ e.pts.length ≤ 16 ∧ e.inp.length ≤ 1024 ∧
    e.outp.length ≤ 1024)

/-- R258: points within the tenant's rights, publications with a GOOSE entry of the tenant, PUBNO and SRC 1. -/
def State.schCrossOk (s : State) (t : Nat) (p : SchProg) : Bool :=
  let rd (h : Nat) : Bool := s.canPoint t h false
  let wr (h : Nat) : Bool := s.canPoint t h true
  p.cyc.all (fun c => c.inp.all rd && c.outp.all wr) &&
  p.evt.all (fun e => e.pts.all rd && e.inp.all rd && e.outp.all wr) &&
  p.points.all (fun x => rd x.1 || wr x.1) &&
  p.pubs.all fun n => match s.pubOf t n with
    | some i => match (s.pub i).cfg with | some c => c.scheme | none => false
    | none => false

/-! Tasks -/

/-- Task k: 0 to 7 cyclic, 8 to 23 event. -/
def SchTen.task (c : SchTen) (k : Nat) : TaskSt := Tbl.get {} c.tasks k
def SchTen.setTask (c : SchTen) (k : Nat) (x : TaskSt) : SchTen := { c with tasks := Tbl.put {} c.tasks k x }
def SchTen.inc (c : SchTen) (k n : Nat) : SchTen := { c with cnt := Tbl.upd 0 c.cnt k fun v => satAdd 32 v n }

/-- Priority of task k. -/
def SchProg.prio (p : SchProg) (k : Nat) : Nat :=
  if k < 8 then ((p.cyc[k]?).map (·.prio)).getD 15 else ((p.evt[k - 8]?).map (·.prio)).getD 15

/-- Input and output lists of task k. -/
def SchProg.inputs (p : SchProg) (k : Nat) : List Nat :=
  if k < 8 then ((p.cyc[k]?).map (·.inp)).getD [] else ((p.evt[k - 8]?).map (·.inp)).getD []
def SchProg.outputs (p : SchProg) (k : Nat) : List Nat :=
  if k < 8 then ((p.cyc[k]?).map (·.outp)).getD [] else ((p.evt[k - 8]?).map (·.outp)).getD []

/-- The activation of a task that the core may run: the current one unless it waits, else the oldest queued one. -/
def TaskSt.ready (x : TaskSt) : Option Activation :=
  match x.cur with
  | some a => if a.waitFrom.isSome then none else some a
  | none => x.queue.head?

/-- The better of two candidates (R259): higher priority, then earlier activation. -/
def schBetter (a b : Option (Nat × Nat × Nat × Nat)) : Option (Nat × Nat × Nat × Nat) :=
  match a, b with
  | some (p, o, x, y), some (p', o', x', y') => if p < p' ∨ (p = p' ∧ o < o') then some (p, o, x, y) else some (p', o', x', y')
  | some x, none => some x
  | none, b => b

/-- The task of which a write waits for a credit: it stalls its core at that instruction (R21). -/
def State.schStalled (s : State) (core : Nat) : Option (Nat × Nat) :=
  s.sch.ten.findSome? fun e =>
    if e.2.core = core ∧ e.2.st = SchSt.run then
      (e.2.tasks.find? fun x => match x.2.cur with | some a => a.waitFrom.isSome | none => false).map fun x => (e.1, x.1)
    else none

/-- The task that a core turns to: tenant and task (R259). -/
def State.schBest (s : State) (core : Nat) : Option (Nat × Nat) :=
  let best := s.sch.ten.foldl (fun b e =>
    let c := e.2
    match c.prog with
    | some p =>
      if c.core = core ∧ c.st = SchSt.run then
        c.tasks.foldl (fun b x => match x.2.ready with
          | some a => schBetter b (some (p.prio x.1, a.order, e.1, x.1))
          | none => b) b
      else b
    | none => b) none
  best.map fun b => (b.2.2.1, b.2.2.2)

/-- What a core runs: the task that stalls it, else its best one (R21, R259). -/
def State.schRuns (s : State) (core : Nat) : Option (Nat × Nat) := (s.schStalled core).or (s.schBest core)

/-- The point as the tenant's program reads it: a forced value with the point's quality (R268). -/
def State.schReads (s : State) (c : SchTen) (h : Nat) : Point :=
  let p := s.point h
  match c.forces.find? fun f => decide (f.handle = h) with
  | some f => { p with value := f.value }
  | none => p

/-- The busy time of a core goes on or ends (SCH_CORELOAD). -/
def State.schBusy (s : State) (core : Nat) : State :=
  match s.schRuns core, Tbl.get none s.sch.busyFrom core with
  | some _, none => { s with sch := { s.sch with busyFrom := Tbl.put none s.sch.busyFrom core (some s.frc) } }
  | none, some f =>
    let old := (Tbl.get [] s.sch.spans core).filter fun x => decide (s.frc ≤ x.2 + 100 * ms)
    { s with sch := { s.sch with busyFrom := Tbl.put none s.sch.busyFrom core none,
                                 spans := Tbl.put [] s.sch.spans core (old ++ [(f, s.frc)]) } }
  | _, _ => s

/-- The core turns to its best task; an activation that has not started starts with its input image (R259, R262, R263). -/
def State.schDispatch (s : State) (core : Nat) : State :=
  let s := s.schBusy core
  match s.schRuns core with
  | none => s
  | some (t, k) =>
    let c := s.schT t
    let x := c.task k
    match x.ready, c.prog with
    | some a, some p =>
      if a.startTick.isSome then s
      else
        let image := (p.inputs k).map fun h => (h, s.schReads c h)
        let a := { a with startTick := some s.tick, startFrc := s.frc, image := image }
        let queue := if x.cur.isSome then x.queue else x.queue.tail
        let miss := if k < 8 && decide (a.tick = s.tick) then 0 else x.missrun
        s.setSch t (c.setTask k { x with cur := some a, queue := queue, missrun := miss })
    | _, _ => s

/-- A new activation. -/
def State.schOrder (s : State) (src : Option EvtSrc) : Activation × State :=
  ({ tick := s.tick, order := s.sch.order, src := src }, { s with sch := { s.sch with order := s.sch.order + 1 } })

/-! Stops and changes of state -/

/-- Tasks without activations, running or queued. -/
def schIdle (l : Tbl TaskSt) : Tbl TaskSt :=
  (l.map fun (e : Nat × TaskSt) => (e.1, { e.2 with cur := none, queue := [] })).filter
    fun (e : Nat × TaskSt) => decide (e.2 ≠ {})

/-- STOP with a cause (R266). -/
def State.schHalt (s : State) (t cause : Nat) : State :=
  let c := s.schT t
  let s := s.setSch t ({ c with st := .stop, cause := cause, tasks := schIdle c.tasks, releasing := false }.inc 4 1)
  let s := (((s.setFlag .SCH_STAT 3).fire 27 (t + cause * 2 ^ 12)).alert t Alert.schStop cause).schBusy c.core
  s.freezeCheck t

/-- An online change ends (R271): its status, Walnut 28, CHG_RESULT for a change from a mailbox, and the freeze that waited
for it is applied (R273). -/
def State.chgEnd (s : State) (t result : Nat) (st : ChgSt) : State :=
  let c := s.schT t
  let s := s.setSch t { c with chg := { c.chg with st := st, result := result } }
  let s := if c.chg.st = .waiting ∧ (s.tenant t).freezing.isSome then s.freezeApply t else s
  let s := if c.chg.mbx then s.mbxNotify t 0x82 (words32 [result, c.chg.nocarry, c.chg.dropf]) else s
  match st with
  | .done => ((s.setFlag .SCH_STAT 4).fire 28 (t + result * 2 ^ 16)).almond 18
  | .failed => (s.setFlag .SCH_STAT 5).fire 28 (t + result * 2 ^ 16)
  | _ => s

/-- A tenant reset (Table 11-2, R273): IDLE; forces and queued events go; a change in progress ends with STATE. Retained
variables and counters stay. -/
def State.schReset (s : State) (t : Nat) : State :=
  let s := { s with evts := s.evts.filter fun e => decide (e.1 ≠ t) }
  let c := s.schT t
  let busy := c.chg.st = .verifying ∨ c.chg.st = .staged ∨ c.chg.st = .waiting
  let s := if busy then s.chgEnd t 0x25 .failed else s
  let c := s.schT t
  (s.setSch t { c with st := .idle, tasks := schTimes c.tasks, forces := [], releasing := false,
                       chg := { c.chg with pkg := none } }).schDispatch c.core

/-- A tenant start (Table 11-2): RUN warm, or cold where the program is new; STANDBY for class C on standby. -/
def State.schStart (s : State) (t : Nat) : State :=
  let c := s.schT t
  match c.prog with
  | none => s
  | some _ =>
    if c.st ≠ SchSt.idle then s
    else if s.classC t && decide ((s.parTen t).cst = 2) then s.setSch t { c with st := .standby }
    else if c.mustCold then s.setSch t (c.cold (s.tick + 1))
    else s.setSch t (c.warm (s.tick + 1))

/-! Online change (R269 to R272) -/

/-- Index of a variable with a name and type. -/
def SchProg.findVar (p : SchProg) (v : SchVar) : Option Nat :=
  p.vars.findIdx? fun x => decide (x.name = v.name ∧ x.type = v.type)

/-- Values of the new program: carried over by name and type, else initial (R270). -/
def schCarry (old new_ : SchProg) (vals : Tbl Nat) : Tbl Nat :=
  (List.range new_.vars.length).foldl (fun acc i =>
    let v := new_.vars.getD i { name := 0, type := 0 }
    Tbl.put 0 acc i (match old.findVar v with | some j => Tbl.get 0 vals j | none => v.init)) []

/-- The retained variables' values. -/
def SchProg.keep (p : SchProg) (vals : Tbl Nat) : Tbl Nat :=
  (List.range p.vars.length).foldl (fun acc i =>
    if (p.vars.getD i { name := 0, type := 0 }).retained then Tbl.put 0 acc i (Tbl.get 0 vals i) else acc) []

/-- Writes the retained values to the older copy, which becomes current (R267). -/
def SchTen.keepRetained (c : SchTen) : SchTen :=
  match c.prog with
  | none => c
  | some p =>
    let k := p.keep c.vals
    if c.curB then { c with keepA := k, curB := false } else { c with keepB := k, curB := true }

/-- Tasks of the new program: a cyclic task with period and phase unchanged keeps its grid; a queued event passes to the
event task of the same name (R270). -/
def schTasks (c : SchTen) (old new_ : SchProg) (tick : Nat) : Tbl TaskSt :=
  let cyc := (List.range new_.cyc.length).foldl (fun (acc : Tbl TaskSt) i =>
    let same := match old.cyc[i]?, new_.cyc[i]? with
      | some a, some b => decide (a.period = b.period ∧ a.phase = b.phase)
      | _, _ => false
    let o := c.task i
    let x : TaskSt := if same then { o with out := [] } else { grid := tick, last := o.last, peak := o.peak }
    Tbl.put {} acc i x) []
  (List.range new_.evt.length).foldl (fun (acc : Tbl TaskSt) i =>
    match new_.evt[i]? with
    | none => acc
    | some e =>
      match old.evt.findIdx? fun o => decide (o.name = e.name) with
      | some j => Tbl.put {} acc (8 + i) { c.task (8 + j) with out := [] }
      | none => acc) cyc

/-- The journal has room (R54). -/
def State.jrnlRoom (s : State) (bytes : Nat) : Bool :=
  decide (s.jrnl.entries.length < 4096 ∧ (s.jrnl.entries.map (·.bytes)).foldl (· + ·) 0 + bytes ≤ 2 ^ 22)

/-- The switch to the new program, with grids that start at `tick` (R270 to R272). -/
def State.schSwitch (s : State) (t tick : Nat) : State :=
  let c := s.schT t
  match c.prog, c.chg.pkg with
  | some old, some pkg =>
    let p := pkg.prog
    let stands (f : Force) : Bool := p.points.any fun x => decide (x = (f.handle, f.type))
    let dropped := (c.forces.filter fun f => !stands f).map (·.handle)
    let lost := (old.vars.filter fun v => (p.findVar v).isNone).map (·.name)
    let gone := (List.range old.evt.length).flatMap fun j =>
      match old.evt[j]? with
      | some e => if p.evt.any fun x => decide (x.name = e.name) then [] else (c.task (8 + j)).queue.map fun a => (e.name, a.src)
      | none => []
    let c' := { c with
      prog := some p, keptFor := some p.digest, vals := schCarry old p c.vals, forces := c.forces.filter stands, tasks := schTasks c old p tick,
      dropped := dropped, uncarried := lost, lostEvts := gone,
      chg := { c.chg with nocarry := lost.length, dropf := dropped.length, pkg := none } }
    let s := s.setSch t ((c'.keepRetained).inc 6 1)
    let x := s.tenant t
    let s := match x.cfg with
      | some g => s.setTenant t { x with cfg := some { g with sch := some p } }
      | none => s
    let s := s.extendRun pkg.sig.msg
    let e : JrnlEntry := { item := .change t pkg, bytes := pkg.size, complete := true }
    let s := { s with jrnl := { s.jrnl with entries := s.jrnl.entries ++ [e] } }
    let s := { s with out := s.out ++ [Out.changeReport t pkg.report c.chg.report dropped lost gone] }
    s.chgEnd t 0 .done
  | _, _ => s

/-- A change of the tenant can switch at a tick: it waits, the tick is one of the WAIT ticks after the commit, no task is
active or queued, and the supervisor runs (R269, R273). DESIGN CHOICE: a journal that another commit has filled meanwhile
withholds the switch, since each completed change is recorded in it (R54, R272). -/
def State.schCanSwitch (s : State) (t tick : Nat) : Bool :=
  let c := s.schT t
  match c.chg.pkg with
  | some g =>
    decide (c.chg.st = .waiting ∧ (c.st = .run ∨ c.st = .stop) ∧ tick ≤ c.chg.from_ + g.wait) && c.atBoundary &&
      s.pwr.supRuns && s.jrnlRoom g.size
  | none => false

/-! Ticks (R257, R260) -/

/-- Activates cyclic task i at a tick, or skips it (R260, R263). -/
def State.schActivate (tick t i : Nat) (s : State) : State :=
  let c := s.schT t
  if c.st ≠ SchSt.run then s
  else match c.prog with
    | none => s
    | some p =>
      match p.cyc[i]? with
      | none => s
      | some y =>
        let x := c.task i
        if tick < x.grid ∨ (tick - x.grid) % y.period ≠ y.phase then s
        else if x.cur.isNone then
          let (a, s) := s.schOrder none
          s.setSch t ((c.setTask i { x with cur := some a }).inc 0 1)
        else
          let s := s.setSch t ((c.setTask i { x with missrun := min 3 (x.missrun + 1) }).inc 1 1)
          let s := (s.setFlag .SCH_STAT 0).almond 25
          if 3 ≤ x.missrun + 1 then s.schHalt t 1 else s

/-- A tick at one tenant: the switch, RELEASE, the freeze, the activations (R265, R269, R273). -/
def State.schTickTen (tick : Nat) (s : State) (t : Nat) : State :=
  let s := if s.schCanSwitch t tick then s.schSwitch t tick else s
  let c := s.schT t
  if c.st ≠ SchSt.run ∨ !s.domOn (9 + c.core / 8) then s
  else if c.quiet && c.releasing then
    (s.setSch t { c with st := .standby, releasing := false, tasks := schTimes c.tasks }).pubReset t
  else if c.quiet && (s.tenant t).freezing.isSome && decide (c.chg.st ≠ .waiting) then
    (s.setSch t { c with st := .frozen }).freezeCheck t
  else
    match c.prog with
    | some p => iterUpto p.cyc.length (State.schActivate tick t) s
    | none => s

/-- A tick: SCH_TICK increments on every core, due tasks are activated, the cores turn to their best tasks. -/
def State.schTickAll (s : State) (free : Bool) : State :=
  let tick := (s.tick + 1) % 2 ^ 64
  let s := (s.setRg .SCH_TICK tick)
  let s := { s with sch := { s.sch with last := some s.frc, free := free } }
  let s := (s.sch.ten.map (·.1)).foldl (State.schTickTen tick) s
  (List.range 16).foldl State.schDispatch s

/-- The front edge of internal target 4. -/
def State.tickEdge (s : State) : Option Edge := (Tbl.get [] s.edges 4).head?

/-- The tick that the cores make themselves is due. -/
def State.tickFree (s : State) : Bool :=
  match s.sch.last with
  | some f => s.tickEdge.isNone && decide (f + 252 * us ≤ s.frc)
  | none => false

/-- A tick within 2 µs after a free-wheel tick is absorbed into it. -/
def State.tickAbsorbed (s : State) (e : Edge) : Bool :=
  match s.sch.last with
  | some f => s.sch.free && decide (e.frc ≤ f + 2 * us)
  | none => false

/-- A tick is in progress: the cores make it, or an edge that is not absorbed has come. -/
def State.tickComes (s : State) : Bool :=
  s.tickFree || match s.tickEdge with | some e => !s.tickAbsorbed e | none => false

/-- A runtime tick: the fire of channel TICKCH; within 2 µs after a free-wheel tick it is absorbed. -/
def execRuntimeTick (s : State) :=
  match s.tickEdge with
  | none => done s
  | some e =>
    let s := { s with edges := Tbl.upd [] s.edges 4 List.tail }
    if s.tickAbsorbed e then done { s with sch := { s.sch with free := false } } else done (s.schTickAll false)

/-- No tick arrived within 252 µs. -/
def execFreewheelTick (s : State) :=
  if s.tickFree then
    done ((((s.incRg .SCH_TICKEV).setFlag .SCH_STAT 6).fire 29 0).schTickAll true)
  else done s

/-! Event tasks (R261) -/

/-- An event task is bound to a source. -/
def EvtTask.bound (e : EvtTask) (x : EvtSrc) : Bool :=
  match x.kind with
  | 0 => decide (x.num ∈ e.pts)
  | 1 => decide (x.num ∈ e.subs)
  | _ => decide (x.num ∈ e.chans)

/-- Queues an activation of event task i, or loses it when 4 are queued. -/
def State.schEvent (t : Nat) (src : EvtSrc) (i : Nat) (s : State) : State :=
  let c := s.schT t
  match c.prog with
  | none => s
  | some p =>
    match p.evt[i]? with
    | none => s
    | some e =>
      if !e.bound src then s
      else
        let x := c.task (8 + i)
        if x.queue.length < 4 then
          let (a, s) := s.schOrder (some src)
          s.setSch t ((c.setTask (8 + i) { x with queue := x.queue ++ [a] }).inc 0 1)
        else (s.setSch t (c.inc 3 1)).setFlag .SCH_STAT 1

/-- The oldest event activates the event tasks bound to it; those of a frozen program queue (R348). -/
def execEventActivation (s : State) :=
  match s.evts with
  | [] => done s
  | (t, src) :: rest =>
    let s := { s with evts := rest }
    let c := s.schT t
    if c.st ≠ SchSt.run ∧ c.st ≠ SchSt.frozen then done s
    else match c.prog with
      | none => done s
      | some p => done ((iterUpto p.evt.length (State.schEvent t src) s).schDispatch c.core)

/-! Ends of activations (R262, R264) -/

/-- A write of the program to a point: a force replaces the value and sets the source bit (R268). -/
def State.schPoint (s : State) (t h value quality type : Nat) : State :=
  let c := s.schT t
  let f := c.forces.find? fun f => decide (f.handle = h)
  let (v, q) := match f with | some f => (f.value, quality ||| 2 ^ 10) | none => (value, quality)
  let s := if f.isSome then s.setSch t (c.inc 7 1) else s
  s.pntQueue
    { tenant := t, gen := (s.tenant t).gen, bnd := Bnd.schPoint, handle := h, cls := 1
      point := { value := v, quality := q, type := type, info := 5, time := stampNs s.dt } }

/-- A publication call. -/
def State.schPublish (s : State) (t n : Nat) (vals : List W32) (quals : List Nat) : State :=
  let r : PubReq := { tenant := t, gen := (s.tenant t).gen, pubno := n, vals := vals, quals := quals, stamp := s.dt,
                      bnd := some Bnd.schPub }
  s.pubQueue r

/-- A direct read of a point by task k (R262, R268). -/
def State.schRead (s : State) (t k h : Nat) : State :=
  let c := s.schT t
  let p := s.schReads c h
  let x := c.task k
  s.setSch t (c.setTask k { x with cur := x.cur.map fun a => { a with reads := a.reads ++ [(h, p)] } })

/-- A read of an entry of a CAN receive ring by task k (R317). -/
def State.schCanRead (s : State) (t k ring e : Nat) : State :=
  let c := s.schT t
  let d := memGet s.mem (canRing (ring % 4) (e % 256)) 96
  let x := c.task k
  s.setSch t (c.setTask k { x with cur := x.cur.map fun a => { a with cans := a.cans ++ [(ring % 4, e % 256, d)] } })

/-- The runtime advances the read index of a CAN ring for the program of its owner; other tenants do not advance it (R317). -/
def State.schCanAdvance (s : State) (t ring v : Nat) : State :=
  if decide (ring < 4) && s.flag .CAN_CFG 31 ring && decide (s.fld .CAN_CFG 27 16 ring = t) then s.canRrd ring v else s

/-- Issues what the activation of task k does, each unit with its credit; from what finds no credit on, it remains (R21,
R262). -/
def State.schIssue (t k : Nat) : List SchAct → State → State × List SchAct
  | [], s => (s, [])
  | .read h :: rest, s => State.schIssue t k rest (s.schRead t k h)
  | .canRead r e :: rest, s => State.schIssue t k rest (s.schCanRead t k r e)
  | .canAdvance r v :: rest, s => State.schIssue t k rest (s.schCanAdvance t r v)
  | .point h v q y :: rest, s =>
    if s.avail Bnd.schPoint t = 0 then (s, .point h v q y :: rest)
    else State.schIssue t k rest ((s.takeCredit Bnd.schPoint t).schPoint t h v q y)
  | .publish n vs qs :: rest, s =>
    if s.avail Bnd.schPub t = 0 then (s, .publish n vs qs :: rest)
    else State.schIssue t k rest ((s.takeCredit Bnd.schPub t).schPublish t n vs qs)

/-- The activation of a task has ended: run time, retained variables, the next activation. -/
def State.schFinish (s : State) (t k : Nat) : State :=
  let c := s.schT t
  let x := c.task k
  match x.cur with
  | none => s
  | some a =>
    let time := min 65535 ((s.frc - a.startFrc) / (10 * us))
    let c := c.setTask k { x with cur := none, aborts := 0, last := time, peak := max x.peak time }
    let c := if a.retain then c.keepRetained else c
    (s.setSch t c).schDispatch c.core

/-- Issues the rest of what an activation does; it waits for a credit, ends where its code has ended, or goes on. -/
def State.schGoOn (s : State) (t k : Nat) (acts : List SchAct) : State :=
  let (s, rest) := s.schIssue t k acts
  let c := s.schT t
  let x := c.task k
  match x.cur with
  | none => s
  | some a =>
    if rest.isEmpty then (if a.ended then s.schFinish t k else s)
    else
      let from_ := match a.waitFrom with | some f => some f | none => some s.frc
      (s.setSch t (c.setTask k { x with cur := some { a with ending := some rest, waitFrom := from_ } })).schDispatch c.core

/-- Type of a point in a program's lists. -/
def SchProg.typeOf (p : SchProg) (h : Nat) : Nat := ((p.points.find? fun x => decide (x.1 = h)).map (·.2)).getD 0

/-- Output image: the points whose value or quality changed, in declared order. -/
def SchProg.outActs (p : SchProg) (k : Nat) (out : Tbl (Option (Nat × Nat))) (outs : List (Nat × Nat × Nat)) :
    List SchAct :=
  let hs := p.outputs k
  (List.range hs.length).filterMap fun i =>
    match outs.find? fun o => decide (o.1 = i) with
    | some (_, v, q) =>
      let h := hs.getD i 0
      if Tbl.get none out i = some (v, q) then none else some (.point h v q (p.typeOf h))
    | none => none

/-- The task that its core runs has made its direct reads, writes and calls, which take effect at once; when its code has
ended, its output image follows at boundary 9 (R262). A task that stalls its core does nothing (R21). -/
def execActivationEnd (t k : Nat) (r : SchResult) (s : State) :=
  let c := s.schT t
  let x := c.task k
  match c.prog, x.cur with
  | some p, some a =>
    if s.schRuns c.core ≠ some (t, k) ∨ a.waitFrom.isSome ∨ !s.domOn (9 + c.core / 8) then done s
    else
      let calls := if s.classH t then r.acts.filter fun (y : SchAct) => match y with
        | .publish .. => false
        | _ => true else r.acts
      let outs := if r.ended then r.outs else []
      let acts := calls ++ p.outActs k x.out outs
      let out := outs.foldl (fun (o : Tbl (Option (Nat × Nat))) (e : Nat × Nat × Nat) => Tbl.put none o e.1 (some e.2)) x.out
      let vals := r.vals.foldl (fun (v : Tbl Nat) (e : Nat × Nat) => Tbl.put 0 v e.1 e.2) c.vals
      let retain := a.retain || r.vals.any fun e =>
        (p.vars.getD e.1 { name := 0, type := 0 }).retained && decide (Tbl.get 0 c.vals e.1 ≠ e.2)
      let c := { c.setTask k { x with out := out, cur := some { a with retain := retain, ended := r.ended } } with vals := vals }
      done ((s.setSch t c).schGoOn t k acts)
  | _, _ => done s

/-- A credit of boundary 9 or 10 came back: the tenant's waiting activations go on (R21, R23); WAIT counts their time. -/
def State.schRelease (s : State) (t : Nat) : State :=
  ((s.schT t).tasks.map (·.1)).foldl (fun (s : State) k =>
    let c := s.schT t
    match (c.task k).cur with
    | some { ending := some rest, waitFrom := some f, .. } =>
      let free := match rest with
        | .point .. :: _ => decide (s.avail Bnd.schPoint t ≠ 0)
        | .publish .. :: _ => decide (s.avail Bnd.schPub t ≠ 0)
        | _ => true
      if !free then s
      else
        let x := c.task k
        let cur := x.cur.map fun a => { a with waitFrom := none, ending := none }
        let c := (c.setTask k { x with cur := cur }).inc 5 ((s.frc - f) / us)
        (s.setSch t c).schGoOn t k rest
    | _ => s) s

/-- An event activation that still runs WDOG ticks after its start is aborted; three in a row stop the program (R264). -/
def execWdogAbort (t k : Nat) (s : State) :=
  let c := s.schT t
  match c.prog, (c.task k).cur with
  | some p, some { startTick := some b, .. } =>
    match (if 8 ≤ k then p.evt[k - 8]? else none) with
    | none => done s
    | some e =>
      if s.tick < b + e.wdog then done s
      else
        let x := c.task k
        let c := (c.setTask k { x with cur := none, aborts := x.aborts + 1 }).inc 2 1
        let s := (s.setSch t c).setFlag .SCH_STAT 2
        done ((if 3 ≤ x.aborts + 1 then s.schHalt t 2 else s).schDispatch c.core)
  | _, _ => done s

/-- The point database takes its oldest write; a waiting producer of its tenant goes on (R199, R21). -/
def execPointWrite (s : State) :=
  match s.pntQ with
  | [] => done s
  | r :: _ => done (s.takePointWrite.schRelease r.tenant)

/-- The writes that come before a write of place `cls` made now are applied (R199). -/
def State.pntDrain (s : State) (cls : Nat) : State :=
  iterUpto s.pntQ.length (fun _ (s : State) => match s.pntQ with
    | r :: _ => if r.at_ < s.frc ∨ r.cls < cls then s.takePointWrite.schRelease r.tenant else s
    | [] => s) s

/-- PNT_CMD WRITE: only in lifecycle TEST. -/
def execPntWrite (s : State) :=
  let h := s.rg .PNT_HANDLE
  if !s.lcTest then done s
  else if badHandle h then done s.pointBad
  else done ((s.pntDrain 3).writePoint s.frc 3 h (pointOf (s.rg .PNT_DATA) (s.rg .PNT_TIME) 3))

/-- The publisher takes its oldest request; a waiting producer of its tenant goes on (R205, R21). -/
def execPublicationRequest (s : State) :=
  match s.goose.reqs with
  | [] => done s
  | r :: _ => done (s.takePubRequest.schRelease r.tenant)

/-! Commands (R265, R266, R269): each tells whether it fits the state -/

def State.schTsel (s : State) : Nat := s.fld .SCH_TSEL 11 0

/-- START_WARM or START_COLD of a stopped program. -/
def State.schRestart (s : State) (t : Nat) (cold : Bool) : State × Bool :=
  let c := s.schT t
  if c.st ≠ SchSt.stop ∨ (c.noWarm ∧ !cold) then (s, false)
  else (s.setSch t (if cold then c.cold (s.tick + 1) else c.warm (s.tick + 1)), true)

/-- STOP of a running program. -/
def State.schStopCmd (s : State) (t : Nat) : State × Bool :=
  if (s.schT t).st = .run then ((s.schHalt t 0).schDispatch (s.schT t).core, true) else (s, false)

/-- CHG_STAGE: checking of the package starts. -/
def State.chgStage (s : State) (t : Nat) (pkg : Option ChgPkg) (mbx : Bool) (report : Option Nat := none) : State × Bool :=
  let c := s.schT t
  if c.prog.isNone ∨ c.chg.st = ChgSt.verifying ∨ c.chg.st = ChgSt.staged ∨ c.chg.st = ChgSt.waiting then (s, false)
  else (s.setSch t { c with chg := { st := .verifying, pkg := pkg, mbx := mbx, report := report } }, true)

/-- CHG_COMMIT arms the switch; refused with STATE unless the program is in RUN or STOP. DESIGN CHOICE: with no room in the
journal for its entry it is refused too, with CMD_REFUSED and no code (R54, R272). -/
def State.chgCommit (s : State) (t : Nat) (mbx : Bool) : State × Bool :=
  let c := s.schT t
  let room := match c.chg.pkg with | some g => s.jrnlRoom g.size | none => true
  if c.chg.st ≠ ChgSt.staged ∨ !s.pwr.supRuns ∨ !room then (s, false)
  else if c.st = .run ∨ c.st = .stop then
    (s.setSch t { c with chg := { c.chg with st := .waiting, from_ := s.tick, mbx := mbx } }, true)
  else (s.setSch t { c with chg := { c.chg with result := 0x25 } }, false)

/-- CHG_DISCARD of a change that is staged or being checked. -/
def State.chgDiscard (s : State) (t : Nat) : State × Bool :=
  let c := s.schT t
  if c.chg.st = ChgSt.staged ∨ c.chg.st = ChgSt.verifying then (s.setSch t { c with chg := {} }, true) else (s, false)

/-- SCH_TCMD: a command that does not fit the state sets CMD_REFUSED. -/
def schAnswer (r : State × Bool) : State := if r.2 then r.1 else r.1.setFlag .SCH_STAT 7

def execStartWarm (s : State) := done (schAnswer (s.schRestart s.schTsel false))
def execStartCold (s : State) := done (schAnswer (s.schRestart s.schTsel true))
def execSchStop (s : State) := done (schAnswer (s.schStopCmd s.schTsel))
def execChgStage (pkg : Option ChgPkg) (s : State) := done (schAnswer (s.chgStage s.schTsel pkg false))
def execChgCommit (s : State) := done (schAnswer (s.chgCommit s.schTsel false))
def execChgDiscard (s : State) := done (schAnswer (s.chgDiscard s.schTsel))

/-- The root that a chain must end at (R33). -/
def State.signRoot (s : State) : Option Digest :=
  if s.fld .ATT_LC 2 0 = 0 then some Config.jenfortTestRoot else s.att.ownerRoot

/-- A chain that ends at the structure-signing root, and a good signature. -/
def State.signedOk (s : State) (g : Signed) : Bool := g.ok && decide (g.root.isSome ∧ g.root = s.signRoot)

/-- Package and program object of a change pass R33 and R37. -/
def State.chgSigned (s : State) (t : Nat) (g : ChgPkg) : Bool :=
  s.signedOk g.sig && s.signedOk g.progSig && g.progMagic &&
    decide (g.prog.digest = g.progSig.msg ∧ g.progKind = 2 ∧ g.progTenant = t)

/-- The checks of a change package end (R269, Table 11-3). DESIGN CHOICE: a WAIT outside 40 to 240,000 fails with LIMIT; the
spec gives no code for it. -/
def execChangeStaged (t : Nat) (s : State) :=
  let c := s.schT t
  if c.chg.st ≠ ChgSt.verifying ∨ !s.pwr.supRuns then done s
  else match c.chg.pkg, c.prog with
    | some g, some old =>
      if !s.chgSigned t g then done (s.chgEnd t 0x20 .failed)
      else if g.base ≠ old.digest then done (s.chgEnd t 0x21 .failed)
      else if !g.prog.limitOk || !s.schCrossOk t g.prog || decide (g.wait < 40 ∨ 240000 < g.wait) then done (s.chgEnd t 0x22 .failed)
      else if 2 ^ 21 < old.data + g.prog.data ∨ 2 ^ 21 < old.code + g.prog.code then done (s.chgEnd t 0x23 .failed)
      else done (s.chgEnd t 0 .staged)
    | _, _ => done (s.chgEnd t 0x20 .failed)

/-- The tick in progress is a common cycle boundary: the program switches (R270). -/
def execChangeSwitch (t : Nat) (s : State) :=
  if s.schCanSwitch t (s.tick + 1) && s.tickComes then done (s.schSwitch t (s.tick + 1)) else done s

/-- WAIT ticks without a boundary (R269). -/
def execChangeTimeout (t : Nat) (s : State) :=
  let c := s.schT t
  match c.chg.pkg with
  | some g =>
    if c.chg.st = ChgSt.waiting ∧ c.chg.from_ + g.wait ≤ s.tick then
      let s := s.setSch t { c with chg := { c.chg with pkg := none } }
      done (s.chgEnd t 0x24 .failed)
    else done s
  | none => done s

/-! Forces (R268): mailbox status codes 0 OK, 5 RIGHTS, 6 STATE -/

/-- FORCE_SET: refused with STATE when the type differs from the point's TYPE, or 256 forces stand. -/
def State.forceSet (s : State) (t h type value : Nat) : State × Nat :=
  let c := s.schT t
  if badHandle h || decide (h / 8192 ≠ t) then (s, 5)
  else if c.prog.isNone ∨ (s.point h).type ≠ type then (s, 6)
  else
    let rest := c.forces.filter fun f => decide (f.handle ≠ h)
    if 256 ≤ rest.length then (s, 6)
    else (s.setSch t { c with forces := rest ++ [{ handle := h, type := type, value := value }] }, 0)

/-- FORCE_CLEAR of one handle, or of all. -/
def State.forceClear (s : State) (t h : Nat) : State :=
  let c := s.schT t
  s.setSch t { c with forces := if h = 2 ^ 32 - 1 then [] else c.forces.filter fun f => decide (f.handle ≠ h) }

/-! Counters (R274) -/

def SchTen.cleared (c : SchTen) (cnt : Tbl Nat) : SchTen :=
  { c with cnt := cnt, tasks := (c.tasks.map fun e => (e.1, { e.2 with peak := 0 })).filter fun e => decide (e.2 ≠ {}) }
def execSchClearSel (s : State) :=
  let t := s.schTsel
  done { s with sch := { s.sch with ten := Tbl.recountAt {} s.sch.ten s.now.sch t SchTen.cnt SchTen.cleared },
                now := { s.now with sch := Tbl.recountAt {} s.now.sch s.now.sch t SchTen.cnt SchTen.cleared } }
def execSchClearAll (s : State) :=
  done { s with sch := { s.sch with ten := Tbl.recount {} s.sch.ten s.now.sch SchTen.cnt SchTen.cleared },
                now := { s.now with sch := Tbl.recount {} s.now.sch s.now.sch SchTen.cnt SchTen.cleared } }
def execSchTickevRead (q : Requester) (s : State) := done (s.readClear q .SCH_TICKEV)

end Sys2Proof.Machine
end

