-- ==== Sys2Proof/Machine/Loader.lean ====
section
/-! DEFINITION. The checks of the structure-image loader that need no program object: byte stream, directory, section
limits and cross-section rules (R32 to R36, R38, R441, Table 02-3). -/
namespace Sys2Proof.Machine

/-! Byte stream and directory -/

/-- Where the header of an image or of a record holds its fields (Tables 02-1 and 02-4). -/
structure HeadForm where
  magic : Nat
  maxLen : Nat
  maxSec : Nat
  lenAt : Nat
  cntAt : Nat
  sigAt : Nat
  dirAt : Nat
deriving DecidableEq, Repr

def imageForm : HeadForm :=
  { magic := 0x52545356, maxLen := 2 ^ 25, maxSec := 32, lenAt := 0x18, cntAt := 0x1C, sigAt := 0x60, dirAt := 0x100 }
def recordForm : HeadForm :=
  { magic := 0x444D4156, maxLen := 2 ^ 20, maxSec := 12, lenAt := 0x40, cntAt := 0x44, sigAt := 0x48, dirAt := 0x80 }

/-- Step 1: the byte stream can be taken apart (R441). -/
def HeadForm.formatOk (f : HeadForm) (b : Bytes) : Bool :=
  let len := bnum b f.lenAt 4
  let n := bnum b f.cntAt 4
  let sig := bnum b f.sigAt 4
  let chain := bnum b sig 4
  decide (bnum b 0 4 = f.magic ∧ bnum b 4 2 = 1 ∧ len ≤ f.maxLen ∧ 1 ≤ n ∧ n ≤ f.maxSec ∧ sig % 64 = 0 ∧
    f.dirAt + 16 * n ≤ sig ∧ 1 ≤ chain ∧ chain ≤ 8192 ∧ len = sig + 4 + (chain + 3) / 4 * 4 + 96)

/-- SHA-384 of the signed message: bytes 0 to SIG_OFS − 1 (R33). -/
def HeadForm.digest (f : HeadForm) (b : Bytes) : Digest := Config.sha384 (blist b 0 (bnum b f.sigAt 4))

/-- The signature verifies over the signed message (R33). -/
def HeadForm.signedBy (f : HeadForm) (b : Bytes) (g : Signed) : Bool := g.covers b (bnum b f.sigAt 4)

/-- A directory entry. -/
structure SecHead where
  type : Nat
  ver : Nat
  ofs : Nat
  len : Nat
  crc : Nat
deriving DecidableEq, Repr

def HeadForm.dir (f : HeadForm) (b : Bytes) : List SecHead :=
  (List.range (min f.maxSec (bnum b f.cntAt 4))).map fun i =>
    let o := f.dirAt + 16 * i
    { type := bnum b o 2, ver := bnum b (o + 2) 2, ofs := bnum b (o + 4) 4, len := bnum b (o + 8) 4, crc := bnum b (o + 12) 4 }

/-- Step 7: directory entries and section CRCs (R32). -/
def HeadForm.crcOk (f : HeadForm) (b : Bytes) : Bool :=
  let heads := f.dir b
  let apart (x y : SecHead) : Bool := decide (x.ofs + x.len ≤ y.ofs ∨ y.ofs + y.len ≤ x.ofs)
  let one (h : SecHead) : Bool :=
    decide (h.ofs % 64 = 0 ∧ f.dirAt + 16 * heads.length ≤ h.ofs ∧ h.ofs + h.len ≤ bnum b f.sigAt 4) &&
      decide (crc32c (blist b h.ofs h.len) = h.crc)
  heads.all one && pairwiseB apart heads

/-- Section types (R34). -/
def headsOk (heads : List SecHead) : Bool :=
  heads.all (fun h => decide (0x8000 ≤ h.type ∨ (1 ≤ h.type ∧ h.type ≤ 0x11 ∧ h.ver = 1))) &&
    distinct ((heads.filter fun (h : SecHead) => decide (h.type < 0x8000)).map fun (h : SecHead) => h.type)

/-- The section of a type with its length. -/
def secFind (b : Bytes) (heads : List SecHead) (t : Nat) : Option (Bytes × Nat) :=
  (heads.find? fun (h : SecHead) => decide (h.type = t)).map fun (h : SecHead) => (bcut b h.ofs h.len, h.len)

/-- A required section, and one that may be absent. -/
def secReq {α : Type} (x : Option (Bytes × Nat)) (f : Bytes → Nat → Option α) : Option α :=
  match x with
  | some e => f e.1 e.2
  | none => none
def secOpt {α : Type} (x : Option (Bytes × Nat)) (f : Bytes → Nat → Option α) (d : α) : Option α :=
  match x with
  | some e => f e.1 e.2
  | none => some d

/-! Section limits (step 8) -/

/-- The sections of an image, each within its own limits. -/
def planOf (b : Bytes) (heads : List SecHead) (area : Nat) : Option Plan := do
  let sec (t : Nat) := secFind b heads t
  let ports ← secReq (sec 1) portsSection
  let domains ← secReq (sec 2) domainsSection
  let host ← secReq (sec 3) hostSection
  let tiles ← secReq (sec 4) tilesSection
  let tens ← secReq (sec 5) (tenantsSection (if host.1 then 4 else 1))
  let st ← secOpt (sec 6) streamsRaw ([], [])
  let topos ← secOpt (sec 7) (fun b n => filtersRaw b n 0) []
  let crd ← secReq (sec 8) creditsRaw
  let mem ← secReq (sec 9) memorySection
  let caps ← secOpt (sec 10) captureSection []
  let loops ← secOpt (sec 11) loopsSection (0, [], 0, [])
  let sch ← secOpt (sec 12) schemeSection (0, [])
  let thyme ← secReq (sec 13) thymeSection
  let pair ← secReq (sec 14) pairSection
  let refs ← secOpt (sec 15) (fun b n => programsSection b n area) []
  let keys ← secOpt (sec 16) keysSection []
  let goose ← secOpt (sec 17) gooseSection ([], [])
  some
    { present := heads.map fun (h : SecHead) => h.type, ports := ports, domains := domains, split := host.1, nvf := host.2,
      tileOn := tiles.1, groups := tiles.2.1, tiles := tiles.2.2, tens := tens, streams := numTable (withConsumers st.1 st.2),
      cons := st.2, topos := numTable topos, budgets := crd.1, shares := crd.2, banks := mem.1, regions := mem.2, caps := caps,
      loopRate := loops.1, loops := loops.2.1, gains := loops.2.2.2, tickCh := sch.1, schemes := sch.2, thyme := thyme,
      pair := pair, refs := refs, keys := numTable keys, pubs := goose.1, subs := goose.2 }

/-- The enabled tenants, streams and topologies of a plan. -/
def enabledOf {α : Type} (l : Tbl (Option α)) : List (Nat × α) := l.filterMap fun (e : Nat × Option α) => e.2.map fun x => (e.1, x)
def Plan.ten (p : Plan) (t : Nat) : Option TenantCfg := Tbl.get none p.tens t
def Plan.stream (p : Plan) (n : Nat) : Option StreamCfg := Tbl.get none p.streams n
def Plan.topo (p : Plan) (n : Nat) : Option TopoCfg := Tbl.get none p.topos n
def Plan.tile (p : Plan) (t : Nat) : TileEntry := p.tiles.getD t {}
def Plan.share (p : Plan) (b o : Nat) : Nat := Tbl.get 0 p.shares (crdKey b o)

/-- Rate of a tenant's group, Fg. -/
def Plan.fg (p : Plan) (t : Nat) : Nat :=
  match p.ten t with
  | some c => rateHz (p.groups.getD (p.tile c.tile).group 0 % 4)
  | none => 4000

/-- Bytes of a stream's sample-store region (R172). -/
def regionOf (c : StreamCfg) (t : Option TopoCfg) : Nat :=
  let lines (g : StageCfg) : Nat := match g.ty with
    | .fir => g.n * c.nch * 4
    | .biquad => g.n * 4 * c.nch * 4
    | .dcb => c.nch * 8
    | .decim => 0
  c.ringDepth * 64 + match t with
    | some t => sum (t.stages.map lines) + t.taps.length * t.ret * 64
    | none => 0

/-- Ingest rates (R155). -/
def Plan.ratesOk (p : Plan) : Bool :=
  let l := enabledOf p.streams
  decide (sum (l.map fun (e : Nat × StreamCfg) => rateHz e.2.rate / max 1 e.2.asdus) ≤ 20000000 ∧
    sum (l.map fun (e : Nat × StreamCfg) => rateHz e.2.rate * e.2.nch) ≤ 472000000)

/-- The sample store of 24 MiB, `held` bytes of it in use by others (R155, R172). -/
def Plan.storeFits (p : Plan) (held : Nat) : Bool :=
  decide (sum ((enabledOf p.streams).map fun (e : Nat × StreamCfg) => regionOf e.2 (p.topo e.1)) + held ≤ 24 * 2 ^ 20)
def Plan.storeOk (p : Plan) : Bool := p.storeFits 0

/-- Outputs of each stage for a number of raw inputs (R170). -/
def stageOuts (rmax : Nat) (g : List StageCfg) : List Nat :=
  g.foldl (fun (acc : List Nat) st =>
    let r := match st.src with | none => rmax | some j => acc.getD j 0
    acc ++ [(r + st.m - 1) / max 1 st.m]) []

/-- Worst-case cost of a step in engine cycles (R170). -/
def stepCost (c : StreamCfg) (t : TopoCfg) : Nat :=
  let rmax := c.gapMax + c.asdus
  let outs := stageOuts rmax t.stages
  let cost (e : StageCfg × Nat) : Nat :=
    let r := match e.1.src with | none => rmax | some j => outs.getD j 0
    match e.1.ty with
    | .fir => outs.getD e.2 0 * ((e.1.n * c.nch + 63) / 64)
    | .biquad => r * 2 * e.1.n
    | .dcb => (r * c.nch + 63) / 64
    | .decim => 0
  2 + sum (t.stages.zipIdx.map cost) + sum (t.taps.map fun k => outs.getD k 0)

/-- Inserts a span by its start. -/
def insSpan (x : Nat × Nat) : List (Nat × Nat) → List (Nat × Nat)
  | [] => [x]
  | y :: rest => if x.1 ≤ y.1 then x :: y :: rest else y :: insSpan x rest

/-- Words that a list of spans covers. -/
def covered (spans : List (Nat × Nat)) : Nat :=
  ((spans.foldr insSpan []).foldl (fun (a : Nat × Nat) x => (max a.1 (x.1 + x.2), a.2 + (x.1 + x.2 - max a.1 x.1))) (0, 0)).2

/-- The topologies of an engine. -/
def Plan.engine (p : Plan) (e : Nat) : List TopoCfg :=
  ((enabledOf p.topos).map fun (x : Nat × TopoCfg) => x.2).filter fun (t : TopoCfg) => decide (t.engine = e)

/-- One engine: streams, shares and coefficient words (R159). -/
def Plan.engineOk (p : Plan) (e : Nat) : Bool :=
  let l := p.engine e
  let apart (x y : TopoCfg) : Bool := decide (x.offset + x.share ≤ y.offset ∨ y.offset + y.share ≤ x.offset)
  decide (l.length ≤ 256 ∧ covered (l.flatMap fun (t : TopoCfg) => t.spans) ≤ 16384) && pairwiseB apart l

/-- One topology: factors and step cost (R159). -/
def Plan.topoOk (p : Plan) (x : Nat × TopoCfg) : Bool :=
  let t := x.2
  decide (t.offset + t.share ≤ 2048) &&
  (List.range t.taps.length).all (fun k => decide (t.factor k ≤ 16)) &&
  match p.stream x.1 with
  | some c => (List.range t.taps.length).all (fun k => decide (c.wrap % max 1 (t.factor k) = 0)) && decide (stepCost c t ≤ t.share)
  | none => true

/-- The longest frame of a port: MAX (R87). -/
def maxFrame : Nat → Nat
  | 0 => 1522
  | 1 => 2000
  | _ => 9216

/-- The longest encoding of a publication, with its 802.1Q tag and its trailer or HSR tag (R204). -/
def Plan.pubLength (p : Plan) (c : PubCfg) : Nat :=
  let worst : MemType → W32 := fun m => match m with | .s => 0x80000000 | _ => 0xFFFFFFFF
  let tag : Option MacTag := if c.auth = 2 then some {} else none
  let g : GoosePdu :=
    { appid := c.appid, gocbRef := c.gocbRef, datSet := c.datSet, goId := c.goId, tal := talOf c.talx c.maxt (p.fg c.tenant),
      stNum := 2 ^ 32 - 1, sqNum := 2 ^ 32 - 1, confRev := c.confRev, entries := if c.valueOnly then c.nmem else 2 * c.nmem,
      allData := allDataOf c (c.mtypes.map worst) [], tag := tag }
  gooseLen c g + 6

/-- Exact sum of fractions, reduced. -/
def fracAdd (x : Nat × Nat) (a b : Nat) : Nat × Nat :=
  let n := x.1 * b + a * x.2
  let d := x.2 * b
  let g := max 1 (Nat.gcd n d)
  (n / g, d / g)

/-- The limits of R204. -/
def Plan.gooseOk (p : Plan) : Bool :=
  let nodeMax (st : Bool) : List Nat := (p.ports.filter fun (e : PortEntry) => decide (nodeOf e.role = some (b2n st))).map
    fun (e : PortEntry) => maxFrame e.maxfrm
  let load := p.pubs.foldl (fun (a : Nat × Nat) c => fracAdd a (p.fg c.tenant) (max 1 c.mint)) (0, 1)
  let subsOf (t : Nat) : Nat := (p.subs.filter fun (c : SubCfg) => decide (c.tenant = t)).length
  let same (c : SubCfg) : Nat :=
    (p.subs.filter fun (d : SubCfg) => decide (d.appid = c.appid ∧ d.gocbRef = c.gocbRef)).length
  pairwiseB (fun (x y : PubCfg) => decide (x.tenant ≠ y.tenant ∨ x.pubno ≠ y.pubno)) p.pubs &&
  p.subs.all (fun c => decide (subsOf c.tenant ≤ 128 ∧ same c ≤ 16)) &&
  p.pubs.all (fun c => (nodeMax c.st).all fun m => decide (p.pubLength c ≤ m)) && decide (load.1 ≤ 16000000 * load.2)

/-- Step 8 where it looks beyond one entry of a section. -/
def Plan.limitOk (p : Plan) : Bool :=
  p.ratesOk && p.storeOk && (List.range 16).all p.engineOk && (enabledOf p.topos).all p.topoOk &&
    sharesFit p.budgets p.shares && p.gooseOk

/-! Cross-section rules (step 9) -/

/-- Rights of a tenant entry on a point (R198). -/
def TenantCfg.mayWrite (c : TenantCfg) (t h : Nat) : Bool :=
  if c.ranges.all fun (r : Range) => decide (r.count = 0) then decide (h / 8192 = t)
  else c.ranges.any fun (r : Range) => decide (r.first ≤ h ∧ h < r.first + r.count) && r.write
def Plan.mayWrite (p : Plan) (t h : Nat) : Bool := match p.ten t with | some c => c.mayWrite t h | none => false

/-- Slot use: no two enabled tenants in one slot. -/
def Plan.slotsApart (p : Plan) : Bool :=
  pairwiseB (fun (x y : Nat × TenantCfg) => decide (x.2.tile ≠ y.2.tile ∨ x.2.slot ≠ y.2.slot)) (enabledOf p.tens)

/-- Tenants, tiles and host functions (R36, R56, R329). -/
def Plan.tenantsOk (p : Plan) : Bool :=
  let one (e : Nat × TenantCfg) : Bool :=
    bit p.tileOn e.2.tile && decide (e.2.vf ≤ p.nvf.getD e.2.link 0 ∧ (p.tile e.2.tile).budgets.getD e.2.slot 0 ≠ 0)
  (enabledOf p.tens).all one &&
    pairwiseB (fun (x y : Nat × TenantCfg) => decide (x.2.link ≠ y.2.link ∨ x.2.vf ≠ y.2.vf)) (enabledOf p.tens)

/-- Streams, topologies and consumers (R36, R57, R139, R157, R159, Table 02-2). DESIGN CHOICE: a share at boundary 5 of a stream
number that has no topology must be zero (CROSS); R57 speaks of streams that have one. -/
def Plan.streamsOk (p : Plan) : Bool :=
  let st := enabledOf p.streams
  decide ((6 ∈ p.present) = (7 ∈ p.present) ∧ st.length = p.topos.length) &&
  st.all (fun e => (p.topo e.1).isSome && decide (e.2.gapMax + e.2.asdus ≤ p.share Bnd.filter e.1)) &&
  (enabledOf p.topos).all (fun e => (p.stream e.1).isSome && decide (p.share Bnd.output e.1 = e.2.taps.length * e.2.ret)) &&
  ((List.range 4096).all fun n => (p.topo n).isSome || decide (p.share Bnd.output n = 0)) &&
  p.cons.all fun c => (p.stream c.1).isSome && (p.ten c.2.1).isSome

/-- Needed domains (R386, R387). -/
def Plan.domainsOk (p : Plan) : Bool :=
  let need (b : Bool) (ds : List Nat) : Bool := !b || ds.all fun d => bit p.domains d
  let conv := p.caps.any fun (g : CapCfg) => g.chans.any fun (c : CapChan) => decide (c.kind = .conv)
  need (decide (6 ∈ p.present)) [3, 4] &&
  ((List.range 4).all fun q => need (decide (bits p.tileOn (32 * q + 31) (32 * q) ≠ 0)) [5 + q]) &&
  need (decide (12 ∈ p.present)) [9, 10] && need (decide (11 ∈ p.present) || conv) [14] && need (decide (10 ∈ p.present)) [15]

/-- System channels with a TARGET; with PERIODIC. -/
def Plan.sysChans (p : Plan) (target : Nat) : List ThyEntry :=
  p.thyme.filter fun (e : ThyEntry) => decide (e.kind = 1 ∧ e.target = target)
def onePeriodic : List ThyEntry → Bool
  | [e] => bit e.flags 2
  | _ => false

/-- Tile-cycle groups (R175), owners of channels (R59). -/
def Plan.thymeOk (p : Plan) : Bool :=
  (List.range 4).all (fun g => !bit (p.groups.getD g 0) 7 || onePeriodic (p.sysChans (5 + g))) &&
  p.thyme.all fun e => decide (e.kind ≠ 2) || (p.ten e.owner).isSome

/-- Masters among the capture units. -/
def Plan.isMaster (p : Plan) (u : Nat) : Bool := p.caps.any fun (g : CapCfg) => decide (g.unit = u ∧ g.group = u)

/-- ROWLEN and SLOTLEN (R374). -/
def CapCfg.slotLen (g : CapCfg) : Nat := 2048 + (g.pre + 16 + g.post) * (8 + 4 * g.na + 2 * ((g.nd + 15) / 16))

/-- A stream and tap exist. -/
def Plan.tapIn (p : Plan) (n tap : Nat) : Bool :=
  (p.stream n).isSome && match p.topo n with | some t => decide (tap < t.taps.length) | none => false

/-- Memory and capture (R28, R58, R374). -/
def Plan.captureOk (p : Plan) : Bool :=
  let chan (c : CapChan) : Bool := match c.kind with
    | .raw => (p.stream c.stream).isSome && (p.topo c.stream).isSome
    | .tap => p.tapIn c.stream c.tap
    | _ => true
  let one (g : CapCfg) : Bool :=
    let rate := match g.chans.head? with
      | some c => match p.stream c.stream with | some x => decide (x.rate = g.rate) | none => false
      | none => false
    let region := p.regions.getD g.unit 0
    g.chans.all chan && rate && (decide (g.owner = 0xFFFF) || (p.ten g.owner).isSome) &&
      decide (region ≠ 0 ∧ g.nslot * g.slotLen ≤ region ∧ 2 + g.unit ∈ p.banks)
  decide (0 ∈ p.banks ∧ 1 ∈ p.banks) && p.caps.all one &&
    (p.sysChans 9).all fun e => p.isMaster e.arg

/-- PAIR (R224). -/
def Plan.pairOk (p : Plan) : Bool :=
  (match p.ports[p.pair.port]? with
   | some e => decide (e.role = Role.partner ∧ e.speed = 0)
   | none => false) &&
  p.pair.home.all fun t => match p.ten t with | some c => c.classC | none => false

/-- The sources of a loop exist (R277). -/
def Plan.srcOk (p : Plan) (w : Nat) : Bool := decide (bits w 31 30 ≠ 1) || p.tapIn (bits w 17 6) (bits w 5 4)

/-- LOOPS but for its sources and its rule on programs (R277). -/
def Plan.loopsOwned (p : Plan) : Bool :=
  let one (e : LoopEntry) : Bool := !bit e.flags 0 || ((p.ten e.owner).isSome && p.mayWrite e.owner e.outh)
  (p.loops.isEmpty || onePeriodic ((p.sysChans 3).filter fun (e : ThyEntry) => bit e.flags 2)) && p.loops.all one &&
    distinct (p.loops.map fun (e : LoopEntry) => e.outh)

/-- LOOPS but for its rule on programs (R277). -/
def Plan.loopsOk (p : Plan) : Bool :=
  p.loopsOwned && p.loops.all fun (e : LoopEntry) => p.srcOk e.fb && p.srcOk e.sp && p.srcOk e.ff

/-- SCHEME and PROGRAMS (R36, R256). -/
def Plan.programsOk (p : Plan) : Bool :=
  let refs (k t : Nat) : Nat := (p.refs.filter fun (r : ProgRef) => decide (r.kind = k ∧ r.tenant = t)).length
  p.refs.all (fun r => (p.ten r.tenant).isSome && decide (refs r.kind r.tenant = 1) &&
    (decide (r.kind = 1) || p.schemes.any fun (e : SchEntry) => decide (e.tenant = r.tenant))) &&
  p.schemes.all (fun e => decide (refs 2 e.tenant = 1)) &&
  (decide (12 ∉ p.present) || match p.thyme[p.tickCh]? with
    | some e => decide (e.kind = 1 ∧ e.target = 4) && bit e.flags 2
    | none => false)

/-- A slot has a KIND and a USE bit. -/
def Plan.keyIs (p : Plan) (slot kind useBit : Nat) : Bool :=
  match Tbl.get none p.keys slot with
  | some k => decide (k.kind = kind) && bit k.use useBit
  | none => false

/-- Keys that sections name (R352). -/
def Plan.keysOk (p : Plan) : Bool :=
  let owned (slot t : Nat) : Bool := match Tbl.get none p.keys slot with
    | some k => decide (k.owner = sysOwner ∨ k.owner = t)
    | none => false
  (enabledOf p.streams).all (fun e => decide (e.2.auth = 0) || p.keyIs e.2.keySlot Kind.hmac Use.svVerify) &&
  p.subs.all (fun c => decide (c.auth = 0) || (p.keyIs c.keySlot Kind.hmac Use.gooseVerify && owned c.keySlot c.tenant)) &&
  p.pubs.all (fun c => decide (c.auth ≠ 2) || (p.keyIs c.keySlot Kind.hmac Use.gooseGen && owned c.keySlot c.tenant)) &&
  p.keyIs p.pair.pairKey Kind.hmac Use.pair && p.keyIs p.pair.snapKey Kind.aes Use.snapshot

/-- GOOSE but for its rules on programs (R204); a class H publication has its source address to itself (R240). -/
def Plan.gooseCross (p : Plan) : Bool :=
  let classH (t : Nat) : Bool := match p.ten t with | some c => !c.classC | none => false
  let map (c : SubCfg) (m : SubMap) : Bool :=
    p.mayWrite c.tenant m.handle && decide (m.member < c.nds) && match m.qmember with
      | some q => decide (q < c.nds)
      | none => true
  let alone (c : PubCfg) : Bool := decide ((p.pubs.filter fun (d : PubCfg) => decide (d.sa = c.sa)).length = 1)
  p.pubs.all (fun c => !(c.scheme && classH c.tenant) && (!classH c.tenant || alone c)) && p.subs.all fun c => c.maps.all (map c)

/-- Step 9. -/
def Plan.crossOk (p : Plan) : Bool :=
  p.slotsApart && p.tenantsOk && p.streamsOk && p.domainsOk && p.thymeOk && p.captureOk && p.pairOk && p.loopsOk &&
    p.programsOk && p.keysOk && p.gooseCross

/-! Steps 1 to 9 -/

/-- Zero bits and bytes of the image header (Table 02-1, R441). -/
def imageZeros (b : Bytes) : Bool := decide (bnum b 6 2 < 2) && bzero b 0x64 0x100

/-- The chain and the leaf key (R33). -/
def State.chainOk (s : State) (g : Signed) : Bool := decide (g.root.isSome ∧ g.root = s.signRoot)

/-- Steps 1 to 9 of Table 02-3 on an image, with the length of its program area: the code of the first failure, or the
structure. -/
def State.imageCheck (s : State) (m : ImageObj) (area : Nat) : Except Nat Plan :=
  let b := m.bytes
  let heads := imageForm.dir b
  if !imageForm.formatOk b then .error 1
  else if bnum b 8 4 ≠ 0x8640 ∨ bnum b 0xC 2 ≠ 0xB1 then .error 2
  else if !bit (bnum b 0xE 2 % 8) (min 3 s.lifecycle) then .error 3
  else if !s.chainOk m.sig || decide (m.sig.leaf ≠ bbig b 0x30 48) then .error 4
  else if !imageForm.signedBy b m.sig then .error 5
  else if bnum b 0x10 8 < s.rg .SYS_ROLLFLOOR then .error 6
  else if !imageForm.crcOk b then .error 7
  else if !imageZeros b || !headsOk heads then .error 8
  else match planOf b heads area with
    | none => .error 8
    | some p => if !p.limitOk then .error 8 else if !p.crossOk then .error 9 else .ok p

end Sys2Proof.Machine
end

