-- ==== Sys2Proof/Machine/Apply.lean ====
section
/-! DEFINITION. Program objects and the checks of their content (R37, Table 02-3 step 10), and what a structure writes into
the state when it is applied (R45, R56 to R60, R86, R401). -/
namespace Sys2Proof.Machine

/-! Program objects -/

/-- The programs of a tenant: element and scheme. -/
abbrev Programs := List (Nat × Option ElaProg × Option SchProg)
def Programs.get (l : Programs) (t : Nat) : Option ElaProg × Option SchProg :=
  ((l.find? fun (e : Nat × Option ElaProg × Option SchProg) => decide (e.1 = t)).map fun
    (e : Nat × Option ElaProg × Option SchProg) => e.2).getD (none, none)

/-- The object of a reference, if it passes the checks of R37. -/
def State.progCheck (s : State) (area : ProgArea) (r : ProgRef) : Option ProgObj :=
  match area.objs.find? fun (e : Nat × ProgObj) => decide (e.1 = r.ofs) with
  | some (_, o) =>
    if s.signedOk o.sig && o.magic && decide (o.sig.msg = r.digest ∧ o.kind = r.kind ∧ o.tenant = r.tenant) &&
        (if r.kind = 1 then o.elem.isSome else o.sch.isSome) then some o
    else none
  | none => none

/-- Enters a program object under its tenant. -/
def Programs.add (l : Programs) (r : ProgRef) (o : ProgObj) : Programs :=
  let old := l.get r.tenant
  let new_ : Option ElaProg × Option SchProg :=
    if r.kind = 1 then (o.elem.map fun p => { p with digest := r.digest }, old.2)
    else (old.1, o.sch.map fun p => { p with digest := r.digest })
  (r.tenant, new_) :: l.filter fun (e : Nat × Option ElaProg × Option SchProg) => decide (e.1 ≠ r.tenant)

/-- The programs that the references name; none where one fails with PROGRAM. -/
def State.programs (s : State) (area : ProgArea) (refs : List ProgRef) (l : Programs) : Option Programs :=
  refs.foldlM (fun (l : Programs) r => (s.progCheck area r).map fun o => l.add r o) l

/-! What a structure configures -/

/-- MAC_CFG of a PORTS entry; ADMIN_DOWN is not the loader's. -/
def PortEntry.macCfg (e : PortEntry) : Nat :=
  e.role + e.speed * 2 ^ 4 + e.flags % 4 * 2 ^ 6 + e.maxfrm * 2 ^ 8 + e.flags / 4 % 4 * 2 ^ 10 + e.pfcMask * 2 ^ 16

/-- PORTS (R86). -/
def State.putPort (s : State) (n : Nat) (e : PortEntry) : State :=
  let s := s.setRg .MAC_CFG (e.macCfg + s.fld .MAC_CFG 31 31 n * 2 ^ 31) n
  let s := s.setRg .MAC_LINKCFG (e.rxIdle + e.upHold * 2 ^ 14 + e.downFilt * 2 ^ 22) n
  s.setRg .MAC_PAUSECFG e.pauseCap n

/-- Groups and tiles (R56). -/
def State.putTiles (s : State) (p : Plan) : State :=
  let s := iterUpto 4 (fun g (s : State) =>
    let v := p.groups.getD g 0
    s.setRg .ELA_GRPCFG (v / 128 * 2 ^ 31 + v % 4) g) s
  iterUpto 128 (fun t (s : State) =>
    let e := p.tile t
    if bit p.tileOn t then s.setRg .ELA_TILECFG (2 ^ 31 + e.group * 2 ^ 16 + e.wake) t else s.setRg .ELA_TILECFG 0 t) s

/-- Slots of the enabled tenants with their BUDGETs. -/
def Plan.slotTable (p : Plan) : Tbl (Option (Nat × Nat)) :=
  (enabledOf p.tens).foldl (fun (m : Tbl (Option (Nat × Nat))) e =>
    Tbl.put none m (32 * e.2.tile + e.2.slot) (some (e.1, (p.tile e.2.tile).budgets.getD e.2.slot 0))) []

/-- TTU_CHCFG of a THYME entry (R59). -/
def ThyEntry.chCfg (e : ThyEntry) : Nat :=
  e.kind * 2 ^ 30 + e.owner * 2 ^ 18 + e.arg * 2 ^ 13 + e.target * 2 ^ 8 + e.flags

def State.putThyme (s : State) (l : List ThyEntry) : State :=
  l.zipIdx.foldl (fun (s : State) (e : ThyEntry × Nat) => s.setRg .TTU_CHCFG e.1.chCfg e.2) s

/-- Shares and free pools (R57). -/
def State.putShares (s : State) (p : Plan) : State :=
  let free := (List.range 16).foldl (fun (m : Tbl Nat) b => Tbl.put 0 m b (p.budgets.getD b 0 - shareSum p.shares b)) []
  { s with crd := { s.crd with share := p.shares, free := free } }

/-- A LOOPS entry (R275). -/
def State.putLoop (s : State) (e : LoopEntry) : State :=
  let n := e.loop
  let s := (((s.setRg .LOP_FBSRC e.fb n).setRg .LOP_SPSRC e.sp n).setRg .LOP_FFSRC e.ff n).setRg .LOP_OUTH e.outh n
  let s := s.setRg .LOP_OWN (e.flags % 4 / 2 * 2 ^ 30 + e.flags % 2 * 2 ^ 31 + e.gtab * 2 ^ 16 + e.owner) n
  let s := iterUpto 14 (fun w (s : State) => s.setRg .LOP_COEF (e.coef.getD w 0) n w) s
  (s.setRg .LOP_DET e.det n).setRg .LOP_HOLD e.holdn n

/-- LOOPS (R275, R277). -/
def State.putLoops (s : State) (p : Plan) : State :=
  let s := s.setRg .LOP_CFG (p.loops.length * 2 ^ 16 + p.loopRate)
  let s := p.loops.foldl State.putLoop s
  let s := p.gains.foldl (fun (s : State) (e : Nat × Nat) => s.setRg .LOP_GAIN e.2 (e.1 / 256) (e.1 % 256)) s
  { s with lop := { s.lop with order := p.loops.map fun (e : LoopEntry) => e.loop } }

/-- A tenant's entry with its programs. -/
def State.putTenant (s : State) (t : Nat) (c : Option TenantCfg) (g : Option ElaProg × Option SchProg) : State :=
  s.setTenant t { s.tenant t with cfg := c.map fun c => { c with elem := g.1, sch := g.2 } }

/-- A tenant's scheme program on its core (R256, R265). -/
def State.putScheme (s : State) (t : Nat) (p : Plan) (g : Option SchProg) : State :=
  let core := ((p.schemes.find? fun (e : SchEntry) => decide (e.tenant = t)).map fun (e : SchEntry) => e.core).getD 0
  let c := s.schT t
  s.setSch t { c with prog := g, core := core, mustCold := decide (c.keptFor.isNone ∨ c.keptFor ≠ g.map fun (p : SchProg) => p.digest) }

/-- Publications and subscriptions by their entry numbers. -/
def State.putGoose (s : State) (p : Plan) : State :=
  let pubs : Tbl Pub := p.pubs.zipIdx.map fun (e : PubCfg × Nat) => (e.2, { cfg := some e.1 })
  let subs : Tbl Sub := p.subs.zipIdx.map fun (e : SubCfg × Nat) => (e.2, { cfg := some e.1 })
  { s with goose := { s.goose with pubs := pubs, subs := subs } }

/-- Every configured stream waits for good frames (Table 06-6). -/
def streamsOf (p : Plan) : Tbl Stream := (enabledOf p.streams).map fun (e : Nat × StreamCfg) => (e.1, { st := .acquire })

/-- A structure with its programs, written into the state. -/
def State.configure (s : State) (p : Plan) (g : Programs) : State :=
  let s := p.ports.zipIdx.foldl (fun (s : State) (e : PortEntry × Nat) => s.putPort e.2 e.1) s
  let s := (((s.putTiles p).putThyme p.thyme).putShares p).putLoops p
  let s := (enabledOf p.tens).foldl (fun (s : State) e => s.putTenant e.1 (some e.2) (g.get e.1)) s
  let s := p.schemes.foldl (fun (s : State) (e : SchEntry) => s.putScheme e.tenant p (g.get e.tenant).2) s
  let dcr := (List.range 16).foldl (fun (m : Tbl CapUnit) u =>
    Tbl.upd {} m u fun c => { c with cfg := p.caps.find? fun (x : CapCfg) => decide (x.unit = u) }) s.dcr
  let s := s.putGoose p
  { s with
    plan := p, slots := p.slotTable, dcr := dcr, par := { s.par with cfg := some p.pair }
    svx := { s.svx with cfg := p.streams, streams := streamsOf p }, flt := { s.flt with topo := p.topos }
    kvs := { s.kvs with attrs := p.keys } }

/-! Element programs: signal types, memory, stamps -/

/-- Signal types (R182). -/
inductive SigTy where
  | s | f | c | b | u | t
deriving DecidableEq, Repr

/-- Output types of a primitive with the types of its inputs (Table 08-5). -/
def primOuts (p : Prim) (ins : List SigTy) : List SigTy :=
  match p with
  | .svin _ _ k => List.replicate k .s ++ [.b, .b, .t]
  | .ptin _ isF => [if isF then .f else .b]
  | .const isF _ => [if isF then .f else .b]
  | .dft .. | .hdft .. | .phrot .. | .zloop .. | .zpp .. => [.c]
  | .lin .. | .mag | .ang | .freq .. => [.f]
  | .seq3 _ | .delta => [.c, .c, .c]
  | .resid => [.s]
  | .mho .. | .idmt .. | .rate .. | .ref .. => [.b, .f]
  | .quad .. | .ovr .. | .unr .. | .band .. | .cmps .. | .hres _ | .tpick .. | .tpulse _ | .tint .. | .and8 _ | .or8 _
  | .lut4 _ | .srff _ | .edge _ | .sync .. => [.b]
  | .dirn .. => [.b, .b]
  | .diff .. => [.f, .f, .b]
  | .cnt _ => [.u, .b]
  | .tstamp => [.t]
  | .qsel => [ins.headD .f]
  | .dfdt .. => [.f, .b]
  | .ptout .. | .pub .. | .tout .. | .capt _ => []

/-- State bytes of a primitive beyond its outputs (Table 08-5). -/
def primMem : Prim → Nat
  | .svin .. => 8
  | .ptin .. => 8
  | .dft n _ _ => 4 * n + 16
  | .hdft n _ _ => 2 * n + 16
  | .dirn .. | .ovr .. | .unr .. | .band .. | .cmps .. | .hres _ | .ref .. | .tpulse _ | .cnt _ | .srff _ | .edge _ | .capt _ => 4
  | .idmt .. | .diff .. | .tpick .. | .tint .. | .tout .. => 8
  | .rate win _ _ _ | .dfdt win _ _ _ => 4 * win + 8
  | .tstamp | .ptout .. => 12
  | .freq avg _ => 4 * avg + 8
  | .sync .. => 72
  | .pub .. => 36
  | .const .. | .lin .. | .mag | .ang | .phrot .. | .seq3 _ | .delta | .resid | .zloop .. | .zpp .. | .mho .. | .quad ..
  | .and8 _ | .or8 _ | .lut4 _ | .qsel => 0

/-- The outputs of every node: their types, and whether a stamp reaches them (R234). -/
def nodeTypes (nodes : List Node) : List (List (SigTy × Bool)) :=
  nodes.foldl (fun (acc : List (List (SigTy × Bool))) n =>
    let ins := n.ins.map fun (a : Nat × Nat) => (acc.getD a.1 []).getD a.2 (.f, false)
    let reach := ins.any fun (x : SigTy × Bool) => x.2
    let outs := (primOuts n.prim (ins.map fun (x : SigTy × Bool) => x.1)).map fun (y : SigTy) => (y, reach || decide (y = SigTy.t))
    acc ++ [outs]) []

/-- Bytes of slot memory that a program takes (Table 08-4). -/
def ElaProg.bytes (p : ElaProg) : Nat :=
  let outs := nodeTypes p.nodes
  64 + sum (p.nodes.map fun (n : Node) => 16 + primMem n.prim) + 12 * sum (outs.map fun (l : List (SigTy × Bool)) => l.length)

/-- Numbers that a selection of its nodes carries. -/
def ElaProg.pick (p : ElaProg) (f : Prim → Option Nat) : List Nat := p.nodes.filterMap fun (n : Node) => f n.prim

/-- OUTNOs: in range; one that a PUB or TOUT has is its own. -/
def ElaProg.outnosOk (p : ElaProg) : Bool :=
  let own := p.pick fun x => match x with
    | .pub _ o => some o
    | .tout _ _ _ _ _ o => some o
    | _ => none
  let shared := p.pick fun x => match x with | .ptout _ _ _ o => some o | _ => none
  (own ++ shared).all (fun o => decide (o ≤ 63)) && distinct own && own.all fun o => decide (o ∉ shared)

/-- Inputs come from earlier nodes. -/
def ElaProg.inputsOk (p : ElaProg) : Bool :=
  let outs := nodeTypes p.nodes
  p.nodes.zipIdx.all fun (e : Node × Nat) =>
    e.1.ins.all fun (a : Nat × Nat) => decide (a.1 < e.2 ∧ a.2 < (outs.getD a.1 []).length)

/-- Tap m of stream n exists and tenant t consumes the stream. -/
def State.tapFor (s : State) (t n m : Nat) : Bool :=
  (match s.streamCfg n with
   | some c => c.consumers.any fun (x : Nat × Bool) => decide (x.1 = t)
   | none => false) &&
  match s.topo n with
  | some x => decide (m < x.taps.length)
  | none => false

/-- The limits of Table 08-4 that one program shows (R181). -/
def State.elemLimit (s : State) (t : Nat) (p : ElaProg) : Bool :=
  let ptins := p.pick fun x => match x with | .ptin h _ => some h | _ => none
  let ptouts := p.pick fun x => match x with | .ptout h _ _ _ => some h | _ => none
  let pubs := p.pick fun x => match x with | .pub n _ => some n | _ => none
  let touts := p.pick fun x => match x with | .tout ch _ _ _ _ _ => some ch | _ => none
  let capts := p.pick fun x => match x with | .capt u => some u | _ => none
  let unitOk (u : Nat) : Bool := match (s.cap u).cfg with | some g => decide (g.owner = t) | none => false
  decide (1 ≤ p.nodes.length ∧ p.nodes.length ≤ 1024 ∧ 1 ≤ p.bindings.length ∧ p.bindings.length ≤ 64 ∧
    ptins.length ≤ 256 ∧ ptouts.length ≤ 256 ∧ pubs.length ≤ 16 ∧ touts.length ≤ 8 ∧ capts.length ≤ 4 ∧ p.bytes ≤ 16384) &&
  p.inputsOk && distinct ptouts && distinct pubs && p.outnosOk &&
  p.bindings.all (fun b => s.tapFor t b.stream b.tap) &&
  touts.all (fun ch => decide (ch < 32 ∧ s.chOwnerKind ch = 2 ∧ s.chOwner ch = t)) && capts.all unitOk

/-- R184 for one program. -/
def State.bindingsOk (s : State) (t : Nat) (p : ElaProg) : Bool :=
  let fg := s.groupHz (s.groupOf t)
  let k (b : Binding) : Nat := s.streamHz b / fg
  let kOk (b : Binding) : Bool := decide (s.streamHz b = k b * fg ∧ (k b = 1 ∨ k b = 3))
  let delay (b : Binding) : Nat := match s.topo b.stream with | some x => x.delay b.tap | none => 0
  match p.bindings with
  | [] => false
  | b0 :: rest =>
    let first := match s.topo b0.stream with
      | some x => decide (x.factor b0.tap = k b0) &&
          (pathOf x.stages 8 (x.tapStage b0.tap)).all fun (e : Nat × StageCfg) => decide (e.2.m = 1 ∨ e.2.phase = 0)
      | none => false
    p.bindings.all kOk && first && rest.all fun b => b.byStamp || decide (delay b = delay b0)

/-- R198 for one program. -/
def State.progRights (s : State) (t : Nat) (p : ElaProg) : Bool :=
  p.nodes.all fun n => match n.prim with
    | .ptin h _ => s.canPoint t h false
    | .ptout h _ _ _ => s.canPoint t h true
    | _ => true

/-- Member type of a signal type at a PUB input. -/
def SigTy.member : SigTy → MemType
  | .b => .b
  | .s => .s
  | .f => .f
  | _ => .u

/-- The PUB nodes of a program: PUBNO, member types, and whether a stamp reaches an input. -/
def ElaProg.pubNodes (p : ElaProg) : List (Nat × List MemType × Bool) :=
  let outs := nodeTypes p.nodes
  p.nodes.filterMap fun (n : Node) => match n.prim with
    | .pub no _ =>
      let ins := n.ins.map fun (a : Nat × Nat) => (outs.getD a.1 []).getD a.2 (.f, false)
      some (no, ins.map fun (x : SigTy × Bool) => x.1.member, ins.any fun (x : SigTy × Bool) => x.2)
    | _ => none

/-- The PUB checks of R204 for a tenant. -/
def State.pubNodesOk (s : State) (t : Nat) (p : Option ElaProg) : Bool :=
  let nodes := match p with | some p => p.pubNodes | none => []
  let entries := (s.pubsOf t).filterMap fun i => match (s.pub i).cfg with
    | some c => if c.scheme then none else some c
    | none => none
  entries.all (fun c => nodes.any fun (n : Nat × List MemType × Bool) =>
    decide (n.1 = c.pubno ∧ n.2.1.length = c.nmem ∧ n.2.1 = c.mtypes)) &&
  nodes.all fun n => entries.any fun (c : PubCfg) => decide (c.pubno = n.1)

/-- The tenants that publication entries name, enabled or not. -/
def State.pubTenants (s : State) : List Nat :=
  s.goose.pubs.filterMap fun (e : Nat × Pub) => e.2.cfg.map fun c => c.tenant

/-- Shares of the static maxima (R20). -/
def State.sharesOk (s : State) (t : Nat) (p : ElaProg) : Bool :=
  let sh (b : Nat) : Nat := Tbl.get 0 s.crd.share (crdKey b t)
  decide (p.max6 ≤ sh Bnd.elaPoint ∧ p.max7 ≤ sh Bnd.elaPub ∧ p.max8 ≤ sh Bnd.elaTimed ∧ p.max15 ≤ sh Bnd.partner)

/-- All slots of a tile: 120 KiB (Table 08-4). -/
def State.tileFits (s : State) (tile : Nat) : Bool :=
  decide (sum ((List.range 32).map fun k => match s.slotOf tile k with
    | some (t, _) => match s.tenCfg t with | some { elem := some p, .. } => p.bytes | _ => 0
    | none => 0) ≤ 120 * 1024)

/-- OUTH of a loop is no PTIN handle of a class H tenant (R277). -/
def State.outhOk (s : State) (t : Nat) (p : ElaProg) : Bool :=
  !s.classH t || p.nodes.all fun n => match n.prim with
    | .ptin h _ => s.lop.order.all fun l => decide (s.rg .LOP_OUTH l ≠ h)
    | _ => true

/-- First failure of a list of checks, each with its code. -/
def firstFail : List (Bool × Nat) → Nat
  | [] => 0
  | (true, _) :: rest => firstFail rest
  | (false, c) :: _ => c

/-- The checks of step 10 on the content of the programs of tenants, on a state configured with them (R37): the code of
the first that fails, or 0. -/
def State.contentCheck (s : State) (ts : List Nat) : Nat :=
  let elem (t : Nat) : Option ElaProg := match s.tenCfg t with | some c => c.elem | none => none
  let sch (t : Nat) : Option SchProg := match s.tenCfg t with | some c => c.sch | none => none
  let each (f : Nat → ElaProg → Bool) : Bool := ts.all fun t => match elem t with | some p => f t p | none => true
  let eachS (f : Nat → SchProg → Bool) : Bool := ts.all fun t => match sch t with | some p => f t p | none => true
  let tiles := ts.all fun t => match s.tenCfg t with | some c => s.tileFits c.tile | none => true
  firstFail
    [(each s.sharesOk, 9), (each s.elemLimit, 8), (tiles, 8), (each fun t p => decide (p.staticCost ≤ s.budget t), 9),
     (each s.bindingsOk, 9), (each s.progRights, 9), ((ts ++ s.pubTenants).all fun t => s.pubNodesOk t (elem t), 9),
     (each fun t p => !s.classH t || p.pubNodes.all fun (n : Nat × List MemType × Bool) => !n.2.2, 9),
     (eachS fun _ p => p.limitOk, 8), (eachS fun t p => s.schCrossOk t p, 9), (each s.outhOk, 9)]

/-- Step 10 for a structure and its program area: the code of the first failure, or the programs. -/
def State.stepTen (s : State) (p : Plan) (area : ProgArea) (base : Programs) (refs : List ProgRef) (ts : List Nat) :
    Except Nat Programs :=
  match s.programs area refs base with
  | none => .error 0xA
  | some g =>
    let code := (({} : State).configure p g).contentCheck ts
    if code = 0 then .ok g else .error code

/-! Applying an image -/

/-- Table 02-3 on a bank whose firmware booted: the code of the first failure, or the structure and its programs. -/
def State.bankCheck (s : State) (b : Bank) : Except Nat (Plan × Programs) := do
  let p ← s.imageCheck b.image b.area.length
  let g ← s.stepTen p b.area [] p.refs ((enabledOf p.tens).map fun (e : Nat × TenantCfg) => e.1)
  pure (p, g)

/-- The image is applied: registers, point database, running structure digest (R45, R47, R54, R401). -/
def State.applyImage (s : State) (m : ImageObj) (p : Plan) (g : Programs) : State :=
  let s := s.configure p g
  let digest := imageForm.digest m.bytes
  let jrnl := if s.jrnl.image = digest then s.jrnl else { image := digest }
  { s with
    pts := [], jrnl := jrnl, pwr := { s.pwr with mask := p.domains }
    boot := { s.boot with
      loaded := true, err := 0, imgVer := bnum m.bytes 0x10 8, imageDigest := digest, runDigest := digest, amdCount := 0
      holdSeal := if bit (bnum m.bytes 6 2) 0 then some (s.frc + 100 * ms) else none } }

end Sys2Proof.Machine
end

