-- ==== Sys2Proof/Machine/Tenants.lean ====
section
/-! DEFINITION. Service states, tenant commands and tenant reset (R330, R331, R340, R341, R346 to R349). -/
namespace Sys2Proof.Machine

/-! Queue pairs and mailbox at a reset -/

def State.setQp (s : State) (w q : Nat) (x : QPair) : State := { s with qps := Tbl.put {} s.qps (qpKey w q) x }

/-- The queue pairs of a window. -/
def windowQps (w : Nat) : List Nat := if w < 4096 then List.range 8 else (List.range 9).map (· + 60)

/-- Registers in a span of addresses whose class is not kept return to their reset values (R12, R400). -/
def State.regReset (s : State) (lo hi : Nat) (keep : Retention → Bool) : State :=
  { s with rf := s.rf.filter fun e => decide (e.1 < lo ∨ hi ≤ e.1) || match regFind e.1 with
    | some w => keep (regInfo w.reg).cls
    | none => keep .ten }

/-- First address of a window. -/
def windowBase (w : Nat) : Nat := regAddr .TEN_STATUS w 0

/-- Bytes of the memories in a span of addresses are cleared. -/
def State.memClear (s : State) (lo hi : Nat) : State :=
  { s with mem := s.mem.filter fun e => decide (e.1 < lo ∨ hi ≤ e.1) }

/-- The queue pairs of a window lose what stood in them; `keep` leaves the descriptors that were fetched, whose
completions then carry the old generation (Table 15-9). -/
def State.qpClear (s : State) (w : Nat) (keep : Bool) : State :=
  (windowQps w).foldl (fun (s : State) q => s.setQp w q { fetched := if keep then (s.qp w q).fetched else [] }) s

/-- Completions that the tenant's queue pairs wrote in the FRC count of the reset carry the old generation: they are
discarded (Table 15-12). -/
def State.cplRecall (s : State) (t : Nat) : State :=
  let fresh := s.out.drop s.now.outs
  let hit (o : Out) : Option Nat := match o with
    | .completion w q _ => if w = t then some q else none
    | _ => none
  let s := { s with out := s.out.take s.now.outs ++ fresh.filter fun o => (hit o).isNone }
  (fresh.filterMap hit).foldl (fun (s : State) q => (s.setRg .QP_CNT (s.rg .QP_CNT t q - 1) t q).incRg .TEN_CNT t 5) s

/-- Requests whose doorbell rang in the FRC count of the reset were not read (Table 15-12). -/
def State.mbxUnread (s : State) (t : Nat) : State :=
  let n := ((s.mailbox t).taken.filter fun r => decide (r.at_ = s.frc)).length
  s.setRg .TEN_CNT (s.rg .TEN_CNT t 0 - n) t 0

/-- The window registers of a tenant, its mailbox and its queue pairs at a reset (R400, Table 15-9, R349). -/
def State.windowReset (s : State) (t : Nat) : State :=
  let s := (s.cplRecall t).mbxUnread t
  let s := { s with now := { s.now with resets := Tbl.put false s.now.resets t true } }
  let lo := windowBase t
  let s := (s.regReset lo (lo + 0x10000) (· ≠ .ten)).memClear lo (lo + 0x10000)
  let s := (s.setMailbox t {}).qpClear t true
  s.setTenant t { s.tenant t with lastCmd := 0, result := 0 }

/-! Ends of commands -/

/-- A command that is not carried out: its result stands, and a command in progress goes on (R331). -/
def State.cmdRefuse (s : State) (t code result : Nat) : State :=
  let s := s.setTenant t { s.tenant t with lastCmd := code, result := result }
  let s := (s.alertBit t Alert.cmdDone).mbxNotify t 0x81 (words32 [code, result])
  if code = 2 ∨ code = 3 ∨ code = 5 ∨ code = 6 then s.fire 40 (t + code * 2 ^ 16) else s

/-- A command given through a host function reaches only the tenant's own link (R345). In `via`, l stands for the tenant's
virtual function on link l and 4 + l for the physical function of link l. -/
def State.viaOk (s : State) (t : Nat) (via : Option Nat) : Bool :=
  match via, s.tenCfg t with
  | none, _ => true
  | some l, some c => decide (c.link = l % 4)
  | some _, none => false

/-- A command that nothing refuses runs: it becomes the command in progress. -/
def State.cmdBegin (s : State) (t code : Nat) (via : Option Nat) : State :=
  s.setTenant t { s.tenant t with cmd := some { code := code, via := via }, lastCmd := code }

/-- The gate of R331: BUSY while a command is in progress or held; START and RESTORE are held during a commit or a drain; a
tenant that is not enabled has no command to run. -/
def State.cmdGate (s : State) (t code : Nat) (via : Option Nat) (body : State → State) : State :=
  let x := s.tenant t
  if !s.viaOk t via then s
  else if x.cfg.isNone then s.cmdRefuse t code 2
  else if (code = 1 ∨ code = 6) ∧ (x.commit ∨ x.svc = .drain) ∧ x.held.isNone then
    s.setTenant t { x with held := some { code := code, via := via } }
  else if x.cmd.isSome || x.held.isSome then s.cmdRefuse t code 1
  else body s

/-! Starts -/

/-- The side of a class C tenant at its first start: active on its home side (R246). -/
def State.cstStart (s : State) (t : Nat) : State :=
  let p := s.parTen t
  if s.classC t && decide (p.cst = 0) then
    let active := match s.par.cfg with
      | some c => decide ((if t ∈ c.home then 1 else 0) = s.pwr.side)
      | none => true
    s.setParTen t { p with cst := if active then 1 else 2 }
  else s

/-- The tenant has entered service (R405, R406). -/
def State.markStarted (s : State) (t : Nat) : State :=
  { s with pwr := { s.pwr with
      started := Tbl.put false s.pwr.started t true, hostOut := Tbl.put false s.pwr.hostOut t false
      pend := Tbl.put 0 s.pwr.pend t 0 } }

/-- START of a tenant that is OUT: IN; element SEAT, scheme as Table 11-2. -/
def State.serviceStart (s : State) (t : Nat) : State :=
  let s := (s.cstStart t).markStarted t
  let s := s.setTenant t { s.tenant t with svc := .in_, drained := false, amended := false }
  (s.elaStart t).schStart t

/-- START once it may run. -/
def State.startBody (s : State) (t : Nat) : State :=
  if (s.tenant t).svc = .out then (s.serviceStart t).cmdEnd t 1 0 else s.cmdRefuse t 1 2

/-- RESTORE once it may run: accepted in OUT and FROZEN; the snapshot is read and checked until RESTORE_DONE. -/
def State.restoreBody (s : State) (t : Nat) (via : Option Nat) : State :=
  let v := (s.tenant t).svc
  if v = .out ∨ v = .frozen then s.cmdBegin t 6 via else s.cmdRefuse t 6 2

/-- A held START or RESTORE is applied when the commit or drain has ended (R331). -/
def State.heldApply (s : State) (t : Nat) : State :=
  let x := s.tenant t
  match x.held with
  | some c =>
    if x.commit ∨ x.svc = .drain ∨ x.cmd.isSome then s
    else
      let s := s.setTenant t { x with held := none }
      if c.code = 1 then s.startBody t else s.restoreBody t c.via
  | none => s

def execStart (t : Nat) (via : Option Nat) (s : State) := done (s.cmdGate t 1 via fun s => s.startBody t)

/-! Tenant reset -/

/-- The reset instant (R341, Table 15-9): a freeze and any other command in progress end with STATE, the generation
increments, the tenant enters DRAIN, and every shared engine takes its action. -/
def State.tenReset (s : State) (t : Nat) : State :=
  let s := s.freezeAbort t 2
  let s := match (s.tenant t).cmd with | some c => s.cmdEnd t c.code 2 | none => s
  let x := s.tenant t
  let g := if x.gen = 0xFFFF then 1 else x.gen + 1
  let s := (s.setTenant t { x with gen := g, svc := .drain, drained := false, freezing := none }).incRg .TEN_CNT t 9
  let s := ((s.elaReset t).pubReset t).ttuFlushTenant t
  let s := ((s.parReset t).subReset t).schReset t
  ((s.loopsOwner t).canReset t).windowReset t

/-- A host command takes a tenant out of service during start-up (R406). -/
def State.hostTakesOut (s : State) (t : Nat) (via : Option Nat) : State :=
  if via.isSome && !s.pwr.ended then { s with pwr := { s.pwr with hostOut := Tbl.put false s.pwr.hostOut t true } } else s

/-- RESET: it prevails over a freeze in progress (R349). -/
def execReset (t : Nat) (via : Option Nat) (s : State) :=
  let s := if s.viaOk t via then s.freezeAbort t 2 else s
  done (s.cmdGate t 2 via fun s =>
    if (s.tenant t).svc = .out then s.cmdRefuse t 2 2
    else ((s.tenReset t).cmdBegin t 2 via).hostTakesOut t via)

/-- The boundaries of Table 01-4 whose owners are tenants. -/
def tenantBnds : List Nat := [6, 7, 8, 9, 10, 11, 14, 15]

/-- Every engine has drained: OUT, DRAINED, and the shares restored in full (R25, R341). The RESET command ends. -/
def State.drainEnd (s : State) (t : Nat) : State :=
  let s := s.setTenant t { s.tenant t with svc := .out, drained := true }
  let s := tenantBnds.foldl (fun (s : State) b =>
    { s with crd := { s.crd with used := Tbl.put 0 s.crd.used (crdKey b t) 0 } }) s
  match (s.tenant t).cmd with
  | some c => if c.code = 2 then s.cmdEnd t 2 0 else s
  | none => s

/-! Freeze and resume -/

/-- FREEZE: BLOCKED while the element is BLOCKED; accepted in IN (Table 15-3). While an online change waits for its boundary
the freeze waits too, and is then applied (R273). -/
def execFreeze (t : Nat) (via : Option Nat) (s : State) := done (s.cmdGate t 3 via fun s =>
  let x := s.tenant t
  let e := s.elaT t
  if decide (e.st = ElaSt.blocked) || e.pendBlock then s.cmdRefuse t 3 3
  else if x.svc ≠ .in_ then s.cmdRefuse t 3 2
  else
    let s := s.cmdBegin t 3 via
    let s := (s.incRg .TEN_CNT t 10).hostTakesOut t via
    if s.chgWaits t then s.setTenant t { s.tenant t with freezing := some s.frc } else s.freezeApply t)

/-- FREEZING has lasted 1 s (Table 15-3). -/
def execFreezeTimeout (t : Nat) (s : State) :=
  match (s.tenant t).freezing with
  | some f => if f + sec ≤ s.frc ∧ s.chgWaits t = false then done (s.freezeAbort t 4) else done s
  | none => done s

/-- RESUME: IN; element SEAT, scheme RUN, both as saved. -/
def execResume (t : Nat) (via : Option Nat) (s : State) := done (s.cmdGate t 4 via fun s =>
  let x := s.tenant t
  if x.svc ≠ .frozen then s.cmdRefuse t 4 2
  else
    let s := s.setTenant t { x with svc := .in_ }
    let e := s.elaT t
    let s := if e.st = ElaSt.frozen then s.setEla t { e with st := .seat } else s
    let c := s.schT t
    let s := if c.st = SchSt.frozen then s.setSch t { c with st := .run } else s
    s.cmdEnd t 4 0)

/-- RELEASE: accepted only while the element state is BLOCKED, from the host only (R331, R196, R30). In a window it ends when
the window does. DESIGN CHOICE: of the supervisor it is refused with STATE; the spec names no code. -/
def execRelease (t : Nat) (via : Option Nat) (s : State) := done (s.cmdGate t 7 via fun s =>
  let e := s.elaT t
  if via.isNone then s.cmdRefuse t 7 2
  else if e.st = ElaSt.blocked then (s.elaRelease t).cmdEnd t 7 0
  else if e.window.isSome then (s.elaRelease t).cmdBegin t 7 via
  else s.cmdRefuse t 7 2)

/-! Save and restore -/

/-- TEN_SNAPCFG: buffer length in bytes and key slot. -/
def State.snapLen (s : State) (t : Nat) : Nat := 16 * s.fld .TEN_SNAPCFG 17 0 t
def State.snapSlot (s : State) (t : Nat) : Nat := s.fld .TEN_SNAPCFG 31 18 t

/-- The snapshot key of a slot for a tenant. -/
def State.snapKey (s : State) (slot t : Nat) : Option Nat := s.usableKey slot Use.snapshot (some t)

/-- SAVE: accepted only in FROZEN; SIZE and KEY as R346 states. -/
def execSave (t : Nat) (via : Option Nat) (s : State) := done (s.cmdGate t 5 via fun s =>
  let x := s.tenant t
  if x.svc ≠ .frozen then s.cmdRefuse t 5 2
  else
    let slot := s.snapSlot t
    let len := (s.snapOf t slot 0 false x.saved x.savedCycle).1.length
    if s.snapLen t < len then s.cmdRefuse t 5 10
    else if (s.snapKey slot t).isNone then s.cmdRefuse t 5 11
    else s.cmdBegin t 5 via)

/-- A DMA error of a tenant's command or queue pair: counted, Walnut source 42, and an advisory error of the function through
which it was given: the tenant's own, or with `pf` the physical function of that link (R326). -/
def State.dmaError (s : State) (t : Nat) (pf : Option Nat) : State :=
  let s := (s.incRg .TEN_CNT t 6).fire 42 t
  match pf with
  | some l => s.emit (.aer l 0)
  | none => s.emit (.aer (s.windowFn t).1 (s.windowFn t).2)

/-- The function through which the tenant's command in progress was written: the link of the physical function, or none for
the tenant's own function, whose requester ID also a command of the supervisor carries (R326). -/
def State.cmdPf (s : State) (t : Nat) : Option Nat :=
  match (s.tenant t).cmd with
  | some c => match c.via with | some l => if 4 ≤ l then some (l - 4) else none | none => none
  | none => none

/-- Link and function of the command's transfers. -/
def State.cmdFn (s : State) (t : Nat) : Nat × Nat :=
  match s.cmdPf t with | some l => (l, 0) | none => s.windowFn t

/-- A command of code c is in progress. -/
def State.running_ (s : State) (t c : Nat) : Bool :=
  match (s.tenant t).cmd with
  | some x => decide (x.code = c)
  | none => false

/-- A running RESTORE fails and leaves the tenant unchanged. -/
def State.restoreFail (s : State) (t result : Nat) : State := (s.incRg .TEN_CNT t 13).cmdEnd t 6 result

/-- The snapshot has been written, or its DMA failed. -/
def execSaveDone (t : Nat) (ok : Bool) (s : State) :=
  if !s.running_ t 5 then done s
  else if !ok then done ((s.dmaError t (s.cmdPf t)).cmdEnd t 5 5)
  else
    let x := s.tenant t
    let slot := s.snapSlot t
    match s.snapKey slot t with
    | none => done (s.cmdEnd t 5 11)
    | some k =>
      let (sn, s) := s.snapOf t slot k false x.saved x.savedCycle
      let addr := s.rg .TEN_SNAPADDR t / 64 * 64
      done (((s.emit (.snapshot (s.cmdFn t).1 (s.cmdFn t).2 t addr sn.header sn)).incRg .TEN_CNT t 11).cmdEnd t 5 0)

def execRestore (t : Nat) (via : Option Nat) (s : State) := done (s.cmdGate t 6 via fun s => s.restoreBody t via)

/-- The check of a snapshot (R347), in its order: 0 passes. -/
def State.restoreCheck (s : State) (t : Nat) (sn : Snapshot) : Nat :=
  if !sn.formatOk || decide (2 ^ 21 < sn.length) || decide (s.snapLen t < sn.length) then 6
  else if sn.tenant ≠ t then 9
  else match s.snapKey sn.keySlot t with
    | none => 11
    | some k =>
      if !sn.intact || decide (sn.key ≠ k) then 7
      else if sn.elem ≠ s.elemDigest t ∨ sn.sch ≠ s.schDigest t then 8
      else 0

/-- The snapshot has been read and is checked; none where its DMA failed. A restore that passes puts the tenant IN. -/
def execRestoreDone (t : Nat) (snap : Option Snapshot) (s : State) :=
  if !s.running_ t 6 then done s
  else match snap with
    | none => done ((s.dmaError t (s.cmdPf t)).restoreFail t 5)
    | some sn =>
      let r := s.restoreCheck t sn
      if r ≠ 0 then done (s.restoreFail t r)
      else
        let s := ((s.cstStart t).markStarted t).setTenant t { s.tenant t with svc := .in_, drained := false, amended := false }
        done (((s.snapRestore t sn).incRg .TEN_CNT t 12).cmdEnd t 6 0)

/-! Counters -/

/-- TEN_CNT reads clear (R350). -/
def execTenCntRead (q : Requester) (t k : Nat) (s : State) := done (s.readClear q .TEN_CNT t k)

/-! Single-point access (R333) -/

/-- A refused access of a tenant. -/
def State.ptRefused (s : State) (t : Nat) : State := (s.setFlag .TEN_PTSTAT 0 t).incRg .TEN_CNT t 8

/-- A tenant reads a point under its read rights: outside them an unused point, refused. -/
def State.ptRead (s : State) (t h : Nat) : Point × State :=
  if badHandle h then ({}, s.ptRefused t)
  else if s.canPoint t h false then (s.point h, s)
  else ({}, s.ptRefused t)

/-- A point is written under a tenant's write rights, after the writes that arrived before (R333, R199): a host's write has writer code 2 and stamp source 2, the
supervisor's writer code 3 and stamp source 1 (R415). -/
def State.ptWrite (s : State) (t h data time : Nat) (sup : Bool) : State × Bool :=
  let cls := if sup then 3 else 2
  let (s, ok) := (s.pntDrain cls).tenantPoint s.frc cls t h { pointOf data time 0 with info := if sup then 1 + 4 * 3 else 2 + 4 * 2 }
  (if ok then s else s.ptRefused t, ok)

def execTenPtRead (t : Nat) (via : Option Nat) (s : State) :=
  if s.viaOk t via then
    let (p, s) := s.ptRead t (s.rg .TEN_PTHANDLE t)
    done ((s.setRg .TEN_PTDATA p.word t).setRg .TEN_PTTIME p.time t)
  else done s

def execTenPtWrite (t : Nat) (via : Option Nat) (s : State) :=
  if s.viaOk t via then done (s.ptWrite t (s.rg .TEN_PTHANDLE t) (s.rg .TEN_PTDATA t) (s.rg .TEN_PTTIME t) via.isNone).1 else done s

end Sys2Proof.Machine
end

