-- ==== Sys2Proof/Machine/Messages.lean ====
section
/-! DEFINITION. Mailbox slots and messages (R334 to R339). -/
namespace Sys2Proof.Machine

/-- Address of host-to-device slot k and of device-to-host slot k of a window (Table 15-4). -/
def h2dSlot (w k : Nat) : Nat := windowBase w + 0x400 + 0x40 * k
def d2hSlot (w k : Nat) : Nat := windowBase w + 0x600 + 0x40 * k

/-- The message in the 64 bytes of a slot (R334). -/
def mbxParse (b : List Byte) : MbxMsg :=
  let at_ (i n : Nat) : Nat := ofLe ((b.drop i).take n)
  { op := at_ 0 2, len := at_ 2 1, status := at_ 3 1, tag := at_ 4 4, gen := at_ 8 2, payload := b.drop 16 }

/-- The 64 bytes of a message. -/
def MbxMsg.slotBytes (m : MbxMsg) : List Byte :=
  leBytes 2 m.op ++ leBytes 1 m.len ++ leBytes 1 m.status ++ leBytes 4 m.tag ++ leBytes 2 m.gen ++ List.replicate 6 0 ++
    (m.payload ++ List.replicate 48 0).take 48

/-- The generation that requests of a window carry; link requests carry zero. -/
def State.windowGen (s : State) (w : Nat) : Nat := if w < 4096 then (s.tenant w).gen else 0

/-- The device copies request slots in the order of their doorbells while the held items and the requests not yet
answered number fewer than 16 (R335, R337). The fuel is the number of slots. -/
def State.mbxTake (s : State) (w : Nat) : Nat → State
  | 0 => s
  | f + 1 =>
    let m := s.mailbox w
    match m.order with
    | [] => s
    | (k, at_) :: rest =>
      if s.mbxHeld w + m.taken.length < 16 then
        let msg := mbxParse (memGet s.mem (h2dSlot w k) 64)
        let s := s.setMailbox w { m with order := rest, taken := m.taken ++ [{ msg := msg, at_ := at_ }] }
        ((s.clrFlag .MBX_H2D_DB k w).tenCount w 0).mbxTake w f
      else s

/-- MBX_H2D_DB: bits set by one write are taken in ascending slot order. A doorbell in the cycle of the tenant's reset is
cleared unread (Table 15-12). -/
def execDoorbell (w mask : Nat) (s : State) :=
  if Tbl.get false s.now.resets w then done s
  else
  let fresh := (List.range 8).filter fun k => bit mask k && !s.flag .MBX_H2D_DB k w
  let m := s.mailbox w
  let s := s.setMailbox w { m with order := m.order ++ fresh.map fun k => (k, s.frc) }
  let s := s.orRg .MBX_H2D_DB (mask % 256) w
  done (s.mbxTake w 8)

/-- Held items go to free device-to-host slots; each sets its bit and raises vector 0 (R335). The fuel is the number of
slots. -/
def State.mbxFlush (s : State) (w : Nat) : Nat → State
  | 0 => s
  | f + 1 =>
    let m := s.mailbox w
    match m.held, (List.range 8).find? fun k => !s.flag .MBX_D2H_DB k w with
    | i :: rest, some k =>
      let s := s.setMailbox w { m with held := rest }
      let s := { s with mem := memPutAll s.mem (d2hSlot w k) i.msg.slotBytes }
      ((s.setFlag .MBX_D2H_DB k w).raise w 0).mbxFlush w f
    | _, _ => s

/-- MBX_D2H_DB: the host frees slots, held items are written, and further requests may be taken (R337). -/
def execD2hSlotFree (w mask : Nat) (s : State) :=
  let s := s.setRg .MBX_D2H_DB (s.rg .MBX_D2H_DB w - (s.rg .MBX_D2H_DB w &&& mask % 256)) w
  done ((s.mbxFlush w 8).mbxTake w 8)

/-! Serving -/

/-- What serving a request yields: status and payload of the reply, and the effect, which follows the reply. -/
structure MbxAnswer where
  status : Nat := 0
  payload : List Byte := []
  next : State → State := id

/-- An answer without effect. -/
def mbxOnly (status : Nat) : MbxAnswer := { status := status }

/-- A request is answered: its reply joins the held items, then its effect follows. -/
def State.mbxAnswer (s : State) (w : Nat) (r : MbxMsg) (a : MbxAnswer) : State :=
  a.next (s.mbxReply w r a.status a.payload)

/-- The firmware serves the oldest request when it has this OP: STALE for another generation, BADLEN for another payload
length. A request that the device has answered TIMEOUT is served without a reply (R336). -/
def State.mbxServe (s : State) (w op lo hi : Nat) (body : State → List Byte → MbxAnswer) : State :=
  let m := s.mailbox w
  let judge (r : MbxMsg) : MbxAnswer :=
    if r.gen ≠ s.windowGen w then { status := 4, next := fun s => s.tenCount w 1 }
    else if r.len < lo ∨ hi < r.len then mbxOnly 3
    else body s (r.payload.take r.len)
  if !s.pwr.supRuns then s
  else match m.late, m.taken with
    | r :: rest, _ =>
      if r.msg.op = op then (judge r.msg).next (s.setMailbox w { m with late := rest }) else s
    | [], r :: rest =>
      if r.msg.op = op then (s.setMailbox w { m with taken := rest }).mbxAnswer w r.msg (judge r.msg) else s
    | [], [] => s

/-- OPs that a mailbox serves: below 0x40 in tenant windows, 0x40 to 0x7F in link windows (R338). -/
def mbxOps (w : Nat) : List Nat :=
  if w < 4096 then [0x01, 0x10, 0x11, 0x12, 0x14, 0x18, 0x19, 0x1A, 0x20, 0x24] else [0x40, 0x41, 0x42, 0x44]

/-- The firmware answers an oldest request that no message of Table 15-5 serves with BADOP (or STALE). -/
def State.mbxBadOp (s : State) (w : Nat) : State :=
  let m := s.mailbox w
  match m.late, m.taken with
  | r :: rest, _ => if r.msg.op ∈ mbxOps w then s else s.setMailbox w { m with late := rest }
  | [], r :: rest =>
    if r.msg.op ∈ mbxOps w then s
    else
      let s := s.setMailbox w { m with taken := rest }
      if r.msg.gen ≠ s.windowGen w then (s.mbxReply w r.msg 4 []).tenCount w 1 else s.mbxReply w r.msg 2 []
  | [], [] => s

/-- Replies and notifications are written to free slots (R335); a request with an OP that is not served is answered. -/
def execMailboxReply (w : Nat) (s : State) :=
  let s := if s.pwr.supRuns then s.mbxBadOp w else s
  done ((s.mbxFlush w 8).mbxTake w 8)

/-- The oldest request has waited 450 ms since its doorbell: TIMEOUT (R336). -/
def execMailboxTimeout (w : Nat) (s : State) :=
  let m := s.mailbox w
  match m.taken with
  | r :: rest =>
    if r.at_ + 450 * ms ≤ s.frc then
      let s := s.setMailbox w { m with taken := rest, late := m.late ++ [r] }
      done (((s.setFlag .MBX_STAT 0 w).tenCount w 2).mbxReply w r.msg 8 [])
    else done s
  | [] => done s

/-! Messages of tenant mailboxes (Table 15-5) -/

/-- Little-endian number at byte i of a payload. -/
def fieldAt (b : List Byte) (i n : Nat) : Nat := ofLe ((b.drop i).take n)

/-- INFO: six 16-bit fields, padded to 16 bytes, then the first 16 bytes of each program digest. -/
def State.infoBytes (s : State) (t : Nat) : List Byte :=
  let c := s.tenCfg t
  let cls := match c with | some x => b2n x.classC | none => 0
  let tile := match c with | some x => x.tile | none => 0
  let slot := match c with | some x => x.slot | none => 0
  [t, cls, (s.tenant t).gen, tile, slot, svcCode (s.tenant t).svc].flatMap (leBytes 2) ++ List.replicate 4 0 ++
    (digestBytes (s.elemDigest t)).take 16 ++ (digestBytes (s.schDigest t)).take 16

def execInfo (t : Nat) (s : State) := done (s.mbxServe t 0x01 0 0 fun s _ => { payload := s.infoBytes t })

/-- FORCE_SET: handle, TYPE, value (R268). -/
def execForceSet (t : Nat) (s : State) := done (s.mbxServe t 0x10 12 12 fun s b =>
  let r (s : State) := s.forceSet t (fieldAt b 0 4) (fieldAt b 4 4) (fieldAt b 8 4)
  { status := (r s).2, next := fun s => (r s).1 })

/-- FORCE_CLEAR: a handle, or all. -/
def execForceClear (t : Nat) (s : State) := done (s.mbxServe t 0x11 4 4 fun _ b =>
  { next := fun s => s.forceClear t (fieldAt b 0 4) })

/-- FORCE_LIST: up to 4 forces from an index on. -/
def execForceList (t : Nat) (s : State) := done (s.mbxServe t 0x12 4 4 fun s b =>
  let l := (((s.schT t).forces).drop (fieldAt b 0 4)).take 4
  { payload := l.flatMap fun (f : Force) => leBytes 4 f.handle ++ leBytes 4 f.type ++ leBytes 4 f.value })

/-- The reply of a command that fits the scheme state or not. -/
def schReply (f : State → State × Bool) (yes : Nat) (s : State) : MbxAnswer :=
  { status := if (f s).2 then yes else 6, next := fun s => (f s).1 }

/-- SCH_CMD: 1 START_WARM, 2 START_COLD, 3 STOP. DESIGN CHOICE: any other value is answered STATE. -/
def execSchCmd (t : Nat) (s : State) := done (s.mbxServe t 0x14 4 4 fun s b =>
  match fieldAt b 0 4 with
  | 1 => schReply (fun s => s.schRestart t false) 0 s
  | 2 => schReply (fun s => s.schRestart t true) 0 s
  | 3 => schReply (fun s => s.schStopCmd t) 0 s
  | _ => mbxOnly 6)

/-- CHG_STAGE: package address and length, report address; the package is read by DMA, and a failed transfer is answered
with DMA (R326). -/
def execMbxChgStage (t : Nat) (pkg : Option ChgPkg) (s : State) := done (s.mbxServe t 0x18 20 20 fun s b =>
  if pkg.isNone then { status := 9, next := fun s => s.dmaError t (if (s.mailbox t).pf then some (s.windowFn t).1 else none) }
  else schReply (fun s => s.chgStage t pkg true (some (fieldAt b 12 8))) 1 s)

/-- CHG_RESULT of the tenant's change. -/
def State.chgNotify (s : State) (t : Nat) : State :=
  let c := (s.schT t).chg
  s.mbxNotify t 0x82 (words32 [c.result, c.nocarry, c.dropf])

def execMbxChgCommit (t : Nat) (s : State) := done (s.mbxServe t 0x19 0 0 fun s _ =>
  schReply (fun s => s.chgCommit t true) 1 s)

def execMbxChgDiscard (t : Nat) (s : State) := done (s.mbxServe t 0x1A 0 0 fun s _ =>
  let r := s.chgDiscard t
  if r.2 then { status := 1, next := fun s => (s.chgDiscard t).1.chgNotify t } else mbxOnly 6)

/-- CAN_SEND: controller, flags, DLC and identifier in the first 16 bytes, then up to 32 data bytes. The frame takes the
ring-entry layout of Table 14-2. -/
def canMessage (b : List Byte) : List Byte :=
  (b.drop 16 ++ List.replicate 32 0).take 32 ++ List.replicate 44 0 ++ leBytes 4 (fieldAt b 4 4) ++ leBytes 1 (fieldAt b 1 1) ++ leBytes 1 (fieldAt b 2 1)

def execCanSend (t : Nat) (s : State) := done (s.mbxServe t 0x20 16 48 fun s b =>
  let f (s : State) := s.canSend t (fieldAt b 0 1) (canMessage b) true
  let r := (f s).2
  { status := if r = 0 then 1 else r, next := fun s => (f s).1 })

/-- TIME: TMB_SYNC.STATE, GPB_UTCOFS and TMB_LASTSTEP. -/
def execTime (t : Nat) (s : State) := done (s.mbxServe t 0x24 0 0 fun s _ =>
  { payload := leBytes 4 (syncCode s.tb.sync) ++ leBytes 4 (s.rg .GPB_UTCOFS) ++ leBytes 8 (s.rg .TMB_LASTSTEP) })

end Sys2Proof.Machine
end

