-- ==== Sys2Proof/Machine/Ports.lean ====
section
/-! DEFINITION. Ports and MACs: receive checks, pause, address filter, link state (R86 to R108). -/
namespace Sys2Proof.Machine

/-- Line state that a received frame brings: lock lost during it, FCS good, RS-FEC codewords. -/
def State.fecCount (s : State) (n corr uncorr : Nat) : State :=
  let s := (s.mac n 18 corr).mac n 19 uncorr
  applyIf (decide (0 < uncorr)) (·.setFlag .MAC_STAT 6 n) s

/-! Pause -/

/-- PAUSE quanta in ns, rounded up (R95). -/
def State.quantaNs (s : State) (n q : Nat) : Nat :=
  match s.fld .MAC_CFG 5 4 n with
  | 0 => (q * 2048 + 99) / 100
  | 1 => (q * 512 + 9) / 10
  | _ => q * 512

/-- The port may not start a frame of class c (R95). -/
def Port.heldClass (p : Port) (c frc : Nat) : Bool :=
  (match p.pause with | some h => h.active frc | none => false) ||
    (match Tbl.get none p.pfc c with | some h => h.active frc | none => false)

/-- Counts PAUSE_NS up to an FRC count. -/
def State.pauseCount (s : State) (n till : Nat) : State :=
  match (s.prt n).heldFrom with
  | some f => (s.mac n 22 (till - f)).setPrt n { s.prt n with heldFrom := some (max f till) }
  | none => s

/-- Starts or ends the running count with whether any egress is held now. -/
def State.pauseMark (s : State) (n : Nat) : State :=
  let s := s.pauseCount n s.frc
  let p := s.prt n
  s.setPrt n { p with heldFrom := if p.held s.frc then some (p.heldFrom.getD s.frc) else none }

/-- A hold replaced by a new remaining time; its uninterrupted start stays. A hold that begins while a frame is in
transmission (`busy`) waits for the next frame boundary (R95). -/
def holdNew (old : Option Hold) (frc ns : Nat) (busy : Bool) : Option Hold :=
  let new_ : Hold := if busy then { start := frc, stop := frc, waits := some ns } else { start := frc, stop := frc + ns }
  if ns = 0 then none
  else match old with
    | some h => if h.active frc then some { h with stop := frc + ns } else some new_
    | none => some new_

/-- A hold that waits for the frame boundary begins there. -/
def Hold.begin_ (frc : Nat) (h : Hold) : Hold :=
  match h.waits with
  | some ns => { start := frc, stop := frc + ns }
  | none => h

/-- The port acts on pause frames now: the 1 ms after a capped hold has ended. -/
def State.pauseActs (s : State) (n : Nat) : Bool := decide ((s.prt n).ignoreTo ≤ s.frc ∧ s.role n ≠ Role.partner)

/-- A received PAUSE frame (R93, R95). -/
def State.pauseFrame (s : State) (n quanta : Nat) : State :=
  let s := s.mac n 9 1
  if s.flag .MAC_CFG 10 n && s.pauseActs n then
    let p := s.prt n
    (s.setPrt n { p with pause := holdNew p.pause s.frc (s.quantaNs n quanta) p.tx.isSome }).pauseMark n
  else s

/-- A received PFC frame (R93, R95). -/
def State.pfcFrame (s : State) (n enables : Nat) (quanta : List Nat) : State :=
  let s := s.mac n 10 1
  if s.flag .MAC_CFG 11 n && s.pauseActs n then
    let mask := s.fld .MAC_CFG 23 16 n
    let frc := s.frc
    let s := iterUpto 8 (fun c s =>
      if bit enables c && bit mask c then
        let p := s.prt n
        s.setPrt n { p with pfc := Tbl.upd none p.pfc c fun h => holdNew h frc (s.quantaNs n (quanta.getD c 0)) p.tx.isSome }
      else s) s
    s.pauseMark n
  else s

/-- The port receives frames: its link is UP (R105). -/
def State.receives (s : State) (n : Nat) : Bool := (s.prt n).up && s.pwr.main

def execPause (n quanta : Nat) (s : State) := done (if s.receives n then s.pauseFrame n quanta else s)
def execPfc (n enables : Nat) (quanta : List Nat) (s : State) :=
  done (if s.receives n then s.pfcFrame n enables quanta else s)

/-- Holds that have waited for the end of a frame begin (R95). -/
def State.holdsBegin (s : State) (n : Nat) : State :=
  let p := s.prt n
  (s.setPrt n { p with pause := p.pause.map (Hold.begin_ s.frc),
                       pfc := p.pfc.map fun e => (e.1, e.2.map (Hold.begin_ s.frc)) }).pauseMark n

/-- The time of a hold runs out (R95). -/
def execPauseHoldEnd (n : Nat) (s : State) :=
  let p := s.prt n
  let frc := s.frc
  let live (h : Option Hold) : Option Hold := match h with
    | some x => if x.active frc || x.waits.isSome then some x else none
    | none => none
  let ends := (p.pause.toList ++ p.pfc.filterMap (·.2)).map (·.stop)
  let s := if p.held frc then s else s.pauseCount n (min frc (ends.foldl max 0))
  done ((s.setPrt n { s.prt n with pause := live p.pause, pfc := p.pfc.filter fun e => (live e.2).isSome }).pauseMark n)

/-- A hold has lasted PAUSE_CAP µs (R95). -/
def execPauseCapEnd (n : Nat) (s : State) :=
  let p := s.prt n
  let cap := min 10000 (max 1 (s.fld .MAC_PAUSECFG 13 0 n)) * us
  let frc := s.frc
  let capped (h : Option Hold) : Bool := match h with
    | some x => x.active frc && decide (x.start + cap ≤ frc)
    | none => false
  if capped p.pause || p.pfc.any fun e => capped e.2 then
    let s := s.pauseCount n frc
    let p := s.prt n
    let p := { p with pause := if capped p.pause then none else p.pause,
                      pfc := p.pfc.filter fun e => !capped e.2, ignoreTo := frc + ms }
    done ((((s.setPrt n p).pauseMark n).setFlag .MAC_STAT 10 n |>.mac n 23 1).fire 7 n)
  else done s

/-- The 1 ms after a capped hold ends: the port acts on PAUSE and PFC again (R95). -/
def execPauseIgnoreEnd (n : Nat) (s : State) :=
  let p := s.prt n
  if p.ignoreTo ≤ s.frc then done (s.setPrt n { p with ignoreTo := 0 }) else done s

/-! Address filter -/

/-- A frame is admitted (R97). -/
def State.admitted (s : State) (n da : Nat) : Bool :=
  let hit := (List.range 16).any fun e =>
    let f := s.rg .MAC_FENT n e
    bit f 63 && decide (Nat.xor da (bits f 47 0) &&& s.fld .MAC_FMASK 47 0 n e = 0)
  let bcast := decide (da = 0xFFFFFFFFFFFF) && s.flag .MAC_FILTCTL 2 n
  let bin := hashBin da
  let hash := decide ((s.prt n).filt ≠ .normal) && isGroup da && decide (da ≠ 0xFFFFFFFFFFFF) &&
    bit (s.rg .MAC_HASH n (bin / 32)) (bin % 32)
  hit || bcast || hash

/-- A change of the filter mode (R98). -/
def State.setFilt (s : State) (n : Nat) (m : FilterMode) : State :=
  if (s.prt n).filt = m then s else (s.setPrt n { s.prt n with filt := m }).setFlag .MAC_STAT 0 n

def execFiltReqNormal (n : Nat) (s : State) := done (s.setFilt n .normal)
/-- REQ 2 is accepted in lifecycle TEST or on a SPARE port (Table 04-4); in mode TEST it has no effect (R98). -/
def execFiltReqTest (n : Nat) (s : State) :=
  if (s.prt n).filt = .test ∨ s.fld .ATT_LC 2 0 = 0 ∨ s.role n = Role.spare then done (s.setFilt n .test) else done (s.setFlag .MAC_STAT 11 n)
def execFiltReqRecovery (n : Nat) (s : State) := done (s.setFilt n .recovery)

/-- A write of MAC_FMASK is held for its entry (R99). -/
def State.holdMask (s : State) (n e v : Nat) : State :=
  s.setPrt n { s.prt n with heldMask := Tbl.put none (s.prt n).heldMask e (some v) }

/-- MAC_FENT(n,e) takes effect together with its held mask (R99). -/
def State.commitEntry (s : State) (n e v : Nat) : State :=
  let s := s.setRg .MAC_FENT (v &&& (2 ^ 63 + (2 ^ 48 - 1))) n e
  match Tbl.get none (s.prt n).heldMask e with
  | some m => (s.setRg .MAC_FMASK (m % 2 ^ 48) n e).setPrt n
      { s.prt n with heldMask := Tbl.del (s.prt n).heldMask e }
  | none => s

/-! Receive -/

/-- A frame counted in RX_FRAMES or RX_PTP re-arms the idle condition (R107). -/
def State.rxSeen (s : State) (n : Nat) : State := s.setPrt n { s.prt n with rxAt := s.frc, rxIdleSeen := false }

/-- The receive stamp of a port at the present FRC count and position phi, with the ingress trim (R70). -/
def State.rxStamp (s : State) (n phi : Nat) : Stamp :=
  stampAdd (s.dtAt s.frc phi) (signed 16 (s.fld .TMB_ASYM 31 16 n))

/-- The transmit stamp of a port (R70). -/
def State.txStamp (s : State) (n phi : Nat) : Stamp :=
  stampAdd (s.dtAt s.frc phi) (signed 16 (s.fld .TMB_ASYM 15 0 n))

/-- admit() of R89 and the size outcome of R90, R91. -/
def State.macAdmit (s : State) (rx : RxFrame) (admitted : Bool) : State :=
  let n := rx.port
  let f := rx.frame
  let tooLong := decide (s.maxFrame n < f.len)
  let rx := { rx with oversize := tooLong }
  let s := if admitted then ((s.mac n 0 1).mac n 1 f.len).rxSeen n else s
  let s := if tooLong && admitted then (s.mac n 7 1).setFlag .MAC_STAT 4 n else s
  if s.role n = Role.partner then
    if tooLong then s.mac n 8 1
    else if 0 < s.avail Bnd.rx n then
      let s := s.takeCredit Bnd.rx n
      { s with par := { s.par with rx := s.par.rx ++ [rx] } }
    else s.ingestDrop Bnd.rx n
  else s.nodeReceive rx admitted

/-- A frame received on a port (R89, R90, R93, R96, R105, R119). -/
def execFrameReceive (n phi : Nat) (f : Frame) (lockLost fcsOk : Bool) (corr uncorr : Nat) (s : State) :=
  if s.role n = Role.off ∨ 8 ≤ n then done s
  else
    let s := s.fecCount n corr uncorr
    if s.receives n = false then done s
    else if lockLost then done (s.mac n 5 1)
    else if 16384 ≤ f.len then done (s.mac n 4 1)
    else if f.len ≤ 63 then done (s.mac n 2 1)
    else if !fcsOk then done (s.mac n 3 1)
    else
      let role := s.role n
      let rx : RxFrame :=
        { port := n, frc := s.frc, stamp := s.rxStamp n phi, frame := f, lanB := decide (lanOf role = 1) }
      if f.etherType = 0x8808 then
        match f.payload with
        | .macControl 1 _ q => done (s.pauseFrame n (q.headD 0))
        | .macControl 0x0101 en q => done (s.pfcFrame n en q)
        | _ => done (s.mac n 11 1)
      else if role = Role.partner then done (s.macAdmit rx true)
      else if f.etherType = 0x88F7 ∧ bit (s.fld .TMB_PTPCFG 7 0) n ∧ f.len ≤ s.maxFrame n then
        done { (s.mac n 12 1).rxSeen n with tb := { s.tb with ptpRx := s.tb.ptpRx ++ [rx] } }
      else if s.admitted n f.da then done (s.macAdmit rx true)
      else
        let s := s.mac n 6 1
        if s.hsr && decide (role = Role.stA ∨ role = Role.stB) then done (s.macAdmit rx false) else done s

/-! Link state -/

/-- UP_HOLD in ns and DOWN_FILT in ns; 0 counts as 1. -/
def State.upHold (s : State) (n : Nat) : Nat := max 1 (s.fld .MAC_LINKCFG 21 14 n) * ms
def State.downFilt (s : State) (n : Nat) : Nat := max 1 (s.fld .MAC_LINKCFG 31 22 n) * us

/-- What a port puts on its line beside frames: nothing with role OFF, idle with ADMIN_DOWN and with lock; without lock
the remote fault sequence, at 1000BASE-X with AN_EN the configuration of a running negotiation, which advertises full
duplex only, pause 00 and remote fault 00, and without AN_EN idle (R88, R101, R102). -/
def State.lineTx (s : State) (n : Nat) : LineTx :=
  if s.role n = Role.off then .off
  else if s.flag .MAC_CFG 31 n || (s.prt n).lock then .idle
  else if s.fld .MAC_CFG 5 4 n ≠ 2 then .remoteFault
  else if s.flag .MAC_CFG 7 n then .config true false 0 0
  else .idle

/-- Logs what the port now puts on its line, where it differs from what it put there in state `old`. -/
def State.lineFrom (s old : State) (n : Nat) : State :=
  if s.lineTx n = old.lineTx n then s else s.emit (.line n (s.lineTx n))

/-- UP to DOWN (R104, R133): the frame in transmission is cut off, holds end, queues are flushed. -/
def State.linkDown (s : State) (n : Nat) : State :=
  let p := s.prt n
  let s := match p.tx with
    | some f => (s.mac n 16 1).emit (.frame n f.frame f.frame.len true)
    | none => s
  let s := s.pauseCount n s.frc
  let s := s.setPrt n { s.prt n with up := false, tx := none, pause := none, pfc := [], heldFrom := none, ignoreTo := 0 }
  let s := s.flushPort n
  let s := ((s.setFlag .MAC_STAT 1 n).mac n 20 1).fire 6 n
  let s := (s.almond 7).clrFlag .TMB_PDRAW 31 n
  { s with tb := { s.tb with pdOut := Tbl.del s.tb.pdOut n } }

/-- DOWN to UP (R105): no receive state from before the loss is kept. -/
def State.linkUp (s : State) (n : Nat) : State :=
  let s := s.setPrt n { s.prt n with up := true, upAt := s.frc, rxAt := s.frc, rxIdleSeen := false, pause := none,
                                     pfc := [], heldFrom := none, ignoreTo := 0 }
  (s.setFlag .MAC_STAT 2 n).fire 6 (n + 256)

/-- The line meets the conditions of lock for the speed, FEC_EN and AN_EN of the port; `rf`: a remote fault sequence is being
received (R101). -/
def State.lineLocks (s : State) (n : Nat) (x : Line) (rf : Bool) : Bool :=
  if s.fld .MAC_CFG 5 4 n = 2 then
    x.sync && (!s.flag .MAC_CFG 7 n || (match x.an with | some (full, _) => full | none => false))
  else x.blockLock && (!s.flag .MAC_CFG 6 n || x.fecAligned) && !x.localFault && !rf

/-- Fault bits of MAC_STAT and the remote fault code of an ended negotiation, as the line shows them (R101, R105). -/
def State.lineShows (s : State) (n : Nat) (x : Line) (rf : Bool) : State :=
  let s := applyIf x.localFault (·.setFlag .MAC_STAT 8 n) s
  let s := applyIf rf (·.setFlag .MAC_STAT 7 n) s
  match x.an with
  | some (_, rf) => if s.flag .MAC_CFG 7 n then s.setPrt n { s.prt n with anRf := rf % 4 } else s
  | none => s

/-- The line of a port changes so that it no longer meets the conditions of lock; a frame in reception on an UP link ends
(R101 to R103). -/
def execLossOfLock (n : Nat) (receiving : Bool) (lf : Line) (rf : Bool) (s : State) :=
  let old := s
  let s := s.lineShows n lf rf
  if s.lineLocks n lf rf then done s
  else
    let p := s.prt n
    let s := if receiving && p.up then s.mac n 5 1 else s
    if p.lock then done ((s.setPrt n { s.prt n with lock := false, lockAt := s.frc }).lineFrom old n) else done s

/-- The line of a port meets the conditions of lock again (R101, R102): within DOWN_FILT on an UP link it was a glitch; on a
DOWN link the UP_HOLD timer starts. No remote fault sequence is received any more. -/
def execLockRegained (l : PortLine) (s : State) :=
  let old := s
  let n := l.port
  let s := s.lineShows n l.line false
  let p := s.prt n
  if p.lock || decide (s.role n = Role.off) || !s.lineLocks n l.line false then done s
  else
    let s :=
      if p.up then
        if s.frc < p.lockAt + s.downFilt n then (s.setFlag .MAC_STAT 3 n).mac n 21 1 else s.linkDown n
      else s
    done ((s.setPrt n { s.prt n with lock := true, lockAt := s.frc }).lineFrom old n)

/-- Lock has been held for UP_HOLD with ADMIN_DOWN clear (Table 04-5); in recovery no port comes up (R43). -/
def execUpHoldExpiry (n : Nat) (s : State) :=
  let p := s.prt n
  if p.lock && !p.up && !s.flag .MAC_CFG 31 n && decide (s.role n ≠ Role.off) && s.pwr.main && !s.pwr.serdesLow &&
      !s.boot.recovery &&
      decide (p.lockAt + s.upHold n ≤ s.frc) then done (s.linkUp n)
  else done s

/-- A loss of lock has lasted DOWN_FILT (Table 04-5). -/
def execDownFiltExpiry (n : Nat) (s : State) :=
  let p := s.prt n
  if p.up && !p.lock && decide (p.lockAt + s.downFilt n ≤ s.frc) then done (s.linkDown n) else done s

/-- A write of 1 to ADMIN_DOWN: an UP link goes DOWN at once; a frame in reception is cut (R102, R103). -/
def execAdminDown (n : Nat) (receiving : Bool) (s : State) :=
  let old := s
  let s := s.setFlag .MAC_CFG 31 n
  let s := if (s.prt n).up then (if receiving then s.mac n 5 1 else s).linkDown n else s
  done (s.lineFrom old n)

/-- RX_IDLE ms pass without a counted frame (R107). -/
def execRxIdleTimeout (n : Nat) (s : State) :=
  let p := s.prt n
  let t := s.fld .MAC_LINKCFG 13 0 n
  if p.up && !p.rxIdleSeen && decide (t ≠ 0 ∧ p.rxAt + t * ms ≤ s.frc) then
    done ((s.setPrt n { p with rxIdleSeen := true }).setFlag .MAC_STAT 5 n)
  else done s

/-- MAC_CNTCLR (R108). -/
def execMacCntclr (n mask : Nat) (s : State) :=
  let s := s.pauseCount n s.frc
  done (iterUpto 24 (fun k s => 
    if !bit mask k then s else if k = 22 then s.setRg .MAC_CNT 0 n 22 else s.clrCount .MAC_CNT n k) s)

/-- A Clause 37 negotiation finds no full duplex (R88): the port stays down and negotiates again from its advertisement. -/
def execAutonegFail (n rf : Nat) (s : State) :=
  if s.flag .MAC_CFG 7 n && decide (s.fld .MAC_CFG 5 4 n = 2) && !(s.prt n).up then
    let s := (s.setPrt n { s.prt n with lock := false, lockAt := s.frc, anRf := rf % 4 }).setFlag .MAC_STAT 9 n
    done (s.emit (.line n (s.lineTx n)))
  else done s

/-! Egress -/

/-- The 802.1Q tag of a frame at output o, 0 to 11, under the settings of its classification: untagged where its VID is the
output's PVID and UNTAG is set, else tagged (R123, R125). PTP of Thyme and partner frames leave as built. -/
def SwFrame.tagged (f : SwFrame) (o : Nat) : Frame :=
  let g := f.frame
  let cfg := f.pcfg.getD o 0
  let pvid := bits cfg 27 16
  let pvid := if 1 ≤ pvid ∧ pvid ≤ 4094 then pvid else 1
  if f.origin = .pairing ∨ (f.origin = .thyme ∧ f.frame.etherType = 0x88F7) then g
  else if f.vid = pvid ∧ bit cfg 31 then
    match g.vlan with
    | some _ => { g with vlan := none, len := g.len - 4 }
    | none => g
  else
    match g.vlan with
    | some v => { g with vlan := some { v with vid := f.vid } }
    | none => { g with vlan := some { pcp := f.pri, vid := f.vid }, len := g.len + 4 }

/-- The frame that a port sends of a switched frame: tag, trailer or HSR tag (R120, R125), and its length. -/
def State.egressFrame (s : State) (n : Nat) (f : SwFrame) : Frame :=
  let g := f.tagged n
  let role := s.role n
  let seq := match nodeOf role with
    | some 0 => f.seqPb
    | some _ => f.seqSt
    | none => none
  match seq with
  | some q =>
    if nodeOf role = some 1 ∧ s.hsr then { g with hsr := some { seq := q }, len := g.len + 6 }
    else { g with rct := some { seq := q, lanId := 0xA + lanOf role }, len := g.len + 6 }
  | none => g

/-- correctionField saturates at its largest positive value (R73); the flag tells that it did. -/
def corrAdd (c d : Int) : Int × Bool :=
  if (2 ^ 63 - 1 : Int) < c + d then (2 ^ 63 - 1, true) else (c + d, false)

/-- One-step insertion at the egress stamp te (R73). -/
def State.oneStep (s : State) (f : SwFrame) (g : Frame) (te : Stamp) : State × Frame :=
  match g.payload with
  | .ptp m =>
    let put (m : PtpMsg) (d : Int) : State × Frame :=
      let (c, sat) := corrAdd m.corr d
      (applyIf sat (·.incRg .TMB_PTPUNS) s, { g with payload := .ptp { m with corr := c } })
    match m.type, f.origin with
    | .sync, .port =>
      if m.twoStep || !bit (s.fld .TMB_PTPCFG 7 0) f.inPort then (s, g)
      else put m ((stampDiff te f.ingress + s.rg .TMB_PDLY f.inPort) * 256)
    | .sync, _ =>
      if m.twoStep then (s, g) else put { m with origin := stampNs te } ((te % 256 : Nat) * 256)
    | .pdelayResp, .thyme => put { m with origin := 0 } (stampDiff te f.ingress * 256)
    | _, _ => (s, g)
  | _ => (s, g)

/-- The egress stamp enters the HEARTBEATs of a partner frame that carry exchange stamps (R227). -/
def PartnerMsg.stamped (te : Stamp) : PartnerMsg → PartnerMsg
  | .heartbeat (some x) state starts run => .heartbeat (some { x with t3 := te }) state starts run
  | m => m

/-- The frame waiting at a port starts transmission (R92, R95, R130): size check, padding, one-step insertion. -/
def execFrameTransmit (n phi : Nat) (s : State) :=
  let p := s.prt n
  match p.waiting, p.tx with
  | some f, none =>
    if p.up && !s.flag .MAC_CFG 31 n && !p.heldClass f.cls s.frc then
      let s := s.setPrt n { p with waiting := none }
      let g := s.egressFrame n f
      if s.maxFrame n < g.len then done (s.mac n 15 1)
      else
        let (s, g) := if g.len < 64 then (s.mac n 17 1, { g with len := 64 }) else (s, g)
        let te := s.txStamp n phi
        let (s, g) := s.oneStep f g te
        let g := match g.payload with
          | .partner p => { g with payload := .partner { p with msgs := p.msgs.map (PartnerMsg.stamped te) } }
          | _ => g
        let s := match g.payload, f.origin with
          | .ptp m, .thyme =>
            if m.type = PtpType.pdelayReq then
              let out := Tbl.upd none s.tb.pdOut n fun x => x.map fun (o : PdelayOut) => { o with t1 := some te }
              { s with tb := { s.tb with pdOut := out } }
            else s
          | _, _ => s
        done (s.setPrt n { s.prt n with tx := some { f with frame := g, ingress := te } })
    else done s
  | _, _ => done s

/-- The frame in transmission is out (R130); holds that waited for it begin (R95). -/
def execFrameTransmitted (n : Nat) (s : State) :=
  let p := s.prt n
  match p.tx with
  | some f =>
    let s := ((s.setPrt n { p with tx := none }).mac n 13 1).mac n 14 f.frame.len
    done ((s.holdsBegin n).emit (.frame n f.frame f.frame.len false))
  | none => done s

end Sys2Proof.Machine
end

