-- ==== Sys2Proof/Machine/Queues.lean ====
section
/-! DEFINITION. Queue pairs and virtual-port rings (R342 to R344), DMA errors (R326), host functions and links (R323,
R327, R404). -/
namespace Sys2Proof.Machine

/-- Entries of the rings of a queue pair that is enabled (QP_CFG). -/
def State.qpSize (s : State) (w q : Nat) : Option Nat :=
  let z := s.fld .QP_CFG 3 0 w q
  if s.flag .QP_CFG 31 w q && decide (4 ≤ z ∧ z ≤ 12) then some (2 ^ z) else none

/-- The tenant holds no credit at boundary 14: QP_STAT.FULL (R342). -/
def State.qpFull (s : State) (w : Nat) : Bool := decide (w < 4096 ∧ s.avail Bnd.hostQueue w = 0)

/-- FULL does not stop a tail write in the cycle of the last credit's loss (Table 15-12). -/
def State.qpShut (s : State) (w : Nat) : Bool :=
  s.qpFull w && decide (Tbl.get 0 s.crd.share (crdKey Bnd.hostQueue w) ≤ Tbl.get 0 s.now.used (crdKey Bnd.hostQueue w))

/-- A write of QP_SQTAIL: posts descriptors; ignored while FULL is set or where it passes the ring's capacity. -/
def State.sqTail (s : State) (w q v : Nat) : State :=
  match s.qpSize w q with
  | none => s.setRg .QP_SQTAIL (v % 4096) w q
  | some n =>
    let tail := s.rg .QP_SQTAIL w q
    let posted := (v % n + n - tail % n) % n
    let used := (tail + n - s.rg .QP_SQHEAD w q % n) % n
    if s.qpShut w || decide (n ≤ posted + used) then s.tenCount w 7
    else
      let s := s.setRg .QP_SQTAIL (v % n) w q
      if w < 4096 then s.setRg .TEN_CNT (satAdd 32 (s.rg .TEN_CNT w 4) posted) w 4 else s

def execSqTailWrite (w q v : Nat) (s : State) := done (s.sqTail w q v)

/-- A write of QP_CQHEAD frees completion entries. -/
def State.cqHead (s : State) (w q v : Nat) : State :=
  match s.qpSize w q with
  | none => s.setRg .QP_CQHEAD (v % 4096) w q
  | some n => s.setRg .QP_CQHEAD (v % n) w q

def execCqHeadWrite (w q v : Nat) (s : State) := done (s.cqHead w q v)

/-- A write of QP_CFG: EN 0 stops the pair and clears ERROR. -/
def State.qpEnable (s : State) (w q v : Nat) : State :=
  let s := s.setRg .QP_CFG (v &&& 0x8000000F) w q
  if bit v 31 then s else s.setQp w q { s.qp w q with error := false }

def execQpEnable (w q v : Nat) (s : State) := done (s.qpEnable w q v)

/-- The device fetches the next descriptor, in a tenant window while the tenant holds a credit (R342, R21). -/
def execDescriptorFetch (w q : Nat) (d : Desc) (s : State) :=
  match s.qpSize w q with
  | none => done s
  | some n =>
    let x := s.qp w q
    let head := s.rg .QP_SQHEAD w q
    if head % n = s.rg .QP_SQTAIL w q % n ∨ x.error ∨ s.qpFull w ∨ !s.domOn 13 then done s
    else
      let s := if w < 4096 then s.takeCredit Bnd.hostQueue w else s
      let h := (head + 1) % n
      let s := s.setRg .QP_SQHEAD h w q
      let f : Fetched := { desc := d, gen := s.windowGen w, head := h }
      done (s.setQp w q { x with fetched := x.fetched ++ [f] })

/-- The completion ring has room for another entry. -/
def State.cqRoom (s : State) (w q n : Nat) : Bool := decide (((s.qp w q).cqTail + 1) % n ≠ s.rg .QP_CQHEAD w q % n)

/-- The completion entry and its phase move on; the phase inverts on each pass of the ring. -/
def State.cqAdvance (s : State) (w q n : Nat) : State :=
  let x := s.qp w q
  let t := (x.cqTail + 1) % n
  (s.setQp w q { x with cqTail := t, phase := if t = 0 then !x.phase else x.phase }).incRg .QP_CNT w q

/-- The vector of a queue pair (R325). -/
def qpVector (w q : Nat) : Nat := if w < 4096 then (if q < 4 then 1 else 2) else (if q < 68 then 1 else 2)

/-- A descriptor completes: entry, count, vector and, for a tenant, its credit (R342, Table 15-8). -/
def State.qpComplete (s : State) (w q n : Nat) (f : Fetched) (status did : Nat) : State :=
  let x := s.qp w q
  let c : Completion := { tag := f.desc.tag, sqHead := f.head, status := status, phase := x.phase, done := did, gen := f.gen }
  let s := s.emit (.completion w q c)
  let s := s.cqAdvance w q n
  let s := if w < 4096 then s.giveCredit Bnd.hostQueue w else s
  if f.desc.irq then s.raise w (qpVector w q) else s

/-- A completion of an old generation: discarded and counted, no credit returned (Table 15-9). -/
def State.staleCompletion (s : State) (w : Nat) : State :=
  if w < 4096 then (s.tenCount w 5).alert w Alert.staleCpl 0 else s

/-- The oldest fetched descriptor of a queue pair is carried out when `fits` accepts its OP and the completion ring has
room. The body answers the state, STATUS and DONE, or nothing where the descriptor has to wait. -/
def State.qpServe (s : State) (w q : Nat) (fits : Nat → Bool) (body : State → Fetched → Option (State × Nat × Nat)) : State :=
  let x := s.qp w q
  match x.fetched with
  | [] => s
  | f :: rest =>
    let popped := s.setQp w q { x with fetched := rest }
    if f.gen ≠ s.windowGen w then popped.staleCompletion w
    else match s.qpSize w q with
      | none => s
      | some n =>
        if x.error || !fits f.desc.op || !s.cqRoom w q n then s
        else match body popped f with
          | none => s
          | some (s, status, did) => s.qpComplete w q n f status did

/-- Link and function of a queue pair's transfers: those through which its ring was written (R326). -/
def State.ringFn (s : State) (w q : Nat) : Nat × Nat :=
  if (s.qp w q).pf then ((s.windowFn w).1, 0) else s.windowFn w

/-- Bytes to the host buffer of a descriptor of a queue pair. -/
def State.toHost (s : State) (w q addr : Nat) (data : List Byte) : State :=
  let (l, f) := s.ringFn w q
  if data.isEmpty then s else s.emit (.dma l f addr data)

/-- Point records that a descriptor may move: COUNT of them, as far as its buffer holds them. -/
def Desc.points (d : Desc) : Nat := min d.count (d.len / 16)

/-- STATUS of a transfer: RIGHTS where a part was refused, PARTIAL where the buffer cut it off. -/
def moveStatus (refused cut : Bool) : Nat := if refused then 5 else if cut then 11 else 0

/-- A point record of 16 bytes (Table 08-7). -/
def Point.bytes (p : Point) : List Byte := leBytes 8 p.word ++ leBytes 8 p.time

/-- PT_READ of the handles that stand at ARG0 (R343). -/
def execPtRead (w q : Nat) (handles : List Nat) (s : State) := done (s.qpServe w q (· = 1) fun s f =>
  let d := f.desc
  if d.count = 0 ∨ 256 < d.count then some (s, 2, 0)
  else
    let hs := handles.take d.points
    let (s, data, bad) := hs.foldl (fun (a : State × List Byte × Nat) h =>
      let (p, s) := a.1.ptRead w h
      (s, a.2.1 ++ p.bytes, a.2.2 + b2n (badHandle h || !s.canPoint w h false))) (s, [], 0)
    some (s.toHost w q d.addr data, moveStatus (bad ≠ 0) (d.points < d.count), hs.length - bad))

/-- PT_WRITE of records read from the host buffer, each DATA and TIME, to the handles that stand at ARG0. -/
def execPtWrite (w q : Nat) (recs : List (Nat × Nat × Nat)) (s : State) := done (s.qpServe w q (· = 2) fun s f =>
  let d := f.desc
  if d.count = 0 ∨ 256 < d.count then some (s, 2, 0)
  else
    let rs := recs.take d.points
    let (s, good) := rs.foldl (fun (a : State × Nat) r =>
      let (s, ok) := a.1.ptWrite w r.1 r.2.1 r.2.2 false
      (s, a.2 + b2n ok)) (s, 0)
    some (s, moveStatus (good < rs.length) (d.points < d.count), good))

/-- The 64 bytes of a sample record (Table 06-4). -/
def SampleRec.bytes (r : SampleRec) : List Byte :=
  ((List.range 8).flatMap fun i => leBytes 4 (unsigned 32 (r.vals.getD i 0))) ++
  ((List.range 8).flatMap fun i => leBytes 2 (r.cq.getD i 0)) ++ leBytes 8 (stampNs r.stamp) ++ leBytes 1 r.stamp ++
  leBytes 1 (r.stampSrc + 4 * r.asdu + 32 * b2n r.lanB + 64 * r.syncClass) ++ leBytes 2 r.smp ++ leBytes 4 r.flags

/-- The 64 bytes of an output record (Table 07-4). -/
def OutRec.bytes (r : OutRec) : List Byte :=
  ((List.range 8).flatMap fun i => leBytes 4 (unsigned 32 (r.vals.getD i 0))) ++
  ((List.range 8).flatMap fun i => leBytes 2 (r.oq.getD i 0)) ++ leBytes 8 (stampNs r.stamp) ++ leBytes 1 r.stamp ++
  leBytes 1 r.stampSrc ++ leBytes 2 r.smp ++ leBytes 4 r.flags

/-- A tenant consumes a stream (R138). -/
def State.consumes (s : State) (t n : Nat) : Bool :=
  match s.streamCfg n with
  | some c => c.consumers.any fun x => decide (x.1 = t)
  | none => false

/-- Record i of the raw ring; none where it is no longer or not yet there. -/
def State.rawRecord (s : State) (n i : Nat) : Option (List Byte) :=
  let x := s.stream n
  match s.streamCfg n with
  | some c =>
    if i < x.widx ∧ x.widx ≤ i + c.ringDepth then (Tbl.get none x.ring (i % c.ringDepth)).map SampleRec.bytes else none
  | none => none

/-- Record i of a tap ring, while its credit is out (R22). DESIGN CHOICE: a position that was never written reads as EXPIRED
and counts as such; R22 names only entries whose credit has returned. -/
def State.tapRecord (s : State) (n tap i : Nat) : Option (List Byte) :=
  let c := s.chain n
  let ret := match s.topo n with | some t => t.ret | none => 1
  if i < Tbl.get 0 c.widx tap ∧ Tbl.get 0 c.widx tap ≤ i + ret then
    match Tbl.get none c.outs (64 * tap + i % ret) with
    | some e => if e.credit && decide (e.idx = i) then some e.rec_.bytes else none
    | none => none
  else none

/-- A read of an output entry whose credit has returned counts for its consumer (R22). -/
def State.expiredRead (s : State) (n k : Nat) : State :=
  iterUpto k (fun _ (s : State) => s.countDrop Bnd.output n) s

/-- RING_READ: records of a stream or tap that the tenant consumes, from a write index on. Expired positions are filled
with zeros and reported (R22, R343). -/
def execRingRead (w q : Nat) (s : State) := done (s.qpServe w q (· = 3) fun s f =>
  let d := f.desc
  let n := bits d.arg0 27 16
  let raw := bit d.arg0 13
  let tap := bits d.arg0 15 14
  if d.count = 0 ∨ 64 < d.count then some (s, 2, 0)
  else if !s.consumes w n then some (s, 5, 0)
  else
    let fit := min d.count (d.len / 64)
    let recs := (List.range fit).map fun i =>
      if raw then s.rawRecord n (d.arg1 + i) else s.tapRecord n tap (d.arg1 + i)
    let gone := (recs.filter fun r => r.isNone).length
    let data := recs.flatMap fun r => r.getD (List.replicate 64 0)
    let s := if raw then s else s.expiredRead n gone
    some (s.toHost w q d.addr data, if gone ≠ 0 then 10 else moveStatus false (fit < d.count), recs.length - gone))

/-- CAN_SEND of a frame read from the host buffer; it waits while no transmit buffer is free (R343). DESIGN CHOICE: on a
controller in LISTEN, which refuses the request, it completes with RIGHTS. -/
def execQpCanSend (w q : Nat) (frame : List Byte) (s : State) := done (s.qpServe w q (· = 5) fun s f =>
  let (s, r) := s.canSend w f.desc.arg0 frame false
  if r = 0 then some (s, 0, 96) else if r = 7 then none else some (s, 5, 0))

/-- OPs that a queue pair or ring serves with a command of their own. -/
def qpOps (w q : Nat) : List Nat := if w < 4096 then [1, 2, 3, 4, 5] else if q < 68 then [7] else [8]

/-- NOP completes without effect; an OP that the queue pair does not serve completes with BADOP. -/
def execNop (w q : Nat) (s : State) := done (s.qpServe w q (fun op => decide (op ∉ qpOps w q)) fun s f =>
  some (s, if f.desc.op = 6 then 0 else 2, 0))

/-! Virtual-port rings (R344) -/

/-- RX_BUF: the buffer is posted on its ring. -/
def execRxBuf (link cls : Nat) (s : State) :=
  let w := linkWindow link
  let x := s.qp w (60 + cls)
  match x.fetched with
  | f :: rest =>
    if f.desc.op = 7 ∧ cls < 8 then done (s.setQp w (60 + cls) { x with fetched := rest, bufs := x.bufs ++ [f] }) else done s
  | [] => done s

/-- TX_FRAME: a frame of the host enters the switch when its source address is one of its link (R127, R120 to R122). -/
def execTxFrame (link : Nat) (frame : Frame) (s : State) :=
  done (s.qpServe (linkWindow link) 68 (· = 8) fun s _ =>
    let own := (List.range 4).any fun k => s.flag .SWC_HSA 63 link k && decide (s.fld .SWC_HSA 47 0 link k = frame.sa)
    if !own then some (s.addRg64 .SWC_PCNT 1 link 16, 0, frame.len - 4)
    else
      let n := 8 + link
      let ptp := decide (frame.etherType = 0x88F7)
      let cls := s.classOf n (s.priOf n frame)
      let dst := s.lookup n (s.vidOf n frame) frame.da
      some (s.originate n .host frame cls dst (!ptp) fun node s => s.nextSeq (2 * link + node), 0, frame.len - 4))

/-- The INFO byte of a receive completion: stamp source (0 with an ingress stamp, else 3), ingress port, OVERSIZE, LAN B
copy (R344, R71). -/
def SwFrame.info (f : SwFrame) : Nat :=
  (if f.origin = .port then 0 else 3) + 4 * f.inPort + 32 * b2n f.oversize + 64 * b2n f.lanB

/-- The frame that reaches a host link: tagged for its virtual port (R125), and a Sync of the module with the one-step
values of R73 (R75, R344). DESIGN CHOICE: its egress stamp there is the device time of the delivery. -/
def State.hostFrame (s : State) (link : Nat) (f : SwFrame) : State × Frame :=
  let g := f.tagged (8 + link)
  if f.origin = .thyme then s.oneStep f g s.dt else (s, g)

/-- The oldest frame for a host link in a class is written to a posted buffer; its credit returns (R344, R126). -/
def execHostRxDelivery (link cls : Nat) (s : State) :=
  let w := linkWindow link
  let q := 60 + cls
  let key := link * 8 + cls
  match Tbl.get [] s.sw.hostQ key, (s.qp w q).bufs, s.qpSize w q with
  | f :: rest, b :: bufs, some n =>
    if s.cqRoom w q n && s.domOn 13 && !(s.qp w q).error then
      let s := { s with sw := { s.sw with hostQ := Tbl.put [] s.sw.hostQ key rest } }
      let s := s.giveCredit Bnd.host key
      let x := s.qp w q
      let s := s.setQp w q { x with bufs := bufs }
      let (s, g) := s.hostFrame link f
      let len := if f.oversize then s.maxFrame f.inPort else g.len - 4
      let s := (s.emit (.hostFrame link cls b.desc.addr { f with frame := g } f.info len x.phase)).cqAdvance w q n
      done (if b.desc.irq then s.raise w 1 else s)
    else done s
  | _, _, _ => done s

/-! DMA errors, functions and links -/

/-- A DMA read ends in error or gets no completion in 50 ms: its queue pair stops with status DMA, or the tenant's SAVE
or RESTORE ends (R326, R343). -/
def execDmaTimeout (w : Nat) (q : Option Nat) (s : State) :=
  match q with
  | some q =>
    let x := s.qp w q
    match x.fetched with
    | [] => done s
    | f :: rest =>
      if f.gen ≠ s.windowGen w then done ((s.setQp w q { x with fetched := rest }).staleCompletion w)
      else match s.qpSize w q with
        | none => done s
        | some n =>
          if x.error then done s
          else
            let s := (s.setQp w q { x with fetched := rest }).qpComplete w q n f 9 0
            let s := s.setQp w q { s.qp w q with error := true }
            if w < 4096 then done ((s.dmaError w (if x.pf then some (s.windowFn w).1 else none)).alert w Alert.qpError q)
            else done ((s.fire 42 w).emit (.aer (s.windowFn w).1 0))
  | none =>
    if s.running_ w 5 then done ((s.dmaError w (s.cmdPf w)).cmdEnd w 5 5)
    else if s.running_ w 6 then done ((s.dmaError w (s.cmdPf w)).restoreFail w 5)
    else done s

/-- The MBX_ and QP_ registers of a window return to their reset values; unanswered requests and fetched descriptors are
gone (R327). The credits of abandoned descriptors return. DEDUCED: QP_CNT, a counter of R350, is kept. -/
def State.windowFlr (s : State) (w : Nat) : State :=
  let live := (windowQps w).flatMap fun q => (s.qp w q).fetched.filter fun f => decide (f.gen = s.windowGen w)
  let s := if w < 4096 then live.foldl (fun (s : State) _ => s.giveCredit Bnd.hostQueue w) s else s
  let s := s.qpClear w false
  let lo := windowBase w
  let s := (s.regReset (lo + 0x40) (lo + 0x4C) (· ≠ .ten)).regReset (lo + 0x100) (lo + 0x300) (· ≠ .ten)
  let s := if 4096 ≤ w then s.regReset (lo + 0x1000) (lo + 0x1240) (· ≠ .ten) else s
  (s.setMailbox w {}).memClear (lo + 0x400) (lo + 0x800)

/-- The enabled tenants of a link, and the one of a function. -/
def State.linkTenants (s : State) (link : Nat) : List Nat :=
  (s.ten.filter fun e => match e.2.cfg with | some c => decide (c.link = link) | none => false).map (·.1)
def State.tenantOfVf (s : State) (link vf : Nat) : Option Nat :=
  (s.linkTenants link).find? fun t => match s.tenCfg t with | some c => decide (c.vf = vf) | none => false

/-- SAVE or RESTORE ends with DMA at a Function Level Reset (R349). -/
def State.flrCommand (s : State) (t : Nat) : State :=
  match (s.tenant t).cmd with
  | some c => if c.code = 5 then s.cmdEnd t 5 5 else if c.code = 6 then s.restoreFail t 5 else s
  | none => s

/-- The Function Level Reset of a tenant's function. -/
def State.vfReset (s : State) (t : Nat) : State := ((s.flrCommand t).windowFlr t).tenCount t 14

def execFunctionLevelReset (link vf : Nat) (s : State) :=
  match s.tenantOfVf link vf with
  | some t => done (s.vfReset t)
  | none => done s

/-- Every function of a link is reset: physical function FLR, hot reset or link loss (R327). -/
def State.linkReset (s : State) (link : Nat) : State :=
  ((s.linkTenants link).foldl (fun (s : State) t => s.vfReset t) s).windowFlr (linkWindow link)

def State.setLink (s : State) (h : Nat) (l : HostLink) : State := { s with links := Tbl.put {} s.links h l }

/-- A physical-function FLR or hot reset (`loss` false), or a loss of the link. -/
def execHostLinkReset (link : Nat) (loss : Bool) (s : State) :=
  let s := s.linkReset link
  let l := s.link link
  if loss && l.up then done ((s.setLink link { l with up := false, width := 0, speed := 0, vfen := 0 }).fire 41 link)
  else done (s.setLink link { l with vfen := 0 })

end Sys2Proof.Machine
end

