-- ==== Sys2Proof/Machine/Records.lean ====
section
/-! DEFINITION. Walnut's records (R371), capture rows and records (R375 to R381) and Almond (R382, R383). -/
namespace Sys2Proof.Machine

/-! Walnut -/

/-- Address of Walnut record i. -/
def evrRecord (i : Nat) : Nat := regAddr .EVR_STAT 0 0 + 0x200000 + 0x100 * (i % 8192)

/-- The 256 bytes of a record (Table 17-2); `lost` fires were lost before it. -/
def recordBytes (seq lost : Nat) (f : Fire) : List Byte :=
  let flags := b2n (decide (lost ≠ 0)) + 2 * b2n f.powerOn + 4 * b2n f.supDown
  let body := leBytes 4 seq ++ leBytes 1 f.source ++ leBytes 1 f.set ++ leBytes 1 f.words.length ++ leBytes 1 flags ++
    leBytes 8 (stampNs f.stamp) ++ leBytes 1 f.stamp ++ leBytes 1 f.stampSrc ++ leBytes 2 (min lost 65535) ++
    leBytes 4 f.arg ++ leBytes 8 f.arg2 ++ leBytes 4 f.boots ++ List.replicate 24 0 ++
    ((f.words.flatMap fun (w : W32) => leBytes 4 w.toNat) ++ List.replicate 192 0).take 192
  body ++ leBytes 4 (crc32c body)

/-- Walnut writes the oldest accepted fire, at most one record every 2 µs (R369, R371, R372). -/
def execRecordWrite (s : State) :=
  match s.evr.queue with
  | f :: rest =>
    if s.pwr.main && decide (s.evr.nextWrite ≤ s.frc) then
      let seq := s.rg .EVR_NEXTSEQ
      let bytes := recordBytes seq s.evr.lostSince f
      let s := { s with mem := memPutAll s.mem (evrRecord seq) bytes,
                        evr := { s.evr with queue := rest, lostSince := 0, nextWrite := s.frc + 2 * us } }
      done (((s.setRg .EVR_NEXTSEQ ((seq + 1) % 2 ^ 32)).setFlag .EVR_STAT 0).almond 20)
    else done s
  | [] => done s

/-- At power-on the record before EVR_NEXTSEQ is checked (R372). -/
def State.walnutCheck (s : State) : State :=
  let seq := s.rg .EVR_NEXTSEQ
  if seq = 0 then s
  else
    let b := memGet s.mem (evrRecord (seq - 1)) 256
    if crc32c (b.take 252) = ofLe (b.drop 252) then s else (s.incRg .EVR_CNT 2).setFlag .EVR_STAT 2

/-- EVR_SWTRIG. -/
def execSwtrig (src arg : Nat) (s : State) := done (s.fire (48 + src % 16) (arg % 2 ^ 28))

def execEvrCntRead (q : Requester) (k : Nat) (s : State) := done (s.readClear q .EVR_CNT k)

/-! Capture rows -/

/-- The COMTRADE marker of a missing value (R376). -/
def capMissing : W32 := 0x80000000

/-- Two stamps lie within half a second: they belong to the same pass of smpCnt. -/
def sameSecond (a b : Stamp) : Bool :=
  let d := stampDiff a b
  decide (-(128 * (sec : Int)) < d ∧ d < 128 * (sec : Int))

/-- The stream's raw record of a smpCnt (KIND 1). -/
def State.capRaw (s : State) (n smp : Nat) (at_ : Stamp) : Option SampleRec :=
  let x := s.stream n
  match s.streamCfg n with
  | none => none
  | some c =>
    let k := min x.widx c.ringDepth
    ((List.range k).map fun i => x.widx - 1 - i).findSome? fun i =>
      match Tbl.get none x.ring (i % c.ringDepth) with
      | some r => if r.smp = smp && sameSecond r.stamp at_ then some r else none
      | none => none

/-- A smpCnt is an output instant of a tap (R166). -/
def TopoCfg.instant (t : TopoCfg) (tap smp : Nat) : Bool :=
  (pathOf t.stages 8 (t.tapStage tap)).all fun e => decide (smp / mbOf t.stages e.1 % e.2.m = e.2.phase)

/-- The ring entry that holds the tap output of a smpCnt, or the last one where that is no output instant (KIND 2). -/
def State.capEntry (s : State) (n tap smp : Nat) (at_ : Stamp) : Option OutEntry :=
  let outs := (s.tapRing n tap).reverse
  match s.topo n with
  | none => none
  | some t =>
    if t.instant tap smp then outs.find? fun e => e.rec_.smp = smp && sameSecond e.rec_.stamp at_ else outs.head?

/-- What a read of that entry gives: nothing where its credit has returned (R22). -/
def State.capTap (s : State) (n tap smp : Nat) (at_ : Stamp) : Option OutRec :=
  match s.capEntry n tap smp at_ with
  | some e => if e.credit then some e.rec_ else none
  | none => none

/-- Reads of tap entries by a closing row that find the credit returned count as expired (R22). -/
def State.capExpired (s : State) (g : CapCfg) (o : CapOpen) : State :=
  g.chans.foldl (fun (s : State) h => match h.kind, s.capEntry h.stream h.tap o.smp o.stamp with
    | .tap, some e => if e.credit then s else s.countDrop Bnd.output h.stream
    | _, _ => s) s

/-- The value of a channel when the row closes, with whether the point had no integer value (MISSING). A channel is invalid
by its validity or by RANGE (R145). -/
def State.capValue (s : State) (o : CapOpen) (h : CapChan) : W32 × Bool :=
  let num (v : Int) (q : Nat) : W32 := if q % 4 = 1 ∨ q % 4 = 2 ∨ bit q 14 then capMissing else BitVec.ofInt 32 v
  match h.kind with
  | .none => (capMissing, false)
  | .raw => match s.capRaw h.stream o.smp o.stamp with
    | some r =>
      if bit r.flags Sf.missing || bit r.flags Sf.creditGap then (capMissing, false)
      else (num (r.vals.getD h.ch 0) (r.cq.getD h.ch 1), false)
    | none => (capMissing, false)
  | .tap => match s.capTap h.stream h.tap o.smp o.stamp with
    | some r => (num (r.vals.getD h.ch 0) (r.oq.getD h.ch 1), false)
    | none => (capMissing, false)
  | .conv => (BitVec.ofInt 32 (signed 16 (s.fld .ADC_RES 15 0 h.ch)), false)
  | .point | .bit =>
    let p := s.point h.handle
    if p.type = 2 ∨ p.type = 4 then (BitVec.ofNat 32 p.value, false)
    else if p.type = 1 then (BitVec.ofNat 32 (Config.captureOfB p.value), false)
    else (capMissing, true)

/-- Every KIND 1 and KIND 2 channel has its value. -/
def State.capReady (s : State) (g : CapCfg) (o : CapOpen) : Bool :=
  g.chans.all fun h => match h.kind with
    | .raw => (s.capRaw h.stream o.smp o.stamp).isSome
    | .tap => match s.topo h.stream with
      | some t => !t.instant h.tap o.smp || (s.capTap h.stream h.tap o.smp o.stamp).isSome
      | none => false
    | _ => true

/-- Digital channels packed 16 to a word, the first in bit 0. -/
def packDigital : List Bool → Nat → List W16
  | _, 0 => []
  | l, f + 1 =>
    if l.isEmpty then []
    else
      let w := ((l.take 16).zipIdx.map fun (e : Bool × Nat) => b2n e.1 * 2 ^ e.2).foldl (· + ·) 0
      BitVec.ofNat 16 w :: packDigital (l.drop 16) f

/-- The row of an open entry, and how many MISSING it counts. -/
def State.capRow (s : State) (g : CapCfg) (o : CapOpen) : CapRow × Nat :=
  let an := (g.chans.take g.na).map fun h => s.capValue o h
  let bits_ := ((g.chans.drop g.na).take g.nd).map fun h =>
    match h.kind with
    | .bit => bit (s.point h.handle).value h.bit
    | _ => false
  ({ stamp := o.stamp, analog := an.map (·.1), digital := packDigital bits_ 4 },
   (an.filter fun (v : W32 × Bool) => v.2).length)

/-- A closing row finds no room at boundary 13 (Table 17-5). -/
def State.capOverflow (s : State) (u : Nat) (g : CapCfg) : State :=
  let s := (s.countDrop Bnd.capture u).setFlag .DCR_STAT 2
  match (s.cap u).st with
  | .arming | .armed => s.setCap u ({ s.cap u with st := .arming, preCount := 0, rows := [] }.inc 3)
  | .recording => ((s.capComplete u fun r => { r with overflow := true }).capHold u g).fire 44 u
  | .idle | .holdoff => s

/-- A row is stored (Table 17-5). In RECORDING a row before the fire stamp, while the trigger row is awaited, is one of
the PRE rows before it (R378). -/
def State.capStore (s : State) (u : Nat) (g : CapCfg) (r : CapRow) : State :=
  let c := s.cap u
  let held (o : Option CapUnit) : Option CapUnit := o.map fun x => { x with rows := (r :: x.rows).take (g.pre + 16) }
  let s := { s with now := { s.now with capArmed := Tbl.upd none s.now.capArmed u held } }
  match c.st with
  | .arming =>
    let n := c.preCount + 1
    let s := s.setCap u
      { c with rows := (r :: c.rows).take (g.pre + 16), preCount := n, st := if g.pre ≤ n then .armed else .arming }
    applyIf (decide (g.pre ≤ n)) (·.capLateArm u g) s
  | .armed => s.setCap u { c with rows := (r :: c.rows).take (g.pre + 16) }
  | .recording =>
    if c.awaiting && decide (r.stamp < c.cur.fireStamp) then s.setCap u { c with rows := (r :: c.rows).take g.pre }
    else
    let s := s.setCap u { c with rows := r :: c.rows, remaining := c.remaining - 1, awaiting := false }
    if c.remaining ≤ 1 then (s.capComplete u id).capHold u g else s
  | .idle | .holdoff => s

/-- The oldest open row of a unit closes when its values are there or CLOSE has passed, and is stored with a credit of
boundary 13 (R375 to R377). -/
def execRowClose (u : Nat) (s : State) :=
  let c := s.cap u
  match c.cfg, c.opens with
  | some g, o :: rest =>
    if s.capReady g o || decide (o.close ≤ s.frc) then
      let s := s.setCap u { c with opens := rest }
      match c.st with
      | .idle | .holdoff => done s
      | .arming | .armed | .recording =>
        if s.avail Bnd.capture u = 0 then done (s.capOverflow u g)
        else
          let (r, miss) := s.capRow g o
          let s := s.takeCredit Bnd.capture u
          let s := s.setCap u { s.cap u with cnt := Tbl.upd 0 (s.cap u).cnt 5 fun v => satAdd 32 v miss }
          done ((s.capExpired g o).capStore u g r)
    else done s
  | _, _ => done s

/-! Capture commands -/

def State.capSel (s : State) : Nat := s.fld .DCR_USEL 3 0

def execDcrArm (s : State) := done (s.capArm s.capSel)
def execDcrDisarm (s : State) := done (s.capDisarm s.capSel)

/-- DCR_CMD FIRE: the group of the selected unit, at the device time of the write (R378, R379). -/
def execDcrFire (s : State) :=
  match (s.cap s.capSel).cfg with
  | some g => if s.domOn 15 then done (s.capFireSend g.group s.dt 0xFF) else done s
  | none => done s

/-- DCR_CMD FREE: the oldest complete record of the selected unit (R380). -/
def execDcrFree (s : State) :=
  let c := s.cap s.capSel
  done (s.setCap s.capSel { c with records := c.records.drop 1 })

/-- The hold-off of a unit ends: it rearms, or goes IDLE (Table 17-5). -/
def execHoldoffEnd (u : Nat) (s : State) :=
  let c := s.cap u
  match c.cfg, c.st with
  | some g, .holdoff =>
    if (if g.countMode then c.holdEnd = 0 else c.holdEnd ≤ s.frc) then
      let idle : CapUnit := { c with st := .idle, slot := none }
      if g.rearm then done (s.setCap u idle.arm.1) else done (s.setCap u idle)
    else done s
  | _, _ => done s

/-- DCR_UCNT(k) of the selected unit. -/
def State.ucntRead (s : State) (q : Requester) (k : Nat) : State :=
  let u := s.capSel
  let n := Tbl.get 0 (s.cap u).cnt k
  let fresh := n - Tbl.get 0 (Tbl.get {} s.now.caps u).cnt k
  let s := (s.answer q (n - fresh)).setCap u { s.cap u with cnt := Tbl.put 0 (s.cap u).cnt k fresh }
  { s with now := { s.now with caps := Tbl.upd {} s.now.caps u fun c => { c with cnt := Tbl.del c.cnt k } } }
def execDcrUcntRead (q : Requester) (k : Nat) (s : State) := done (s.ucntRead q k)

/-- The bytes of a complete record: header (Table 17-6) as the unit was configured, then its rows as COMTRADE binary32 data
(R375, R380). -/
def CapRecord.bytes (g : CapCfg) (r : CapRecord) : List Byte :=
  let rowLen := 8 + 4 * g.na + 2 * ((g.nd + 15) / 16)
  let flags := b2n r.overflow + 2 * b2n r.ended + 4 * b2n r.partner + 8 * b2n r.lateFire + 16 * b2n g.ts100ns
  let first := match r.rows with | x :: _ => x.stamp | [] => 0
  let unit := if g.ts100ns then 25600 else 256000
  let chan (e : CapChan × Int) : List Byte := leBytes 4 e.1.src ++ leBytes 4 e.1.handle ++ leBytes 8 (unsigned 64 e.2)
  let head := [0x56, 0x43, 0x41, 0x50] ++ leBytes 2 1 ++ leBytes 1 g.unit ++ leBytes 1 flags ++ leBytes 1 g.na ++
    leBytes 1 g.nd ++ leBytes 1 g.rate ++ leBytes 1 r.fireUnit ++ leBytes 4 r.rows.length ++ leBytes 4 r.trigRow ++
    leBytes 4 rowLen ++ leBytes 4 (r.rows.length * rowLen) ++ leBytes 4 r.seq ++ leBytes 9 r.fireStamp ++ leBytes 9 first ++
    List.replicate 78 0 ++ ((g.chans.zip r.skews).flatMap chan ++ List.replicate 1024 0).take 1024 ++ List.replicate 896 0
  let row (e : CapRow × Nat) : List Byte :=
    leBytes 4 (e.2 + 1) ++ leBytes 4 ((stampDiff e.1.stamp first).toNat / unit) ++
      (e.1.analog.flatMap fun (v : W32) => leBytes 4 v.toNat) ++ (e.1.digital.flatMap fun (v : W16) => leBytes 2 v.toNat)
  head ++ r.rows.zipIdx.flatMap row

/-- CAP_READ: the oldest complete record of a unit of the tenant, from a byte offset on (R343, R380). -/
def execCapRead (w q : Nat) (s : State) := done (s.qpServe w q (· = 4) fun s f =>
  let d := f.desc
  let c := s.cap d.arg0
  match c.cfg with
  | some g =>
    if g.owner ≠ w ∨ 16 ≤ d.arg0 then some (s, 5, 0)
    else match c.records with
      | r :: _ =>
        let data := ((r.bytes (r.cfg.getD g)).drop d.arg1).take d.len
        some (s.toHost w q d.addr data, moveStatus false (data.length < d.len), data.length)
      | [] => some (s, 11, 0)
  | none => some (s, 5, 0))

/-! Almond -/

/-- LTL_INC: counters 32 to 255 (R382). -/
def execLtlInc (c add : Nat) (s : State) :=
  if c % 256 < 32 then done (s.setFlag .LTL_STAT 0) else done (s.almondAdd (almondCounter (c % 256)) (add % 2 ^ 16))

/-- LTL_HADD: histograms 4 to 31. -/
def execLtlHadd (h b add : Nat) (s : State) :=
  if h % 32 < 4 then done (s.setFlag .LTL_STAT 0)
  else done (s.almondAdd (almondBin (h % 32) (b % 64)) (add % 2 ^ 16))

/-- A bin number brought into 0 to 63. -/
def binOf (x : Int) : Nat := if x < 0 then 0 else min 63 x.toNat

/-- Load of a tenant in 1/64 of its budget. -/
def State.loadBin (s : State) (t : Nat) : Nat := let b := s.budget t; if b = 0 then 0 else (s.elaT t).last * 64 / b

/-- Period and weight of a hardware histogram, and the bin of the present quantity (Table 17-9). -/
def State.histBin (s : State) (h : Nat) : Nat × Nat × Nat :=
  match h with
  | 0 => (10 * sec, 10, binOf ((s.sge.temp + 400) / 25))
  | 1 => (10 * sec, 10, binOf (((s.vinMv : Int) - 2800) / 25))
  | 2 => (sec, 1, min 63 ((s.ela.map fun e => s.loadBin e.1).foldl max 0))
  | _ => (10 * sec, 10, min 63 (s.pinTenMw / 125))

/-- A hardware histogram is sampled at its period. -/
def execHistogramSample (h : Nat) (s : State) :=
  let (period, weight, bin) := s.histBin h
  if h < 4 ∧ s.pwr.main ∧ Tbl.get 0 s.ltl.sampleAt h + period ≤ s.frc then
    let s := { s with ltl := { s.ltl with sampleAt := Tbl.put 0 s.ltl.sampleAt h s.frc } }
    done (s.almondAdd (almondBin h bin) weight)
  else done s

/-- Each second with main power; HOT_SECONDS while the junction is above 100 °C. -/
def execOnSecondsTick (s : State) :=
  if s.pwr.main && decide (s.ltl.secAt + sec ≤ s.frc) then
    let s := { s with ltl := { s.ltl with secAt := s.frc } }
    let s := s.almond 4
    if 1000 < s.sge.temp then done (s.almond 5) else done s
  else done s

/-- Pending changes reach MRAM (R383). -/
def State.almondFlush (s : State) : State := { s with ltl := { s.ltl with mram := s.ltl.cur } }

def execAlmondFlush (s : State) := if s.pwr.main then done s.almondFlush else done s

end Sys2Proof.Machine
end

