-- ==== Sys2Proof/Machine/Attest.lean ====
section
/-! DEFINITION. Lifecycle (R364) and attestation (R365, R366). -/
namespace Sys2Proof.Machine

/-- The root that signs a transition, as Table 16-8 names it: none where the transition does not exist. -/
def State.lcSigner (s : State) (src dst : Nat) : Option (Option Digest) :=
  let test := some Config.jenfortTestRoot
  let owner := s.att.ownerRoot
  match src, dst with
  | 0, 1 => some test
  | 1, 2 => some owner
  | 0, 3 => some test
  | 1, 3 => some owner
  | 2, 3 => some owner
  | 0, 4 => some test
  | 1, 4 => some owner
  | 2, 4 => some owner
  | 3, 4 => some test
  | _, _ => none

/-- The signature verifies over bytes 0x00 to 0x6F (R364). -/
def LcToken.sigOk (k : LcToken) : Bool := k.sig.covers k.bytes 0x70

/-- The token names this device, by the bytes of ATT_DEVID. -/
def LcToken.forDevice (k : LcToken) : Bool := decide (k.deviceId = digestBytes Config.deviceId)

/-- The checks of a token: 0 passes (ATT_LCSTAT.RESULT). DESIGN CHOICE: their order where several fail. -/
def State.lcCheck (s : State) (k : LcToken) : Nat :=
  if !k.formatOk then 1
  else match s.lcSigner k.src k.dst with
    | none => if !k.sigOk then 3 else if !k.forDevice then 4 else 5
    | some root =>
      if k.sig.root.isNone ∨ k.sig.root ≠ root then 2
      else if !k.sigOk then 3
      else if !k.forDevice then 4
      else if k.src ≠ s.fld .ATT_LC 2 0 then 5
      else 0

/-- A token is applied: the fuse is burnt, and the erasure begins where the transition has one. -/
def State.lcApply (s : State) (k : LcToken) : State :=
  let r := s.lcCheck k
  if r ≠ 0 then s.setRg .ATT_LCSTAT r
  else
    let s := ((s.setFld .ATT_LC 2 0 k.dst).fire 37 k.dst).almond 15
    let s := if k.dst = 1 then { s with att := { s.att with ownerRoot := some k.ownerRoot } } else s
    if k.dst = 2 then s.setRg .ATT_LCSTAT 0
    else ({ s with att := { s.att with erase := some (k.src, k.dst) } }.setFlag .ATT_LC 8).setRg .ATT_LCSTAT (2 ^ 31)

/-- ATT_LCCMD APPLY of the token at ATT_LCADDR; it waits for a Hazel command to end (Table 16-10). Without a token there
the format check fails. -/
def execApply (token : Option LcToken) (s : State) :=
  if s.att.erase.isSome || s.att.applyWaits.isSome then done s
  else match token with
    | none => done (s.setRg .ATT_LCSTAT 1)
    | some k =>
      if s.kvs.run.isSome then
        done ({ s with att := { s.att with applyWaits := some k } }.setRg .ATT_LCSTAT (2 ^ 31))
      else done (s.lcApply k)

/-- KEY_COMMAND_DONE; a waiting token is applied then. -/
def execKeyCommandDone (s : State) :=
  let s := s.keyCommandDone
  match s.att.applyWaits, s.kvs.run with
  | some k, none => done ({ s with att := { s.att with applyWaits := none } }.lcApply k)
  | _, _ => done s

/-- Tenant data in MRAM: retained variables and forces (Table 16-8). -/
def SchTen.erased (c : SchTen) : SchTen := { c with keepA := [], keepB := [], curB := false, keptFor := none, forces := [] }

/-- The erasure of a transition (Table 16-8). -/
def State.lcErase (s : State) (dst : Nat) : State :=
  let s := { s.eraseSlots with jrnl := {} }
  let s := { s with sch := { s.sch with ten := (s.sch.ten.map fun (e : Nat × SchTen) => (e.1, e.2.erased)).filter fun (e : Nat × SchTen) => decide (e.2 ≠ ({} : SchTen)) } }
  let s := if dst = 1 ∨ dst = 4 then s.memClear (evrRecord 0) (evrRecord 0 + 0x200000) else s
  let s := if dst = 4 then { s with att := { s.att with idCert := false } } else s
  let s := { s with kvs := { s.kvs with vault := .none } }
  if dst = 1 ∧ s.kvs.identity ∧ !s.tamperActive then s.vaultFinish else s

/-- The erasure in progress completes and ERASE_PEND clears. -/
def State.lcErased (s : State) : State :=
  match s.att.erase with
  | some (_, dst) =>
    let s := s.lcErase dst
    ({ s with att := { s.att with erase := none } }.clrFlag .ATT_LC 8).setRg .ATT_LCSTAT 0
  | none => s

def execErasureDone (s : State) := if s.pwr.main then done s.lcErased else done s

/-! Attestation -/

/-- A request joins the queue, which holds four. -/
def State.attQueue (s : State) (r : AttReq) : State := { s with att := { s.att with queue := s.att.queue ++ [r] } }
def State.attFull (s : State) : Bool := decide (4 ≤ s.att.queue.length)

/-- ATT_CMD REQUEST, with ATT_NONCE and ATT_ADDR. -/
def execRequest (s : State) :=
  let nonce := (List.range 8).flatMap fun w => leBytes 4 (s.rg .ATT_NONCE w)
  if s.attFull then done { s with att := { s.att with result := 1 } }
  else done (s.attQueue { nonce := nonce, addr := s.rg .ATT_ADDR / 64 * 64 })

/-- The ATTEST message of a link mailbox: nonce and statement address. -/
def execAttest (link : Nat) (s : State) := done (s.mbxServe (linkWindow link) 0x44 40 40 fun s b =>
  if s.attFull then mbxOnly 7
  else { status := 1, next := fun s => s.attQueue { nonce := b.take 32, addr := fieldAt b 32 8, link := some link } })

/-- Slot 3 signs while it is usable. -/
def State.akUsable (s : State) : Bool :=
  let k := s.slot 3
  decide ((k.st = .active ∨ k.st = .orphan) ∧ s.kvs.vault = .ready)

/-- The statement at a capture instant (Table 16-9). The length of the certificates is not given: `v` sets it, within the
480 KiB of a statement. -/
def State.statement (s : State) (nonce : List Byte) (v : Nat) : Statement :=
  let tens := s.ten.filterMap fun e => e.2.cfg.map fun c =>
    { tenant := e.1, classC := c.classC, svc := svcCode e.2.svc, seq := e.2.seq, elem := s.elemDigest e.1,
      sch := s.schDigest e.1 : StmtTenant }
  let chainOfs := 0x140 + 112 * tens.length
  let least := (chainOfs + 63) / 64
  { akAbsent := !s.akUsable, tampered := s.kvs.tampered, vaultNone := decide (s.kvs.vault = .none), trial := s.boot.trial,
    fallback := s.boot.fallback, jrnlTrunc := s.boot.jrnlTrunc, lifecycle := s.fld .ATT_LC 2 0,
    sync := syncCode s.tb.sync, bank := s.boot.bank, nonce := nonce, time := s.dt,
    amdCount := (s.jrnl.entries.filter fun e => e.complete).length, imgVer := s.boot.imgVer, firmware := s.boot.firmware,
    image := s.boot.imageDigest, run := s.boot.runDigest, device := Config.deviceId, tenants := tens,
    signer := if s.akUsable then 3 else 2
    chain := (if s.akUsable then [.attestation] else []) ++ (if s.att.idCert then [.identity] else [])
    chainOfs := chainOfs, sigOfs := 64 * (least + v % (7679 - least)) }

/-- The 112 bytes of a tenant entry (Table 16-9). -/
def StmtTenant.bytes (x : StmtTenant) : List Byte :=
  leBytes 2 x.tenant ++ leBytes 1 (b2n x.classC + 2 * x.svc) ++ leBytes 1 0 ++ leBytes 4 x.seq ++ digestBytes x.elem ++
    digestBytes x.sch ++ List.replicate 8 0

/-- The bytes of a statement before its chain (Table 16-9). -/
def Statement.head (x : Statement) : List Byte :=
  let flags := b2n x.akAbsent + 2 * b2n x.tampered + 4 * b2n x.vaultNone + 8 * b2n x.trial + 16 * b2n x.fallback +
    32 * b2n x.jrnlTrunc
  [0x56, 0x41, 0x54, 0x54] ++ leBytes 2 1 ++ leBytes 2 flags ++ leBytes 1 x.lifecycle ++ leBytes 1 x.sync ++ leBytes 1 x.bank ++
    leBytes 1 0 ++ leBytes 4 x.tenants.length ++ x.nonce ++ leBytes 9 x.time ++ List.replicate 3 0 ++ leBytes 4 x.amdCount ++
    leBytes 8 x.imgVer ++ List.replicate 8 0 ++ digestBytes x.firmware ++ digestBytes x.image ++ digestBytes x.run ++
    digestBytes x.device ++ leBytes 4 0x140 ++ leBytes 4 x.chainOfs ++ leBytes 4 x.sigOfs ++ List.replicate 36 0 ++
    x.tenants.flatMap StmtTenant.bytes

/-- The whole length of a statement: its signature is 96 bytes. -/
def Statement.len (x : Statement) : Nat := x.sigOfs + 96

/-- The oldest request is served once slot 2 is there; `ok` tells that the statement could be written. A statement that
could not be written to a link's host is a DMA error of its physical function (R326). -/
def execStatementBuild (ok : Bool) (s : State) :=
  match s.att.queue with
  | r :: rest =>
    if !s.kvs.identity || !s.pwr.main then done s
    else
      let (v, s) := s.freeNext
      let x := s.statement r.nonce v
      let len := if ok then x.len else 0
      let s := { s with att := { s.att with queue := rest, result := if ok then 0 else 2, len := len } }
      let s := if ok then s.emit (.statement r.link r.addr x.head x) else match r.link with
        | some l => (s.fire 42 (linkWindow l)).emit (.aer l 0)
        | none => s
      match r.link with
      | some l => done (s.mbxNotify (linkWindow l) 0x85 (words32 [len]))
      | none => done s
  | [] => done s

end Sys2Proof.Machine
end

