-- ==== Sys2Proof/Machine/Amend.lean ====
section
/-! DEFINITION. Amendment records: their checks, staging, commit, activation and journal (R48 to R55). -/
namespace Sys2Proof.Machine

/-! What a record says -/

/-- The sections of a record. -/
structure AmdSecs where
  ten : Option (Option TenantCfg) := none
  tiles : Option (Nat × List Nat × List TileEntry) := none
  streams : Option (List (Nat × StreamCfg) × List (Nat × Nat × Bool)) := none
  topos : Option (List (Nat × TopoCfg)) := none
  crd : Option (List Nat × Tbl Nat) := none
  thyme : Option (List ThyEntry) := none
  refs : Option (List ProgRef) := none
  keys : Option (List (Nat × KeyAttr)) := none
  goose : Option (List PubCfg × List SubCfg) := none
deriving DecidableEq, Repr

/-- Header fields of a record (Table 02-4). -/
def amdKind (b : Bytes) : Nat := bnum b 6 2
def amdTenant (b : Bytes) : Nat := bnum b 0x38 2
def amdZeros (b : Bytes) : Bool :=
  decide (amdKind b ≤ 1 ∧ amdTenant b ≤ 4095) && bzero b 0x3A 0x3C && bzero b 0x4C 0x80

/-- Sections that a kind may carry (R48). -/
def amdTypes (kind : Nat) : List Nat := if kind = 0 then [4, 5, 6, 7, 8, 0xD, 0xF, 0x10, 0x11] else [5, 8, 0xD]

/-- A present section, taken apart. -/
def secMay {α : Type} (x : Option (Bytes × Nat)) (f : Bytes → Nat → Option α) : Option (Option α) :=
  match x with
  | some e => (f e.1 e.2).map some
  | none => some none

/-- The one TENANTS entry of a record. -/
def tenantRec (links : Nat) (b : Bytes) (len : Nat) : Option (Option TenantCfg) :=
  if len = 512 then tenantEntry links b else none

/-- The sections of a record within their limits; coefficient words count from `shift` on. -/
def amdSecs (links : Nat) (b : Bytes) (area shift : Nat) : Option AmdSecs := do
  let heads := recordForm.dir b
  let sec (t : Nat) := secFind b heads t
  let ten ← secMay (sec 5) (tenantRec links)
  let tiles ← secMay (sec 4) tilesSection
  let streams ← secMay (sec 6) streamsRaw
  let topos ← secMay (sec 7) (fun b n => filtersRaw b n shift)
  let crd ← secMay (sec 8) creditsRaw
  let thyme ← secMay (sec 0xD) thymeSection
  let refs ← secMay (sec 0xF) (fun b n => programsSection b n area)
  let keys ← secMay (sec 0x10) keysSection
  let goose ← secMay (sec 0x11) gooseSection
  ensure (heads.all fun (h : SecHead) => decide (0x8000 ≤ h.type ∨ h.type ∈ amdTypes (amdKind b)))
    { ten := ten, tiles := tiles, streams := streams, topos := topos, crd := crd, thyme := thyme, refs := refs, keys := keys,
      goose := goose }

/-! The structure as amended -/

/-- Stream n is consumed, and by tenant t alone. -/
def Plan.aloneOf (p : Plan) (t n : Nat) : Bool :=
  let l := p.cons.filter fun (c : Nat × Nat × Bool) => decide (c.1 = n)
  !l.isEmpty && l.all fun (c : Nat × Nat × Bool) => decide (c.2.1 = t)

/-- Replaces entries of a table. -/
def overlay {α : Type} [DecidableEq α] (m : Tbl (Option α)) (l : List (Nat × α)) : Tbl (Option α) :=
  l.foldl (fun m (e : Nat × α) => Tbl.put none m e.1 (some e.2)) m

/-- Streams, consumers and topologies with the record's; a topology goes with its stream, and the record's own stay for the
checks of R157 and R159. -/
def Plan.withStreams (p : Plan) (t : Nat) (a : AmdSecs) : Plan :=
  let drop {α : Type} (m : Tbl (Option α)) : Tbl (Option α) := m.filter fun (e : Nat × Option α) => !p.aloneOf t e.1
  let streams := match a.streams with | some x => overlay (drop p.streams) x.1 | none => p.streams
  let cons := match a.streams with
    | some x => (p.cons.filter fun (c : Nat × Nat × Bool) => decide (c.2.1 ≠ t)) ++ x.2
    | none => p.cons
  let kept := p.topos.filter fun (e : Nat × Option TopoCfg) => (Tbl.get none streams e.1).isSome
  let topos := match a.topos with | some x => overlay (drop kept) x | none => kept
  { p with
    streams := numTable (withConsumers (enabledOf streams) cons), cons := cons, topos := topos
    present := if a.streams.isSome then 6 :: 7 :: p.present else p.present }

/-- The structure with a record's sections in place of what it holds for the tenant. -/
def Plan.amend (p : Plan) (t : Nat) (a : AmdSecs) : Plan :=
  let q := p.withStreams t a
  let others {α : Type} (f : α → Nat) (l : List α) : List α := l.filter fun x => decide (f x ≠ t)
  { q with
    tens := match a.ten with | some c => Tbl.put none q.tens t c | none => q.tens
    tiles := match a.tiles with | some x => x.2.2 | none => q.tiles
    budgets := match a.crd with | some x => x.1 | none => q.budgets
    shares := match a.crd with | some x => x.2 | none => q.shares
    thyme := a.thyme.getD q.thyme
    refs := match a.refs with | some l => others (fun (r : ProgRef) => r.tenant) q.refs ++ l | none => q.refs
    keys := match a.keys with
      | some l => overlay (q.keys.filter fun (e : Nat × Option KeyAttr) => match e.2 with
          | some k => decide (k.owner ≠ t)
          | none => false) l
      | none => q.keys
    pubs := match a.goose with | some x => others (fun (c : PubCfg) => c.tenant) q.pubs ++ x.1 | none => q.pubs
    subs := match a.goose with | some x => others (fun (c : SubCfg) => c.tenant) q.subs ++ x.2 | none => q.subs }

/-! Scope (R49) -/

/-- A kind 1 record changes nothing of the entry but rights and fail states (R48). DESIGN CHOICE: R48 names point-write
rights; a RANGE is taken as one right, so that its bounds and its READ bit may change with it. -/
def TenantCfg.sameBut (c d : TenantCfg) : Bool := decide ({ c with ranges := d.ranges, fails := d.fails } = d)

/-- TENANTS: the class stays; kind 1 changes rights and fail states only. -/
def Plan.tenScope (p : Plan) (t kind : Nat) (c : Option TenantCfg) : Bool :=
  match p.ten t, c with
  | some o, some n => decide (o.classC = n.classC) && (decide (kind = 0) || n.sameBut o)
  | none, none => true
  | _, _ => decide (kind = 0)

/-- TILES: only BUDGETs of the tenant's slot change. -/
def Plan.tileScope (p q : Plan) (t : Nat) (x : Nat × List Nat × List TileEntry) : Bool :=
  let mine (tile slot : Nat) : Bool :=
    [p.ten t, q.ten t].any fun c => match c with
      | some c => decide (c.tile = tile ∧ c.slot = slot)
      | none => false
  let same (k : Nat) : Bool :=
    let o := p.tile k
    let n := x.2.2.getD k {}
    decide (o.group = n.group ∧ o.wake = n.wake) && (List.range 32).all fun slot =>
      decide (o.budgets.getD slot 0 = n.budgets.getD slot 0) || mine k slot
  decide (x.1 = p.tileOn ∧ x.2.1 = p.groups) && (List.range 128).all same

/-- STREAMS and FILTERS: entries of streams that others consume stay, and consumer entries name the tenant. -/
def Plan.streamScope (p : Plan) (t : Nat) (a : AmdSecs) : Bool :=
  let stream (e : Nat × StreamCfg) : Bool := match p.stream e.1 with
    | some o => p.aloneOf t e.1 || decide ({ o with consumers := [] } = e.2)
    | none => true
  let topo (e : Nat × TopoCfg) : Bool := match p.topo e.1 with
    | some o => p.aloneOf t e.1 || decide ({ o with spans := [] } = { e.2 with spans := [] })
    | none => true
  (match a.streams with
   | some x => x.1.all stream && x.2.all fun c => decide (c.2.1 = t)
   | none => true) &&
  match a.topos with
  | some l => l.all topo
  | none => true

/-- CREDITS: budgets stay; shares change for the tenant and for streams that it owns alone. -/
def Plan.creditScope (p q : Plan) (t : Nat) : Bool :=
  let stream (n : Nat) : Bool := (p.aloneOf t n || (p.stream n).isNone) && (q.aloneOf t n || (q.stream n).isNone)
  let mine (k : Nat) : Bool :=
    let b := k / 4096
    let o := k % 4096
    if b = 4 ∨ b = 5 then stream o else decide (b ∈ tenantBnds ∧ o = t)
  decide (p.budgets = q.budgets) &&
    (p.shares ++ q.shares).all fun (e : Nat × Nat) => decide (Tbl.get 0 p.shares e.1 = Tbl.get 0 q.shares e.1) || mine e.1

/-- THYME: channels pass between unassigned and the tenant. -/
def Plan.thymeScope (p q : Plan) (t : Nat) : Bool :=
  let mine (e : ThyEntry) : Bool := decide (e.kind = 0 ∨ (e.kind = 2 ∧ e.owner = t))
  (p.thyme.zip q.thyme).all fun (x : ThyEntry × ThyEntry) => decide (x.1 = x.2) || (mine x.1 && mine x.2)

/-- The record keeps to its tenant (R49). -/
def Plan.scopeOk (p q : Plan) (t kind : Nat) (a : AmdSecs) : Bool :=
  let key (e : Nat × KeyAttr) : Bool := match Tbl.get none p.keys e.1 with
    | some o => decide (o = e.2 ∨ (o.owner = t ∧ e.2.owner = t))
    | none => decide (e.2.owner = t)
  (match a.ten with | some c => p.tenScope t kind c | none => true) &&
  (match a.tiles with | some x => p.tileScope q t x | none => true) && p.streamScope t a && p.creditScope q t &&
  p.thymeScope q t && (a.refs.getD []).all (fun r => decide (r.tenant = t)) && (a.keys.getD []).all key &&
  match a.goose with
  | some x => x.1.all (fun c => decide (c.tenant = t)) && x.2.all fun c => decide (c.tenant = t)
  | none => true

/-! Checks of a record -/

/-- Cross-section rules of the structure as amended, but for those that RESOURCE reports. A stream that feeds a loop may go:
its source is then never fresh (R291). -/
def Plan.amendCross (p : Plan) : Bool :=
  p.tenantsOk && p.streamsOk && p.domainsOk && p.thymeOk && p.captureOk && p.pairOk && p.loopsOwned && p.programsOk && p.keysOk &&
    p.gooseCross

/-- Slots, engine time, sample store and credits suffice (R49, code RESOURCE); `held` bytes of the sample store are still with
removed streams (R154). -/
def Plan.resourceOk (p : Plan) (held : Nat) : Bool :=
  p.slotsApart && p.ratesOk && p.storeFits held && (List.range 16).all p.engineOk && sharesFit p.budgets p.shares

/-- Sample-store bytes that removed streams still hold. -/
def State.storeHeld (s : State) : Nat := sum ((enabledOf s.flt.gone).map fun (e : Nat × StreamCfg × TopoCfg) => regionOf e.2.1 (some e.2.2))

/-- The programs that tenants have now. -/
def State.programsNow (s : State) : Programs :=
  s.ten.filterMap fun (e : Nat × Tenant) => e.2.cfg.map fun c => (e.1, c.elem, c.sch)

/-- The programs with those of a tenant removed, where the record names its references anew. -/
def Programs.without (l : Programs) (t : Nat) (gone : Bool) : Programs :=
  if gone then l.filter fun (e : Nat × Option ElaProg × Option SchProg) => decide (e.1 ≠ t) else l

/-- An amendment that passed its checks. -/
structure Amendment where
  tenant : Nat
  kind : Nat
  plan : Plan
  progs : Programs
  /-- The record names programs. -/
  newProgs : Bool
deriving DecidableEq, Repr

/-- Steps 1 to 8 on a record: its sections, or the code of the first failure. -/
def State.recordCheck (s : State) (r : AmdObj) : Except Nat AmdSecs :=
  let b := r.obj.bytes
  if !recordForm.formatOk b then .error 1
  else if !s.chainOk r.obj.sig then .error 4
  else if !recordForm.signedBy b r.obj.sig then .error 5
  else if !recordForm.crcOk b then .error 7
  else if !amdZeros b || !headsOk (recordForm.dir b) then .error 8
  else match amdSecs (if s.plan.split then 4 else 1) b r.area.length (2 ^ 20 * (s.boot.amdCount + 1)) with
    | some a => .ok a
    | none => .error 8

/-- The checks of STAGE (R52): steps 1 to 10 of Table 02-3, then BASE, SEQUENCE, SCOPE and RESOURCE of Table 02-5. -/
def State.amdCheck (s : State) (r : AmdObj) : Except Nat Amendment :=
  match s.recordCheck r with
  | .error c => .error c
  | .ok a =>
    let b := r.obj.bytes
    let t := amdTenant b
    let q := s.plan.amend t a
    if !((enabledOf q.topos).all q.topoOk && q.gooseOk) then .error 8
    else if !q.amendCross then .error 9
    else match s.stepTen q r.area (s.programsNow.without t a.refs.isSome) (a.refs.getD []) [t] with
      | .error c => .error c
      | .ok g =>
        if bbig b 8 48 ≠ s.boot.imageDigest then .error 0x10
        else if bnum b 0x3C 4 ≠ (s.tenant t).seq then .error 0x11
        else if !s.plan.scopeOk q t (amdKind b) a then .error 0x12
        else if !q.resourceOk s.storeHeld then .error 0x18
        else .ok { tenant := t, kind := amdKind b, plan := q, progs := g, newProgs := a.refs.isSome }

/-! Applying an amendment -/

/-- What restarts a stream when it changes: the topology, but not the place of its share or of its coefficients (Table 07-9). -/
def TopoCfg.shape (t : TopoCfg) : TopoCfg := { t with share := 0, offset := 0, spans := [] }

/-- The records of a ring under another depth: those that both depths hold. DESIGN CHOICE: the spec does not say what an
amendment of DEPTH leaves in the ring. -/
def Stream.deepen (x : Stream) (old new_ : Nat) : Stream :=
  let keep := min x.widx (min old new_)
  let idx := (List.range keep).map fun i => x.widx - keep + i
  { x with ring := idx.foldl (fun (m : Tbl (Option SampleRec)) i => Tbl.put none m (i % new_) (Tbl.get none x.ring (i % old))) [] }

/-- Positions of waiting descriptors follow their records. -/
def SampleDesc.deepen (d : SampleDesc) (widx old new_ : Nat) : SampleDesc :=
  { d with pos := (widx - 1 - (widx - 1 + old - d.pos) % old) % new_ }

/-- DEPTH of a stream changes. -/
def State.redepth (s : State) (n old new_ : Nat) : State :=
  if old = new_ then s
  else
    let x := s.stream n
    let s := { s with svx := { s.svx with descs := Tbl.upd [] s.svx.descs n fun l => l.map fun (d : SampleDesc) => d.deepen x.widx old new_ } }
    s.setStream n (x.deepen old new_)

/-- Stream n under the new structure (Tables 06-6, 06-8 and 07-9): added; removed, with what is outstanding served under its
last entries; or, with another topology, restarted by its next step. A capture unit that records a stream that goes ends its
record (R376). -/
def State.amendStream (old new_ : Plan) (s : State) (n : Nat) : State :=
  let gone := (old.stream n).isSome && (new_.stream n).isNone
  let uses (u : Nat) : Bool := match (s.cap u).cfg with
    | some g => g.chans.any fun (c : CapChan) => decide (c.stream = n ∧ (c.kind = .raw ∨ c.kind = .tap))
    | none => false
  if gone then
    let s := s.setStream n { s.stream n with st := .disabled, goodRun := 0, prev := none, expiry := none }
    let last := match old.stream n, old.topo n with | some c, some t => some (c, t) | _, _ => none
    let s := ({ s with flt := { s.flt with gone := Tbl.put none s.flt.gone n last } }).regionFree n
    (List.range 16).foldl (fun (s : State) u =>
      if uses u && decide ((s.cap u).st = .recording) then s.capDisarmUnit u else s) s
  else if (old.stream n).isNone && (new_.stream n).isSome then
    let s := { s with flt := { s.flt with gone := Tbl.del s.flt.gone n } }
    (s.setStream n { s.stream n with st := .acquire, goodRun := 0, prev := none }).setChain n { s.chain n with last := none }
  else
    let s := match old.stream n, new_.stream n with
      | some a, some b => s.redepth n a.ringDepth b.ringDepth
      | _, _ => s
    if (old.topo n).map TopoCfg.shape ≠ (new_.topo n).map TopoCfg.shape then s.setChain n { s.chain n with last := none } else s

/-- The lowest entry number that a list does not use. -/
def freshNo (l : List Nat) (from_ : Nat) : Nat :=
  (List.range (l.length + 1)).foldr (fun i acc => if (from_ + i) ∈ l then acc else from_ + i) (from_ + l.length)

/-- Publications of a tenant under new entries: an entry that stays keeps its number; a new CONFREV restarts stNum at 1 (R206,
R222). The counters of an entry number stay (R223). -/
def State.amendPubs (s : State) (t : Nat) (l : List PubCfg) : State :=
  let gone := (s.pubsOf t).filter fun i => match (s.pub i).cfg with
    | some c => !l.any fun (d : PubCfg) => decide (d.pubno = c.pubno)
    | none => false
  let s := gone.foldl (fun (s : State) i => s.setPub i { cnt := (s.pub i).cnt }) s
  l.foldl (fun (s : State) d =>
    match s.pubOf t d.pubno with
    | some i =>
      let p := s.pub i
      let same := match p.cfg with | some c => decide (c.confRev = d.confRev) | none => false
      s.setPub i (if same then { p with cfg := some d }
        else { p with cfg := some d, stNum := 0, cur := none, pending := none, sent := none, due := none })
    | none =>
      let i := freshNo ((s.goose.pubs.filter fun (e : Nat × Pub) => e.2.cfg.isSome).map fun e => e.1) 0
      s.setPub i { cfg := some d, cnt := (s.pub i).cnt }) s

/-- Pairs entries with new ones, one to one and in order: the pairs, the entries and the new ones left over. -/
def pairSubs (fits : SubCfg → SubCfg → Bool) :
    List (Nat × SubCfg) → List SubCfg → List (Nat × SubCfg) × List (Nat × SubCfg) × List SubCfg
  | [], l => ([], [], l)
  | e :: rest, l => match l.find? (fits e.2) with
    | some d => let r := pairSubs fits rest (l.erase d); ((e.1, d) :: r.1, r.2.1, r.2.2)
    | none => let r := pairSubs fits rest l; (r.1, e :: r.2.1, r.2.2)

/-- Subscriptions of a tenant under new entries: one that changes restarts in NONE (R222), an equal one goes on. DESIGN CHOICE:
an entry changed from another is the one of equal APPID, gocbRef and source address, else of equal APPID and gocbRef. The
counters of an entry number stay (R223). -/
def State.amendSubs (s : State) (t : Nat) (l : List SubCfg) : State :=
  let mine := s.goose.subs.filterMap fun (e : Nat × Sub) => match e.2.cfg with
    | some c => if c.tenant = t then some (e.1, c) else none
    | none => none
  let same := pairSubs (fun c d => decide (c = d)) mine l
  let near := pairSubs (fun c d => decide (c.appid = d.appid ∧ c.gocbRef = d.gocbRef ∧ c.sa = d.sa)) same.2.1 same.2.2
  let far := pairSubs (fun c d => decide (c.appid = d.appid ∧ c.gocbRef = d.gocbRef)) near.2.1 near.2.2
  let s := (near.1 ++ far.1).foldl (fun (s : State) e => s.setSub e.1 { cfg := some e.2, cnt := (s.sub e.1).cnt }) s
  let s := far.2.1.foldl (fun (s : State) e => s.setSub e.1 { cnt := (s.sub e.1).cnt }) s
  far.2.2.foldl (fun (s : State) d =>
    let i := freshNo ((s.goose.subs.filter fun (e : Nat × Sub) => e.2.cfg.isSome).map fun e => e.1) 0
    s.setSub i { cfg := some d, cnt := (s.sub i).cnt }) s

/-- Key slots that the structure no longer lists are erased (R352). -/
def State.amendKeys (s : State) (new_ : Plan) : State :=
  let gone := ((enabledOf s.kvs.attrs).map fun (e : Nat × KeyAttr) => e.1).filter fun n => (Tbl.get none new_.keys n).isNone
  let s := gone.foldl State.invalidateSlot s
  { s with kvs := { s.kvs with attrs := new_.keys } }

/-- The tenant's entry and programs. A scheme program that changes starts cold, and its change entry leaves the journal
(R265, R272). -/
def State.amendTenant (s : State) (a : Amendment) : State :=
  let t := a.tenant
  let g := a.progs.get t
  let s := s.putTenant t (a.plan.ten t) g
  if a.newProgs then
    let old := (s.schT t).prog
    let digest (p : Option SchProg) : Option Digest := p.map fun (x : SchProg) => x.digest
    let s := s.putScheme t a.plan g.2
    if digest old = digest g.2 then s
    else
      let s := s.setSch t { s.schT t with mustCold := true, noWarm := true }
      let keep (e : JrnlEntry) : Bool := match e.item with | .change u _ => decide (u ≠ t) | .amd _ => true
      { s with jrnl := { s.jrnl with entries := s.jrnl.entries.filter keep } }
  else s

/-- The change of an amendment takes effect. -/
def State.amendApply (s : State) (a : Amendment) : State :=
  let old := s.plan
  let p := a.plan
  let s := s.amendTenant a
  let s := { s with slots := p.slotTable, plan := p, svx := { s.svx with cfg := p.streams } }
  let s := { s with flt := { s.flt with topo := p.topos } }
  let s := (List.range 4096).foldl (State.amendStream old p) s
  let s := ((s.putShares p).putThyme p.thyme).amendKeys p
  let mine {α : Type} (f : α → Nat) (l : List α) : List α := l.filter fun x => decide (f x = a.tenant)
  if old.pubs = p.pubs ∧ old.subs = p.subs then s
  else (s.amendPubs a.tenant (mine (fun (c : PubCfg) => c.tenant) p.pubs)).amendSubs a.tenant
    (mine (fun (c : SubCfg) => c.tenant) p.subs)

/-- A commit counts: TEN_SEQ, running structure digest, Almond (R47, R53). -/
def State.amendCount (s : State) (t : Nat) (msg : Digest) : State :=
  let s := s.setTenant t { s.tenant t with seq := (s.tenant t).seq + 1 }
  let s := s.extendRun msg
  ({ s with boot := { s.boot with amdCount := s.boot.amdCount + 1 } }).almond 17

/-! Staging (R52) -/

def State.amdSlot (s : State) (k : Nat) : AmdSlot := Tbl.get {} s.amd k
def State.setAmd (s : State) (k : Nat) (x : AmdSlot) : State := { s with amd := Tbl.put {} s.amd k x }
def State.amdSel (s : State) : Nat := s.fld .SYS_AMDSEL 1 0

/-- AMD_RESULT to the mailbox that a request came from. -/
def State.amdNotify (s : State) (k : Nat) : State :=
  let x := s.amdSlot k
  match x.window with
  | some w => s.mbxNotify w 0x84 (words32 [k, x.result])
  | none => s

/-- A slot can take a record. -/
def AmdSlot.free (x : AmdSlot) : Bool := decide (x.st = .empty ∨ x.st = .done ∨ x.st = .failed)

/-- Checking of a record starts. -/
def State.amdStage (s : State) (k : Nat) (r : Option AmdObj) (w : Option Nat) : State :=
  let t := match r with | some x => amdTenant x.obj.bytes | none => 0
  s.setAmd k { st := .verifying, rec_ := r, tenant := t, window := w }

def execStage (r : Option AmdObj) (s : State) :=
  if (s.amdSlot s.amdSel).free then done (s.amdStage s.amdSel r none) else done s

/-- Another slot holds a staged or committing record of the tenant. -/
def State.amdBusy (s : State) (k t : Nat) : Bool :=
  (List.range 4).any fun j => decide (j ≠ k ∧ (s.amdSlot j).tenant = t ∧
    ((s.amdSlot j).st = .staged ∨ (s.amdSlot j).st = .committing))

/-- The checks of a slot end: STAGED or FAILED with the code. DESIGN CHOICE: a record that cannot be read fails with FORMAT (1);
the spec gives no code for it. -/
def execStageDone (k : Nat) (s : State) :=
  let x := s.amdSlot k
  if x.st ≠ .verifying ∨ !s.pwr.supRuns then done s
  else
    let code : Nat × Nat := match x.rec_ with
      | none => (1, 0)
      | some r => match s.amdCheck r with
        | .error c => (c, 0)
        | .ok a => (if s.amdBusy k a.tenant then 0x14 else 0, a.kind)
    done ((s.setAmd k { x with st := if code.1 = 0 then .staged else .failed, result := code.1, kind := code.2 }).amdNotify k)

/-- DISCARD of a slot that is not committing. -/
def State.amdDiscard (s : State) (k : Nat) : State × Bool :=
  if (s.amdSlot k).st = .committing then (s, false) else (s.setAmd k {}, true)
def execDiscard (s : State) := done (s.amdDiscard s.amdSel).1

/-! Commit (R50 to R55) -/

/-- What refuses a commit of a record: its code, or 0. DESIGN CHOICE: where several codes hold, JOURNAL_FULL comes before STATE,
NOACT and LATE; the spec gives no order. -/
def State.commitCode (s : State) (x : AmdSlot) (r : AmdObj) (act : Nat) : Nat :=
  let t := x.tenant
  let cnt := s.cycleOf t % 2 ^ 32
  let ahead := (act + 2 ^ 32 - cnt) % 2 ^ 32
  if !s.jrnlRoom (bnum r.obj.bytes recordForm.lenAt 4) then 0x16
  else if x.kind = 0 then (if (s.tenant t).svc = .in_ then 0x13 else 0)
  else if act = 0 then (if s.classH t then 0x17 else 0)
  else if ahead < 2 ∨ 2 ^ 31 ≤ ahead then 0x15 else 0

/-- COMMIT: the record enters the journal. A commit waits for a drain in progress (R53); a kind 0 commit resets its tenant. -/
def State.amdCommit (s : State) (k act : Nat) : State × Bool :=
  let x := s.amdSlot k
  match x.st, x.rec_ with
  | .staged, some r =>
    let code := s.commitCode x r act
    if !s.pwr.supRuns then (s, false)
    else if code ≠ 0 then ((s.setAmd k { x with result := code }).amdNotify k, false)
    else
      let e : JrnlEntry := { item := .amd r, bytes := bnum r.obj.bytes recordForm.lenAt 4 }
      let s := { s with jrnl := { s.jrnl with entries := s.jrnl.entries ++ [e] } }
      let waits := decide ((s.tenant x.tenant).svc = .drain)
      let s := s.setAmd k { x with st := .committing, act := act, waits := waits, result := 0 }
      if x.kind = 0 then
        let s := s.setTenant x.tenant { s.tenant x.tenant with commit := true, amended := true }
        (if waits then s else s.tenReset x.tenant, true)
      else (s, true)
  | _, _ => (s, false)

def execCommit (s : State) := done (s.amdCommit s.amdSel (Tbl.get 0 s.boot.amdAct s.amdSel)).1

/-- Marks the oldest incomplete entry of a record complete, or removes it. -/
def jrnlEnd (r : AmdObj) (complete : Bool) : List JrnlEntry → List JrnlEntry
  | [] => []
  | e :: rest =>
    if e.item = .amd r ∧ !e.complete then (if complete then { e with complete := true } :: rest else rest)
    else e :: jrnlEnd r complete rest

/-- A commit ends: DONE or FAILED, Walnut source 39, AMD_RESULT, and held host requests (R50). -/
def State.commitEnd (s : State) (k code : Nat) : State :=
  let x := s.amdSlot k
  let s := match x.rec_ with
    | some r => { s with jrnl := { s.jrnl with entries := jrnlEnd r (decide (code = 0)) s.jrnl.entries } }
    | none => s
  let s := s.setAmd k { x with st := if code = 0 then .done else .failed, result := code }
  let s := s.setTenant x.tenant { s.tenant x.tenant with commit := false }
  ((s.fire 39 (x.tenant + code * 2 ^ 16)).amdNotify k).heldApply x.tenant

/-- The commit completes (R55): a kind 0 record is applied, a kind 1 record waits for its slot window. Both are checked
again (R181). -/
def execCommitDone (k : Nat) (s : State) :=
  let x := s.amdSlot k
  match x.st, x.rec_ with
  | .committing, some r =>
    if x.waits ∨ !s.pwr.supRuns ∨ (x.kind = 0 ∧ (s.tenant x.tenant).svc ≠ Svc.out) then done s
    else match s.amdCheck r with
      | .error c => done (s.commitEnd k c)
      | .ok a =>
        let wait : AmdAct := { tenant := a.tenant, act := x.act, rec_ := r, at_ := s.frc }
        let s := if x.kind = 0 then s.amendApply a else { s with acts := s.acts ++ [wait] }
        done ((s.amendCount a.tenant (recordForm.digest r.obj.bytes)).commitEnd k 0)
  | _, _ => done s

/-- A slot window of the tenant, which began at FRC count `from_` or later, is starting: its WINDOW_OPEN is yet to come. -/
def State.windowStarts (s : State) (t from_ : Nat) : Bool :=
  match s.tenCfg t with
  | some c =>
    let g := s.groupOf t
    match (s.group g).start with
    | some p =>
      let o := p.frc + c.slot * s.groupWin g
      decide (from_ ≤ o ∧ o ≤ s.frc ∧ s.frc < o + s.groupWin g ∧ (s.elaT t).openedAt ≠ some p.frc)
    | none => false
  | none => false

/-- A kind 1 change takes effect, at the start of the tenant's next slot window after the commit or of the one in the cycle
that ACT_CYCLE names (R51). -/
def execAmdActivation (t : Nat) (s : State) :=
  match s.acts.find? fun (a : AmdAct) => decide (a.tenant = t) with
  | none => done s
  | some a =>
    if !s.windowStarts t a.at_ || decide (a.act ≠ 0 ∧ s.cycleOf t % 2 ^ 32 ≠ a.act) then done s
    else
      let s := { s with acts := s.acts.erase a }
      match s.recordCheck a.rec_ with
      | .error _ => done s
      | .ok x =>
        done (s.amendApply { tenant := t, kind := 1, plan := s.plan.amend t x, progs := s.programsNow, newProgs := false })

/-- Every engine has drained (R341): OUT; a kind 0 commit that waits resets the tenant, and held requests are applied. -/
def execTenantDrainComplete (t : Nat) (s : State) :=
  if (s.tenant t).svc ≠ .drain then done s
  else
    let s := s.drainEnd t
    match (List.range 4).find? fun k => (s.amdSlot k).waits && decide ((s.amdSlot k).tenant = t) with
    | some k =>
      let x := s.amdSlot k
      let s := s.setAmd k { x with waits := false }
      done (if x.kind = 0 then s.tenReset t else s.heldApply t)
    | none => done (s.heldApply t)

/-! Mailbox (R338) -/

/-- The tenant of a record or slot belongs to the link. -/
def State.linkHas (s : State) (link t : Nat) : Bool := match s.tenCfg t with | some c => decide (c.link = link) | none => false

/-- AMD_STAGE: the record that the named address holds. -/
def execAmdStage (link : Nat) (r : Option AmdObj) (s : State) := done (s.mbxServe (linkWindow link) 0x40 12 12 fun s _ =>
  match r with
  | none => { status := 9, next := fun s => (s.fire 42 (linkWindow link)).emit (.aer link 0) }
  | some x =>
    if !s.linkHas link (amdTenant x.obj.bytes) then mbxOnly 5
    else match (List.range 4).find? fun k => (s.amdSlot k).free with
      | none => mbxOnly 7
      | some k => { status := 1, next := fun s => s.amdStage k (some x) (some (linkWindow link)) })

/-- AMD_COMMIT: staging slot and ACT_CYCLE. -/
def execAmdCommit (link : Nat) (s : State) := done (s.mbxServe (linkWindow link) 0x41 8 8 fun s b =>
  let k := fieldAt b 0 4
  if 4 ≤ k ∨ (s.amdSlot k).st ≠ .staged then mbxOnly 6
  else if !s.linkHas link (s.amdSlot k).tenant then mbxOnly 5
  else { status := 1, next := fun s =>
    ((s.setAmd k { s.amdSlot k with window := some (linkWindow link) }).amdCommit k (fieldAt b 4 4)).1 })

/-- AMD_DISCARD: staging slot. -/
def execAmdDiscard (link : Nat) (s : State) := done (s.mbxServe (linkWindow link) 0x42 4 4 fun s b =>
  let k := fieldAt b 0 4
  if 4 ≤ k ∨ (s.amdSlot k).st = .committing then mbxOnly 6
  else if !s.linkHas link (s.amdSlot k).tenant then mbxOnly 5
  else { next := fun s => (s.amdDiscard k).1 })

/-! Journal replay (R54) -/

/-- One complete entry of the journal, checked again: the state with it applied, or none. -/
def State.replayEntry (s : State) (e : JrnlEntry) : Option State :=
  match e.item with
  | .amd r => match s.amdCheck r with
    | .ok a => some ((s.amendApply a).amendCount a.tenant (recordForm.digest r.obj.bytes))
    | .error _ => none
  | .change t g =>
    match (s.schT t).prog, s.tenCfg t with
    | some old, some c =>
      if s.chgSigned t g && decide (g.base = old.digest) && g.prog.limitOk && s.schCrossOk t g.prog then
        let s := s.setTenant t { s.tenant t with cfg := some { c with sch := some g.prog } }
        some ((s.putScheme t s.plan (some g.prog)).extendRun g.sig.msg)
      else none
    | _, _ => none

/-- Replays entries; the number of those applied, and whether all were. -/
def State.replayAll : List JrnlEntry → Nat → State → State × Nat × Bool
  | [], n, s => (s, n, true)
  | e :: rest, n, s =>
    match s.replayEntry e with
    | some s' => replayAll rest (n + 1) { s' with jrnl := s.jrnl }
    | none => (s, n, false)

/-- The journal is replayed: entries that were not complete are dropped; the first that fails ends the replay, and it and
all later ones are discarded. -/
def State.replay (s : State) : State :=
  let l := s.jrnl.entries.filter fun (e : JrnlEntry) => e.complete
  let (s, n, ok) := State.replayAll l 0 s
  let s := { s with jrnl := { s.jrnl with entries := l.take n } }
  if ok then s
  else ({ s with boot := { s.boot with jrnlTrunc := true } }.fire 38 n).almond 30

end Sys2Proof.Machine
end

