-- ==== Sys2Proof/Machine/Credits.lean ====
section
/-! DEFINITION. Credits returned by consumers and the credit counters (R17, R21 to R26). -/
namespace Sys2Proof.Machine

/-- Boundaries whose owner is a tenant, so that a return carries a generation (R25). -/
def tenantBnd (b : Nat) : Bool := decide (b ∈ [6, 7, 8, 9, 10, 11, 14, 15])

/-- A consumer returns a credit; one of an older generation is ignored (R25). At boundary 5 credits return with time only
(R22). A producer that waits at boundaries 9 or 10 goes on (R21); at boundary 15 a snapshot in transit asks for its next block. -/
def execCreditReturn (bnd owner gen : Nat) (s : State) :=
  if crdOwners bnd ≤ owner ∨ 15 < bnd ∨ bnd = 5 then done s
  else if tenantBnd bnd && decide ((s.tenant owner).gen ≠ gen) then done s
  else
    let s := s.giveCredit bnd owner
    if bnd = 9 ∨ bnd = 10 then done (s.schRelease owner)
    else if bnd = 15 then done (s.shipNext owner) else done s

/-- CLR_SEL: the drop counter of the selected owner; drops of the same FRC count are counted after it (R26). -/
def execQcrClrSel (s : State) :=
  match qcrSel s with
  | some (b, o) =>
    let k := crdKey b o
    done { s with crd := { s.crd with drops := Tbl.upd 0 s.crd.drops k fun v => v - Tbl.get 0 s.now.drops k },
                  now := { s.now with drops := Tbl.del s.now.drops k } }
  | none => done s

/-- CLR_BND: the drop counters of every owner at the selected boundary. -/
def execQcrClrBnd (s : State) :=
  let b := s.fld .QCR_SEL 19 16
  let kept (m : Tbl Nat) : Tbl Nat := m.filter fun (e : Nat × Nat) => decide (e.1 / 4096 ≠ b)
  let drops := Tbl.each 0 s.crd.drops fun k v => if k / 4096 = b then v - Tbl.get 0 s.now.drops k else v
  done { s with crd := { s.crd with drops := drops }, now := { s.now with drops := kept s.now.drops } }

end Sys2Proof.Machine
end

