-- ==== Sys2Proof/Machine/Electrical.lean ====
section
/-! DEFINITION. The SMBus slave, SMB_ALERT_N and the JTAG port (R424 to R427). -/
namespace Sys2Proof.Machine

/-- The registers of Table 20-8 up to code 0x0A. -/
def smbRegs : List Reg :=
  [.SYS_ID, .SYS_RSTCAUSE, .SYS_STARTSTAT, .PWR_STAT, .PWR_DSTAT, .PWR_VMON, .CLK_STAT, .TMB_SYNC, .PAR_STATE, .SGE_STAT,
   .ATT_LC]

/-- The 32 bits that a Block Read of a command code returns; a code that is not listed returns zero. -/
def State.smbWord (s : State) (code : Nat) : W32 :=
  if 16 ≤ code ∧ code < 32 then s.pwr.smbWords.getD (code - 16) 0
  else match smbRegs[code]? with
    | some r => BitVec.ofNat 32 (readReg s r 0 0)
    | none => 0

/-- Code 0x10 latches the whole local health report (R427). -/
def State.smbLatch (s : State) (code : Nat) : State :=
  if code = 16 then
    { s with pwr := { s.pwr with smbWords := (List.range 16).map fun w => BitVec.ofNat 32 (readReg s .SGE_LREP w 0) } }
  else s

/-- A Block Read: a byte count of 4 and the register's bytes; no acknowledgement before phase 1 ends. -/
def execSmbusBlockRead (code : Nat) (s : State) :=
  if bit s.pwr.phases 0 then
    let s := s.smbLatch code
    done { s with pwr := { s.pwr with smbData := 4 :: leBytes 4 (s.smbWord code).toNat } }
  else done s

/-- An Alert Response Address read: a device that holds SMB_ALERT_N low answers with its address, 0x58 and the
latched SMB_ADDR, and releases the line (R424, R426); `won` tells that no
device of a lower address overrode its answer. -/
def execSmbusAlertResponse (won : Bool) (s : State) :=
  if bit s.pwr.phases 0 && s.pwr.smbAlert && won then
    done { s with pwr := { s.pwr with smbAlert := false, smbData := [BitVec.ofNat 8 (0x58 + s.pwr.smbAddr)] } }
  else done s

/-- The instruction takes control of a pin. -/
def JtagIns.takesPins : JtagIns → Bool
  | .extest | .pins _ => true
  | .bypass | .sample | .idcode | .debug => false

/-- The word that TDO shifts out after the selection of an instruction: stepping and part under IDCODE. -/
def JtagIns.capture : JtagIns → Nat
  | .idcode => 0x18640000 + Config.jtagMaker % 0x1000
  | .bypass | .sample | .extest | .pins _ | .debug => 0

/-- An instruction is selected; one that takes pins selects BYPASS unless SYSRST_N is low, and one that opens the management
space does so outside TEST and RMA (R364). -/
def execJtagInstruction (ins : JtagIns) (s : State) :=
  let open_ := decide (s.fld .ATT_LC 2 0 = 0 ∨ s.fld .ATT_LC 2 0 = 3)
  let sel := if ins.takesPins && !s.pwr.sysrst then JtagIns.bypass
    else if decide (ins = JtagIns.debug) && !open_ then JtagIns.bypass else ins
  done { s with pwr := { s.pwr with jtag := sel, tdo := sel.capture } }

end Sys2Proof.Machine
end

