-- ==== Sys2Proof/Machine/Ptp.lean ====
section
/-! DEFINITION. PTP messages that ports hand to Thyme (R72 to R75, R134). -/
namespace Sys2Proof.Machine

/-- The next PTP frame that waits for Thyme, with the state without it. -/
def State.ptpFront (s : State) : Option (RxFrame × PtpMsg × State) :=
  match s.tb.ptpRx with
  | [] => none
  | rx :: rest =>
    match rx.frame.payload with
    | .ptp m => some (rx, m, { s with tb := { s.tb with ptpRx := rest } })
    | _ => none

/-- The next PTP frame carries no message of Table 03-3. -/
def State.ptpOther (s : State) : Bool :=
  match s.tb.ptpRx with
  | [] => false
  | rx :: _ => match rx.frame.payload with | .ptp _ => false | _ => true

/-- A PTP frame is classified and switched as an ordinary frame; on a station port in HSR mode the relay rule of R118
applies to it (R134). -/
def State.ptpForward (s : State) (rx : RxFrame) : State :=
  let r := s.role rx.port
  if s.hsr && decide (r = Role.stA ∨ r = Role.stB) then s.hsrHandle rx true State.classifyPort
  else s.classifyPort rx none false false

/-- Servo capture of a one-step Sync (R75). -/
def State.servoCapture (s : State) (rx : RxFrame) (m : PtpMsg) : State :=
  if s.flag .TMB_SRVCFG 3 && decide (s.fld .TMB_SRVCFG 2 0 = rx.port) && decide (s.fld .TMB_PTPCFG 23 16 = m.domain) then
    let t : Int := (m.origin : Int) * 256 + m.corr / 256 + s.rg .TMB_PDLY rx.port
    let s := s.setRg .TMB_SRVOFS (unsigned 64 ((rx.stamp : Int) - t))
    let s := (s.setFld .TMB_SRVCFG 31 16 m.seq).setFlag .TMB_STAT 8
    let s := applyIf s.tb.srvUnread (·.setFlag .TMB_STAT 9) s
    { s with tb := { s.tb with srvUnread := true } }
  else s

/-- A one-step Sync (Table 03-3). -/
def execSyncRx (s : State) :=
  match s.ptpFront with
  | some (rx, m, s') =>
    if m.type = PtpType.sync ∧ m.twoStep = false then done ((s'.servoCapture rx m).ptpForward rx) else done s
  | none => done s

/-- A PTP event message that Thyme builds for one port, in class 7 from input 13 (R121, R122). -/
def State.thymeSend (s : State) (port : Nat) (m : PtpMsg) (ingress : Stamp) : State :=
  let f : Frame := { da := 0x0180C200000E, sa := Config.portAddress port, etherType := 0x88F7, payload := .ptp m, len := 72 }
  s.originate 13 .thyme f 7 { ports := [port] } false (fun _ s => (s, 0)) ingress port

/-- A Pdelay_Req is answered by the hardware responder (R74). -/
def execPdelayReq (s : State) :=
  match s.ptpFront with
  | some (rx, m, s') =>
    if m.type = PtpType.pdelayReq then
      done (s'.thymeSend rx.port { m with type := .pdelayResp, twoStep := false, origin := 0 } rx.stamp)
    else done s
  | none => done s

/-- A Pdelay_Resp is matched to the port's own request (R74). -/
def execPdelayResp (s : State) :=
  match s.ptpFront with
  | some (rx, m, s') =>
    if m.type = PtpType.pdelayResp then
      match Tbl.get none s'.tb.pdOut rx.port with
      | some o =>
        match o.t1 with
        | some t1 =>
          if o.seq = m.seq then
            -- DESIGN CHOICE: the correction is floored to 1/256 ns and the half of the difference to 1/256 ns
            let raw := (stampDiff rx.stamp t1 - m.corr / 256) / 2
            let s' := { s' with tb := { s'.tb with pdOut := Tbl.del s'.tb.pdOut rx.port } }
            done ((s'.setFld .TMB_PDRAW 23 0 (unsigned 24 raw) rx.port).setFlag .TMB_PDRAW 31 rx.port)
          else done s'
        | none => done s'
      | none => done s'
    else done s
  | none => done s

/-- Messages that the hardware does not support (Table 03-3). DESIGN CHOICE: a PTP frame whose message is of no type of
the table is counted in TMB_PTPUNS and discarded. -/
def execPtpUnsupported (s : State) :=
  if s.ptpOther then done ({ s with tb := { s.tb with ptpRx := s.tb.ptpRx.tail } }.incRg .TMB_PTPUNS)
  else match s.ptpFront with
  | some (rx, m, s') =>
    match m.type with
    | .sync => if m.twoStep then done ((s'.incRg .TMB_PTPUNS).ptpForward rx) else done s
    | .followUp => done (s'.ptpForward rx)
    | .delayReq | .delayResp => done ((s'.incRg .TMB_PTPUNS).ptpForward rx)
    | .pdelayRespFollowUp => done (s'.incRg .TMB_PTPUNS)
    | _ => done s
  | none => done s

/-- Announce, Signaling and Management (Table 03-3). -/
def execPtpGeneral (s : State) :=
  match s.ptpFront with
  | some (rx, m, s') =>
    match m.type with
    | .announce | .signaling | .management => done ((s'.emit (.supervisor rx.frame rx.stamp)).ptpForward rx)
    | _ => done s
  | none => done s

/-- 2^PD_LOG seconds in ns (TMB_PTPCFG.PD_LOG, two's complement). -/
def State.pdPeriod (s : State) : Nat :=
  match signed 3 (s.fld .TMB_PTPCFG 27 25) with
  | .ofNat k => 2 ^ k * sec
  | .negSucc k => sec / 2 ^ (k + 1)

/-- A port's own peer-delay interval (R74), never on a PARTNER port (R96): a request without a response is missed, and the next request leaves. -/
def execPdelayInterval (n : Nat) (s : State) :=
  if s.flag .TMB_PTPCFG 24 && bit (s.fld .TMB_PTPCFG 7 0) n && (s.prt n).up && decide (s.role n ≠ Role.partner) &&
      decide (Tbl.get 0 s.tb.pdNext n ≤ s.frc) then
    let s := match Tbl.get none s.tb.pdOut n with
      | some _ => (s.clrFlag .TMB_PDRAW 31 n).setFld .TMB_PDRAW 30 24 (satInc 7 (s.fld .TMB_PDRAW 30 24 n)) n
      | none => s
    let q := (Tbl.get 0 s.tb.pdSeq n + 1) % 65536
    let s := { s with tb := { s.tb with
      pdOut := Tbl.put none s.tb.pdOut n (some { seq := q }),
      pdSeq := Tbl.put 0 s.tb.pdSeq n q,
      pdNext := Tbl.put 0 s.tb.pdNext n (s.frc + s.pdPeriod) } }
    done (s.thymeSend n { type := .pdelayReq, domain := s.fld .TMB_PTPCFG 23 16, seq := q } 0)
  else done s

end Sys2Proof.Machine
end

