-- ==== Sys2Proof/Machine/Adc.lean ====
section
/-! DEFINITION. The local analogue converters (R294 to R304). -/
namespace Sys2Proof.Machine

def State.setConv (s : State) (k : Nat) (c : Adc) : State :=
  { s with adc := { s.adc with conv := Tbl.put {} s.adc.conv k c } }

/-- Converter k works: it exists, is enabled, and domain 14 is on (R302, R389). -/
def State.convOn (s : State) (k : Nat) : Bool := decide (k < 2) && s.flag .ADC_CFG 31 k && s.domOn 14

/-- The reference is settled at an FRC count: 2 ms after its enable (R298). -/
def State.refSettledAt (s : State) (frc : Nat) : Bool :=
  match s.adc.refFrom with | some f => decide (f + 2 * ms ≤ frc) | none => false

/-- Adds 1 to a saturating field of ADC_EV. -/
def State.adcCount (s : State) (k hi lo : Nat) : State := s.setFld .ADC_EV hi lo (satInc (hi + 1 - lo) (s.fld .ADC_EV hi lo k)) k

/-! Starting work -/

/-- Local inputs of SCANMASK in ascending order; slots of ADC_INJ in order. -/
def State.scanList (s : State) (k : Nat) : List Nat := (List.range 8).filter fun j => bit (s.fld .ADC_CFG 23 16 k) j
def State.injList (s : State) (k : Nat) : List Nat :=
  ((List.range 4).map fun i => s.fld .ADC_INJ (4 * i + 2) (4 * i) k).take (s.fld .ADC_INJ 17 16 k + 1)

/-- Starts an injection, a scan, a calibration at the present FRC count. -/
def State.startInj (s : State) (k : Nat) (c : Adc) : Adc :=
  match s.injList k with
  | [] => c
  | i :: rest => { c with act := .inj, cur := i, inj := rest, from_ := s.frc, injPend := false }
def State.startScan (s : State) (k : Nat) (c : Adc) : Adc :=
  match s.scanList k with
  | [] => { c with act := .idle, scanPend := false }
  | i :: rest => { c with act := .scan, cur := i, scan := rest, scanOn := true, stopped := false, from_ := s.frc, scanPend := false }
def State.startCal (s : State) (c : Adc) : Adc := { c with act := .cal, from_ := s.frc, calPend := false }

/-- The next work (R297): injection, calibration, the aborted conversion, the rest of the scan, a pending scan. -/
def State.convNext (s : State) (k : Nat) (c : Adc) : Adc :=
  if c.injPend then s.startInj k c
  else if c.calPend then s.startCal c
  else match c.restart, c.scan with
    | some i, _ => { c with act := .scan, cur := i, restart := none, from_ := s.frc }
    | none, i :: rest => { c with act := .scan, cur := i, scan := rest, from_ := s.frc }
    | none, [] => if c.scanPend then s.startScan k c else { c with act := .idle }

/-! Requests (Table 13-1) -/

def State.reqScan (s : State) (k : Nat) : State :=
  let c := s.conv k
  let refused (s : State) : State := (s.adcCount k 15 8).setFlag .ADC_KSTAT 5 k
  if !s.convOn k then s
  else match c.act with
    | .idle => s.setConv k (s.startScan k c)
    | .scan => refused s
    | .inj | .cal => if c.scanPend then refused s else s.setConv k { c with scanPend := true }

/-- An injection request. With the end of a scan conversion in one cycle that conversion completes and the injection starts without
an abort, whichever is served first; an injection and a calibration requested in one cycle run in this order (R303). -/
def State.reqInj (s : State) (k : Nat) : State :=
  let c := s.conv k
  let refused (s : State) : State := (s.adcCount k 7 0).setFlag .ADC_KSTAT 6 k
  if !s.convOn k then s
  else match c.act with
    | .idle => s.setConv k (s.startInj k c)
    | .scan =>
      if c.from_ + 1000 ≤ s.frc then (if c.injPend then refused s else s.setConv k { c with injPend := true })
      else
        let s' := if c.doneAt = some s.frc ∧ c.from_ = s.frc then s else (s.adcCount k 31 16).setFlag .ADC_KSTAT 4 k
        s'.setConv k (s.startInj k { c with restart := some c.cur })
    | .inj => refused s
    | .cal =>
      if c.injPend then refused s
      else if c.from_ = s.frc then s.setConv k (s.startInj k { c with calPend := true })
      else s.setConv k { c with injPend := true }

def execAdcScan (k : Nat) (s : State) := done (s.reqScan k)
def execAdcInject (k : Nat) (s : State) := done (s.reqInj k)

/-- A calibration request: refused while the reference is not settled (R298). -/
def execAdcCal (k : Nat) (s : State) :=
  let c := s.conv k
  if !s.convOn k then done s
  else if !s.refSettledAt s.frc then done ((s.setFlag .ADC_KSTAT 8 k).fire 32 k)
  else match c.act with
    | .idle => done (s.setConv k (s.startCal c))
    | .scan | .inj => done (s.setConv k { c with calPend := true })
    | .cal => done s

/-- STOP: a running scan ends with its conversion; a pending scan is discarded. -/
def execAdcStop (k : Nat) (s : State) :=
  let c := s.conv k
  if !s.convOn k then done s
  else match c.act with
    | .idle => done s
    | .scan =>
      let cut := !(c.scan.isEmpty && c.restart.isNone)
      done (s.setConv k { c with scan := [], restart := none, stopped := c.stopped || cut, scanPend := false })
    | .inj | .cal => done (s.setConv k { c with scanPend := false })

/-- A Thyme fire of TARGET 1 or 2: a scan, or with TGT an injection (R295). -/
def execConverterFire (k : Nat) (s : State) :=
  match Tbl.get [] s.edges (1 + k) with
  | [] => done s
  | _ :: rest =>
    let s := if k < 2 then { s with edges := Tbl.put [] s.edges (1 + k) rest } else s
    done (if s.flag .ADC_CFG 30 k then s.reqInj k else s.reqScan k)

/-! Results (R299 to R301) -/

/-- The corrected value of a raw code under ADC_CORR(i), and CLIP. -/
def State.adcCorrect (s : State) (i : Nat) (raw : Int) : Int × Bool :=
  let t := ((raw - signed 16 (s.fld .ADC_CORR 15 0 i)) * (s.fld .ADC_CORR 31 16 i : Nat) + 0x4000) / 0x8000
  let v := if 32767 < t then 32767 else if t < -32768 then -32768 else t
  (v, decide (v ≠ t))

/-- Writes a result (R300). -/
def State.adcResult (s : State) (k : Nat) (c : Adc) (raw : Int) : State :=
  let i := 8 * k + c.cur
  let (v, clip) := s.adcCorrect i raw
  let outwin := decide (v < signed 16 (s.fld .ADC_WIN 15 0 i)) || decide (signed 16 (s.fld .ADC_WIN 31 16 i) < v)
  let settled := s.refSettledAt (c.from_ + 250)
  let word := unsigned 16 v + 2 ^ 26 * b2n clip + 2 ^ 27 * b2n outwin + 2 ^ 28 * b2n (decide (c.act = .inj)) +
    2 ^ 29 * b2n (!settled) + 2 ^ 30 * b2n (s.flag .ADC_RES 31 i) + 2 ^ 31
  let s := ((s.setRg .ADC_RES word i).setRg .ADC_RAW (unsigned 16 raw) i).setRg .ADC_RESTS (stampNs (s.dtAt (c.from_ + 250) 0)) i
  let s := applyIf clip (·.setFlag .ADC_KSTAT 2 k) s
  let s := applyIf outwin (·.setFlag .ADC_KSTAT 3 k) s
  { s with adc := { s.adc with count := Tbl.upd 0 s.adc.count i (· + 1) } }

/-- A conversion ends with a converter code, 1,000 ns after its acquisition began. The self-calibrated raw code is a
signed 16-bit number; a difference outside it is a free value. -/
def execConversionDone (k : Nat) (code : Int) (s : State) :=
  let c := s.conv k
  if !s.convOn k || decide (s.frc < c.from_ + 1000) || decide (c.act = .idle ∨ c.act = .cal) then done s
  else
    let sar := signed 16 (unsigned 16 code)
    let d := sar - signed 16 (s.fld .ADC_SELFCAL 15 0 k)
    let (raw, s) : Int × State :=
      if -32768 ≤ d ∧ d ≤ 32767 then (d, s) else let (v, s) := s.freeNext; (signed 16 v, s)
    let s := s.adcResult k c raw
    let c := { c with doneAt := some s.frc }
    match c.act, c.inj with
    | .inj, i :: rest => done (s.setConv k { c with cur := i, inj := rest, from_ := s.frc })
    | .inj, [] => done ((s.setFlag .ADC_KSTAT 1 k).setConv k (s.convNext k c))
    | _, _ =>
      if c.scan.isEmpty && c.restart.isNone then
        let s := applyIf (!c.stopped) (·.setFlag .ADC_KSTAT 0 k) s
        done (s.setConv k (s.convNext k { c with scanOn := false, stopped := false }))
      else done (s.setConv k (s.convNext k c))

/-- A calibration ends 40 µs after its start: the trim is replaced, unless the reference was disabled (R301, R303). -/
def execCalibrationDone (k gain ofs : Nat) (s : State) :=
  let c := s.conv k
  if !s.convOn k || decide (c.act ≠ .cal) || decide (s.frc < c.from_ + 40 * us) then done s
  else
    let s := if s.refSettledAt c.from_ then
        (s.setRg .ADC_SELFCAL (gain % 2 ^ 16 * 2 ^ 16 + ofs % 2 ^ 16) k).setFlag .ADC_KSTAT 7 k
      else s.setFlag .ADC_KSTAT 8 k
    done (s.setConv k (s.convNext k c))

/-! Reference (R298) and enable (R302) -/

/-- Domain 14 stands on: an enabled reference buffer takes effect (R298). -/
def State.refStart (s : State) : State :=
  if s.domOn 14 && s.flag .ADC_REF 0 && s.adc.refFrom.isNone then
    { s with adc := { s.adc with refFrom := some s.frc } }
  else s

/-- A write of ADC_REF.EN. -/
def execReferenceEnable (en : Bool) (s : State) :=
  if en then
    let s' := s.setFlag .ADC_REF 0
    if s.flag .ADC_REF 0 || !s.domOn 14 then done s'
    else done { s' with adc := { s'.adc with refFrom := some s.frc } }
  else
    let s := s.setRg .ADC_REF 0
    done { s with adc := { s.adc with refFrom := none } }

/-- 2 ms after its enable the reference is settled. -/
def execReferenceSettled (s : State) := if s.refSettledAt s.frc then done (s.setFlag .ADC_REF 31) else done s

/-- Every activity of the converter ends (R302). -/
def State.convStop (s : State) (k : Nat) : State := s.setConv k {}

/-- ADC_CFG(k).EN is cleared. -/
def execConverterDisable (k : Nat) (s : State) :=
  if k < 2 then done ((s.clrFlag .ADC_CFG 31 k).convStop k) else done s

/-! Reads -/

/-- A read of ADC_RES(i): NEW and OVW clear, and the stamp is latched for the requester (R300); the latch of the low word
stands under the register's address plus 1, that of the high word under plus 2. -/
def execAdcResRead (q : Requester) (i : Nat) (s : State) :=
  let s := s.readClear q .ADC_RES i
  let a := regAddr .ADC_RESTS i 0
  let v := s.rg .ADC_RESTS i
  let p := s.port q
  let rest := p.latch.filter fun e => decide (e.1 ≠ a + 1 ∧ e.1 ≠ a + 2)
  done (s.setPort q { p with latch := (a + 1, wordOf v false) :: (a + 2, wordOf v true) :: rest })

def execAdcEvRead (q : Requester) (k : Nat) (s : State) := done (s.readClear q .ADC_EV k)

end Sys2Proof.Machine
end

