-- ==== Sys2Proof/Machine/Power.lean ====
section
/-! DEFINITION. Reset kinds, what each keeps, supplies, clocks and power domains (R13, R14, R386 to R402, Table 18-5). -/
namespace Sys2Proof.Machine

/-! Retention (Table 18-5) -/

/-- Retained variables in MRAM survive every reset; nothing else of a scheme program does. -/
def SchTen.kept (c : SchTen) : SchTen := { keepA := c.keepA, keepB := c.keepB, curB := c.curB, keptFor := c.keptFor }

/-- Complete capture records survive SYSRST_N; the unit is IDLE and its counters are gone (R377, R380, R400). -/
def CapUnit.kept (c : CapUnit) : CapUnit := { records := c.records, recSeq := c.recSeq }

/-- Changes the values of a table and keeps it canonical. -/
def Tbl.mapv {α : Type} [DecidableEq α] (d : α) (m : Tbl α) (f : α → α) : Tbl α :=
  (m.map fun (e : Nat × α) => (e.1, f e.2)).filter fun (e : Nat × α) => decide (e.2 ≠ d)

/-- Hazel at a reset: staging and the command in progress go; the volatile tier waits for its reload (R363). -/
def Vault.reset (v : Vault) : Vault :=
  { vault := if v.vault = .none then .none else .loading, slots := v.slots, asserted := v.asserted, tampered := v.tampered,
    unreported := v.unreported }

/-- Lifecycle and attestation at a reset: fuses, identity certificate and a pending erasure stay (R364). -/
def Attest.reset (a : Attest) : Attest := { erase := a.erase, ownerRoot := a.ownerRoot, idCert := a.idCert }

/-- Thyme's and PPS_OUT's pins go to high impedance with pull-down (R421). -/
def State.pinsOff (s : State) : State :=
  let s := iterUpto 16 (fun n (s : State) => if s.chPinEn n && (s.ch n).level then s.emit (.pin n false s.dt) else s) s
  if s.tb.ppsHigh then s.emit (.pps false) else s

/-- The timebase at SYSRST_N: the FRC and device time go on; a pending commit is cancelled (Table 18-6). -/
def Timebase.reset (x : Timebase) : Timebase :=
  { frc := x.frc, sync := x.sync, holdFrom := x.frc, holdoverAt := x.holdoverAt, rtcValid := x.rtcValid, rtc := x.rtc,
    rtcFrom := x.rtcFrom, rtcSecond := x.rtcSecond }

/-- Supplies, clocks and pins as they stand, all else of start-up from its beginning. -/
def Power.reset (p : Power) : Power :=
  { main := p.main, vbat := p.vbat, refOk := p.refOk, sysrst := p.sysrst, side := p.side, smbAddr := p.smbAddr, on := 1, pll := 1, regOut := p.regOut
    serdesLow := p.serdesLow, railFault := p.railFault, warmTimes := p.warmTimes, phases := 1,
    phase1Waits := p.phase1Waits, hot := p.hot, coolFrom := p.coolFrom, smbAlert := p.smbAlert,
    jtag := p.jtag, tdo := p.tdo }

/-- A SYSRST_N reset: every link that is UP goes DOWN (R104); classes NV, BAT and POR are kept, every other register and all working state returns to its reset
value (R12, R400, R401). -/
def State.sysReset (s : State) : State :=
  let before := s
  let s := iterUpto 8 (fun n (s : State) => if (s.prt n).up then s.linkDown n else s) s.pinsOff
  let s := s.regReset 0 (2 ^ 40) fun c => decide (c = .nv ∨ c = .bat ∨ c = .por)
  let lo := evrRecord 0
  let old := s
  let s : State :=
    { tb := old.tb.reset, rf := old.rf, freeN := old.freeN, out := old.out, pending := old.pending, ltl := old.ltl,
      jrnl := old.jrnl, kvs := old.kvs.reset, att := old.att.reset, pwr := old.pwr.reset,
      mem := old.mem.filter fun (e : Host.Cell) => decide (lo ≤ e.1 ∧ e.1 < lo + 0x200000)
      sch := { ten := Tbl.mapv {} old.sch.ten SchTen.kept }, dcr := Tbl.mapv {} old.dcr CapUnit.kept
      now := { rf := old.rf, outs := old.out.length }
      links := Tbl.mapv {} old.links fun (l : HostLink) => { perst := l.perst } }
  iterUpto 8 (fun n (s : State) => s.lineFrom before n) (old.smbSettle (s.setRg .PAR_CFG old.pwr.side))

/-- Main power is lost: class POR goes as well, Almond's pending changes are lost, BAT content stays while VBAT does (R383,
R396, R400). -/
def State.powerLoss (s : State) : State :=
  let ticks := s.rtcTicks
  let s := s.sysReset
  let s := s.regReset 0 (2 ^ 40) fun c => decide (c = .nv ∨ c = .bat)
  { s with
    tb := { rtcValid := s.tb.rtcValid, rtc := ticks }, dcr := [], ltl := { cur := s.ltl.mram, mram := s.ltl.mram }
    pwr := { main := false, vbat := s.pwr.vbat, refOk := s.pwr.refOk, railFault := s.pwr.railFault, phases := 0, on := 0 } }

/-- BAT content is lost: the seconds keeper, the tamper registers, the vault root (R400, R402). The wrapped keys in MRAM stay,
of no use until VAULT_INIT (R362). -/
def State.batLoss (s : State) : State :=
  let s := s.regReset 0 (2 ^ 40) fun c => decide (c ≠ .bat)
  let s := { s with kvs := { s.kvs with slots := Tbl.del s.kvs.slots 1, stg := [] } }
  { s with
    tb := { s.tb with rtcValid := false, rtc := 0, rtcFrom := s.frc, rtcSecond := none }
    kvs := { s.kvs with vault := .none, identity := false, tampered := false, unreported := false } }

/-! SYSRST_N (R397, R398) -/

/-- Bits of SYS_RSTCAUSE. -/
def Cause.powerOn : Nat := 0
def Cause.railFault : Nat := 1
def Cause.pin : Nat := 2
def Cause.swCmd : Nat := 3
def Cause.lockstep : Nat := 4
def Cause.wdog : Nat := 5
def Cause.escalate : Nat := 6

/-- A SYSRST_N reset with its cause; RSTOUT_N goes low, the Almond counter counts. LOCKED becomes HOLDOVER (Table 03-1). -/
def State.sysrstReset (s : State) (cause : Nat) : State :=
  let s := (s.setFlag .SYS_RSTCAUSE cause).sysReset
  let s := if s.tb.sync = .locked then s.setSync .holdover else s
  ({ s with pwr := { s.pwr with rstOut := true, warmTimes := [] } }).almond 1

/-- SYSRST_N has been low for longer than its filter: every domain but 0 is held in reset. -/
def execSysrstAssert (s : State) :=
  if s.pwr.main && !s.pwr.sysrst then
    let s := s.sysrstReset Cause.pin
    done { s with pwr := { s.pwr with sysrst := true } }
  else done s

/-- SYSRST_N is released: PAIR_SIDE and SMB_ADDR are latched (R229, Table 20-7) and the supervisor phase begins. -/
def execSysrstRelease (pins : LatchPins) (s : State) :=
  if s.pwr.sysrst then
    let s := { s with pwr := { s.pwr with sysrst := false, side := pins.side % 2, smbAddr := pins.smbAddr % 8 } }
    done (s.setRg .PAR_CFG (pins.side % 2))
  else done s

/-- SYS_RSTCMD KIND 2. -/
def execSysrstCmd (key : Nat) (s : State) :=
  if key = 0xC3 ∧ s.pwr.main then done (s.sysrstReset Cause.swCmd) else done s

/-! Supervisor warm restart (R13, R14, R397, R399) -/

/-- A supervisor warm restart starts; the third within 10 s escalates to a SYSRST_N reset. -/
def State.warmStart (s : State) (cause : Nat) : State :=
  let s := (s.setFlag .SYS_RSTCAUSE cause).setFld .SYS_RSTCAUSE 31 16 (satInc 16 (s.fld .SYS_RSTCAUSE 31 16))
  let times := s.frc :: s.pwr.warmTimes.filter fun f => decide (s.frc < f + 10 * sec)
  if 3 ≤ times.length then s.sysrstReset Cause.escalate
  else
    let s := s.regReset 0 (2 ^ 40) fun c => decide (c ≠ .sup)
    ({ s with pwr := { s.pwr with supRuns := false, warm := true, supBack := s.frc + 400 * ms, warmTimes := times,
                                  wdogFrom := s.frc } }).almond 2

/-- The supervisor firmware runs, or its warm restart is in progress. -/
def State.supUp (s : State) : Bool := s.pwr.supRuns || s.pwr.warm

/-- A comparison mismatch in a supervisor pair (R13). Where it escalates, Walnut's entry for the mismatch outlasts the
reset, so that Walnut records it. -/
def execLockstepMismatch (pair : Nat) (s : State) :=
  if s.supUp then
    let n := s.evr.queue.length
    let s := (s.fire 0 pair).almond 3
    let entry := s.evr.queue.drop n
    let s := { s with sge := { s.sge with lockstep := true } }.warmStart Cause.lockstep
    done (if s.pwr.warm then s else { s with evr := { s.evr with queue := entry ++ s.evr.queue } })
  else done s

/-- SYS_RSTCMD KIND 1. -/
def execWarmRestartCmd (key : Nat) (s : State) :=
  if key = 0xC3 ∧ s.supUp then done (s.warmStart Cause.swCmd) else done s

/-- SYS_WDOG.PERIOD in ms (SYS_WDOG). -/
def State.wdogPeriod (s : State) : Nat :=
  let p := s.fld .SYS_WDOG 15 0
  if 100 ≤ p ∧ p ≤ 10000 then p else 500

/-- SYS_WDOG.KICK. -/
def execWdogKick (key : Nat) (s : State) :=
  if key = 0x5A then done { s with pwr := { s.pwr with wdogFrom := s.frc } } else done s

/-- The watchdog period passes without a kick. -/
def execWatchdogExpiry (s : State) :=
  if s.supUp && decide (s.pwr.wdogFrom + s.wdogPeriod * ms ≤ s.frc) then done (s.warmStart Cause.wdog) else done s

/-- The warm restart completes: the firmware serves again (R14). -/
def execSupRestartComplete (s : State) :=
  if s.pwr.warm then
    done ({ s with pwr := { s.pwr with supRuns := true, warm := false, wdogFrom := s.frc } }.fire 1 0)
  else done s

/-! Supplies (R390 to R392, R396) -/

/-- VIN_MAIN below 2.85 V. -/
def execBrownOut (s : State) :=
  if s.pwr.main then
    let s := s.powerLoss
    done (if s.pwr.vbat then s else s.batLoss)
  else done s

/-- A rail outside ±10 %: a power-on reset follows. -/
def execRailFault (s : State) :=
  if s.pwr.main then
    let s := s.powerLoss
    done { s with pwr := { s.pwr with railFault := true } }
  else done s

/-- VIN_MAIN below 3.05 V: WARN, Walnut, Almond's pending changes. -/
def execSupplyWarning (s : State) :=
  if s.pwr.main then done (s.smbSettle (((s.setFlag .PWR_STAT 0).fire 47 0).almondFlush)) else done s

/-- VIN_MAIN above 3.1 V for 1 ms. -/
def execWarningClear (s : State) := done (s.smbSettle (s.clrFlag .PWR_STAT 0))

/-- VBAT below 1.5 V (R397). -/
def execVbatLoss (s : State) :=
  let s := { s with pwr := { s.pwr with vbat := false } }
  if s.pwr.main then done (s.setFlag .PWR_STAT 2) else done s.batLoss

/-- TBPLL locks and the supply phase ends (R403): the FRC from 0, the cause, PAIR_SIDE, device time from the seconds
keeper (R69), Almond, Walnut's check of its last record, and the record of a tamper in STANDBY (R361). -/
def State.supplyEnd (s : State) : State :=
  let fault := s.pwr.railFault
  let s := { s with pwr := { s.pwr with main := true, on := 1, pll := 1, phases := 1, railFault := false, phase1Waits := false } }
  let s := (s.setRg .SYS_RSTCAUSE (if fault then 3 else 1)).setRg .PAR_CFG s.pwr.side
  let s := if s.tb.rtcValid then s.setRg .TMB_OFS (s.tb.rtc * sec / 32768) else s
  let s := (s.almond 0).walnutCheck
  if s.kvs.unreported then
    let s := { s with kvs := { s.kvs with unreported := false } }
    (s.fireRaw 36 (s.fld .TMP_STAT 6 0) (s.rg .TMP_LOG) true 3).almond 11
  else s

/-- Main power becomes good (R403); the seconds keeper went on counting for `standby` ticks meanwhile (R69). Without
REFCLK TBPLL does not lock and the supply phase waits (Table 18-9). -/
def execPowerOn (standby : Nat) (pins : LatchPins) (vbat ref : Bool) (s : State) :=
  if s.pwr.main then done s
  else
    let s := if vbat then s else s.batLoss
    let s := { s with pwr := { s.pwr with vbat := vbat, refOk := ref, phase1Waits := !ref, side := pins.side % 2, smbAddr := pins.smbAddr % 8 } }
    let s := { s with tb := { s.tb with rtc := s.tb.rtc + standby } }
    done (if ref then s.supplyEnd else s)

/-! Clocks (R393, R394) -/

/-- The PLLs of Table 18-3 that a set of domains needs; TBPLL always runs. -/
def pllNeeds (on : Nat) : Nat :=
  let any (ds : List Nat) : Bool := ds.any fun d => bit on d
  1 + 2 * b2n (any [1]) + 4 * b2n (any [2, 3, 4]) + 8 * b2n (any [5, 6, 7, 8]) + 16 * b2n (any [9, 10]) +
    32 * b2n (any [11, 14]) + 64 * b2n (any [2])

/-- PLLs after a change of the domains that are on: those needed run; the others stop 1 ms later. -/
def State.pllSettle (s : State) : State :=
  let need := pllNeeds s.pwr.on
  let stop := (List.range 7).foldl (fun (m : Tbl (Option Nat)) p =>
    if bit need p then Tbl.put none m p none
    else if bit s.pwr.pll p && (Tbl.get none m p).isNone then Tbl.put none m p (some (s.frc + ms)) else m) s.pwr.pllStop
  { s with pwr := { s.pwr with pll := s.pwr.pll ||| need, pllStop := stop } }

/-- The domains that are on. -/
def State.setOn (s : State) (on : Nat) : State := { s with pwr := { s.pwr with on := on } }.pllSettle

/-- 1 ms after nothing needs it, a PLL stops. -/
def execPllStop (p : Nat) (s : State) :=
  match Tbl.get none s.pwr.pllStop p with
  | some f =>
    if f ≤ s.frc then
      done { s with pwr := { s.pwr with pll := clrBit s.pwr.pll p, pllStop := Tbl.put none s.pwr.pllStop p none } }
    else done s
  | none => done s

/-- The reference is present again: TBPLL relocks; a supply phase that waited for it goes on (R394, Table 18-9). -/
def execReferenceRestored (s : State) :=
  let s := { s with pwr := { s.pwr with refOk := true } }
  done (if s.pwr.phase1Waits && !s.pwr.main then s.supplyEnd else s)

/-! Domain commands (R389, R408) -/

/-- A command of PWR_DCMD on a domain of a list, in use and with no domain in transition; any other sets DCMD_REFUSED. -/
def State.domCommand (s : State) (d : Nat) (ds : List Nat) (body : State → State) : State :=
  if d ∈ ds && bit s.pwr.mask d && s.pwr.trans.isEmpty then body s else s.setFlag .PWR_STAT 4

/-- A domain in transition, at most for 5 ms. -/
def State.domStart (s : State) (d : Nat) (w : DomainWork) : State :=
  { s with pwr := { s.pwr with trans := Tbl.put none s.pwr.trans d (some (w, s.frc + 5 * ms)) } }

def execDomainOff (d : Nat) (s : State) := done (s.domCommand d [14, 15] fun s =>
  if !bit s.pwr.on d then s
  else
    let s := if d = 14 then
        let s := ((s.convStop 0).convStop 1).clrFlag .ADC_REF 31
        { s with adc := { s.adc with refFrom := none } }
      else iterUpto 16 (fun u (s : State) => s.capDisarmUnit u) s
    s.setOn (clrBit s.pwr.on d))

def execDomainOn (d : Nat) (s : State) := done (s.domCommand d [14, 15] fun s =>
  if bit s.pwr.on d then s else s.domStart d .switchOn)

/-- Tenants with a slot in a tile quarter. -/
def State.quarterTenants (s : State) (q : Nat) : List Nat :=
  (s.slots.filter fun (e : Nat × Option (Nat × Nat)) => decide (e.1 / 1024 = q)).filterMap fun
    (e : Nat × Option (Nat × Nat)) => e.2.map fun (x : Nat × Nat) => x.1

/-- Scheme programs on the cores of a domain stop with CAUSE 3. -/
def State.coresReset (s : State) (d : Nat) : State :=
  (s.sch.ten.map fun (e : Nat × SchTen) => e.1).foldl (fun (s : State) t =>
    let c := s.schT t
    if c.core / 8 = d - 9 ∧ c.prog.isSome ∧ (c.st = .run ∨ c.st = .standby ∨ c.st = .frozen) then s.schHalt t 3 else s) s

/-- RESET of a domain (R389). DEDUCED: the tenants whose windows Table 18-5 returns to their reset values are those that R389
resets, the tenants with a slot in a tile quarter. -/
def execDomainReset (d : Nat) (s : State) := done (s.domCommand d [5, 6, 7, 8, 9, 10] fun s =>
  let s := s.domStart d .reset
  if d ≤ 8 then
    let s := (s.quarterTenants (d - 5)).foldl (fun (s : State) t =>
      if (s.tenant t).svc = Svc.out then s.windowReset t else s.tenReset t) s
    let tiles := bits s.plan.tileOn (32 * (d - 5) + 31) (32 * (d - 5)) * 2 ^ (32 * (d - 5))
    { s with pwr := { s.pwr with bistDue := s.pwr.bistDue ||| tiles } }
  else s.coresReset d)

/-- A switch-on or a reset completes. The reference buffer settles again after domain 14 returned (R298). -/
def execDomainTransitionDone (d : Nat) (s : State) :=
  match Tbl.get none s.pwr.trans d with
  | none => done s
  | some (w, _) =>
    let s := { s with pwr := { s.pwr with trans := Tbl.put none s.pwr.trans d none } }
    match w with
    | .reset => done s
    | .switchOn =>
      let s := s.setOn (setBit s.pwr.on d)
      done (if d = 14 then s.refStart else s)

end Sys2Proof.Machine
end

