-- ==== Sys2Proof/Machine/Startup.lean ====
section
/-! DEFINITION. Start-up: boot banks, image load, seal, ranks and start conditions (R38 to R47, R403 to R407). -/
namespace Sys2Proof.Machine

/-! Supervisor phase (R40, R41, R363, R364, R403) -/

/-- The load or firmware code of a bank (SYS_BOOTSTAT). -/
def State.bankFail (s : State) (b code : Nat) : State :=
  if b = 0 then { s with boot := { s.boot with failA := code, err := code } }
  else { s with boot := { s.boot with failB := code, err := code } }

/-- Recovery (R43). -/
def State.enterRecovery (s : State) : State :=
  { s with boot := { s.boot with recovery := true, trial := false } }.almond 31

/-- Firmware of bank b passes secure boot, or code 0x0B is recorded. -/
def State.firmwareBoot (s : State) (b : Nat) (x : Bank) : Bool × State :=
  if x.firmware then (true, s) else (false, s.bankFail b 0x0B)

/-- The bank selection of R41 as far as the firmware of the banks decides it; BANK and FALLBACK follow once an image loads. -/
def State.bankSelect (s : State) (bankA bankB : Bank) : State :=
  let of : Nat → Bank := fun b => if b = 0 then bankA else bankB
  let pref := b2n (s.flag .SYS_BOOTCFG 0)
  let try_ := s.flag .SYS_BOOTCFG 1
  let first := if try_ then 1 - pref else pref
  let s := (s.clrFlag .SYS_BOOTCFG 1)
  let (ok, s) := s.firmwareBoot first (of first)
  if ok then { s with boot := { s.boot with trying := first, second := false, trial := try_, firmware := (of first).fwDigest } }
  else
    let (ok, s) := s.firmwareBoot (1 - first) (of (1 - first))
    if ok then { s with boot := { s.boot with trying := 1 - first, second := true, trial := false, firmware := (of (1 - first)).fwDigest } }
    else s.enterRecovery

/-- Hazel derives slot 2. -/
def State.identityLoad (s : State) : State := { s with kvs := { s.kvs with identity := !s.tamperActive } }

/-- Hazel unwraps the ACTIVE and ORPHAN slots; the grace of an orphan goes on with what MRAM kept. -/
def State.vaultLoad (s : State) : State :=
  let up : Nat × KeySlot → Nat × KeySlot := fun e =>
    if e.2.st = .orphan then (e.1, { e.2 with graceEnd := s.frc + e.2.graceKept * sec }) else e
  { s with kvs := { s.kvs with
      slots := s.kvs.slots.map up
      vault := match s.kvs.vault with | .none => .none | .loading | .ready => .ready } }

/-- The domains that stand on when the supervisor phase ends: those that R387 requires. -/
def requiredDomains : Nat := 0x3807

def execSupervisorPhase (bankA bankB : Bank) (s : State) :=
  if s.pwr.main && !s.pwr.sysrst && bit s.pwr.phases 0 && !bit s.pwr.phases 1 then
    let s := (s.bankSelect bankA bankB).identityLoad.lcErased.vaultLoad
    let s := { s with pwr := { s.pwr with
      rstOut := false, supRuns := true, wdogFrom := s.frc, phases := setBit s.pwr.phases 1, mask := requiredDomains } }
    done (s.setOn requiredDomains)
  else done s

/-! Image phase (R38 to R45, R54) -/

/-- The seal (R45). -/
def State.seal (s : State) : State := { s with boot := { s.boot with sealed := true, holdSeal := none } }

/-- The image of bank b is checked; the code of a failure is recorded and nothing is applied. -/
def State.bankImage (s : State) (b : Nat) (x : Bank) : Option (Plan × Programs) × State :=
  match s.bankCheck x with
  | .ok p => (some p, s)
  | .error code => (none, s.bankFail b code)

/-- An image that passed every check is applied: BANK and FALLBACK, domains, journal, seal; rank 0 opens (R41, R403, R405). -/
def State.imageApplied (s : State) (x : Bank) (p : Plan × Programs) : State :=
  let s := { s with boot := { s.boot with bank := s.boot.trying, fallback := s.boot.second } }
  let s := ((s.applyImage x.image p.1 p.2).setOn p.1.domains).refStart
  let s := if s.boot.fallback then s.almond 14 else s
  let s := s.replay
  let s := if s.boot.holdSeal.isNone then s.seal else s
  { s with pwr := { s.pwr with phases := setBit s.pwr.phases 2, phase3End := some s.frc, rankOpen := [s.frc] } }

def execImageLoad (bankA bankB : Bank) (s : State) :=
  if bit s.pwr.phases 1 && !bit s.pwr.phases 2 && !s.boot.recovery && s.pwr.supRuns then
    let of : Nat → Bank := fun b => if b = 0 then bankA else bankB
    let b := s.boot.trying
    match s.bankImage b (of b) with
    | (some p, s) => done (s.imageApplied (of b) p)
    | (none, s) =>
      if s.boot.second then done s.enterRecovery
      else
        let o := 1 - b
        let (fw, s) := s.firmwareBoot o (of o)
        if !fw then done s.enterRecovery
        else match s.bankImage o (of o) with
          | (none, s) => done s.enterRecovery
          | (some p, s) =>
            let s := { s with boot := { s.boot with trying := o, second := true, trial := false, firmware := (of o).fwDigest } }
            done (s.imageApplied (of o) p)
  else done s

/-- CONFIRM of a trial boot (R42). -/
def execConfirm (s : State) :=
  if s.boot.trial then
    let s := s.setFld .SYS_BOOTCFG 0 0 s.boot.bank
    done { s with boot := { s.boot with trial := false } }
  else done s

/-- A write of SYS_ROLLFLOOR (R44). -/
def execRollfloorWrite (v : Nat) (s : State) :=
  if s.boot.loaded && decide (s.rg .SYS_ROLLFLOOR ≤ v ∧ v ≤ s.boot.imgVer) then done (s.setRg .SYS_ROLLFLOOR v)
  else done { s with boot := { s.boot with err := 6 } }

/-- SYS_SEAL.SEAL (R45). -/
def execSeal (s : State) := done s.seal

/-- 100 ms after the apply step with HOLD_SEAL (R45). -/
def execSealTimeout (s : State) :=
  match s.boot.holdSeal with
  | some f => if f ≤ s.frc then done s.seal else done s
  | none => done s

/-! Ranks and start conditions (R405) -/

/-- Ranks open one by one. -/
def execRankOpen (s : State) :=
  let r := s.pwr.rankOpen.length
  match s.pwr.rankOpen.getLast? with
  | none => done s
  | some f =>
    let all := s.enabledTenants.all fun (e : Nat × TenantCfg) => decide (e.2.rank ≠ r - 1) || s.isStarted e.1
    if r ≤ 15 && (all || decide (f + sec ≤ s.frc)) then
      done { s with pwr := { s.pwr with rankOpen := s.pwr.rankOpen ++ [s.frc] } }
    else done s

/-- SYS_STARTCFG.TMO in seconds. -/
def State.startTmo (s : State) : Nat :=
  let v := s.fld .SYS_STARTCFG 9 0
  if 20 ≤ v ∧ v ≤ 1000 then v else 60

/-- The end of start-up (R406). -/
def State.startEnds (s : State) : State :=
  let pend := s.pendNow
  let s := { s with pwr := { s.pwr with ended := true, complete := pend.isEmpty, pend := pend } }
  let s := if pend.isEmpty then
      iterUpto 8 (fun n (s : State) => if (s.prt n).filt = .start then s.setFilt n .normal else s) s
    else s
  s.fire 45 pend.length

/-- Start-up ends once no enabled tenant is pending or SYS_STARTCFG.TMO has passed. -/
def State.startCheck (s : State) : State :=
  match s.pwr.phase3End with
  | some f =>
    if !s.pwr.ended && (s.pendNow.isEmpty || decide (f + s.startTmo * sec ≤ s.frc)) then s.startEnds else s
  | none => s

def execStartEnd (s : State) := done s.startCheck

def execTenantAutostart (t : Nat) (s : State) :=
  match s.tenCfg t with
  | none => done s
  | some c =>
    let x := s.tenant t
    if s.pwr.phase3End.isSome && decide (c.rank < s.pwr.rankOpen.length ∧ s.startLacks t c = 0 ∧ x.svc = Svc.out) && !s.isStarted t
      && !x.commit && !x.amended && x.cmd.isNone then
      done (s.serviceStart t).startCheck
    else done s

/-! Host links (R404) -/

/-- HST_PERST_N of a link is released. -/
def execPerstRelease (link : Nat) (s : State) :=
  if link < 4 then done (s.setLink link { s.link link with perst := true }) else done s

/-- The link exists: in recovery link 0 only; a HOST section without SPLIT joins all lanes in link 0 (R43, R323). -/
def State.linkThere (s : State) (link : Nat) : Bool :=
  if s.boot.recovery then decide (link = 0)
  else if s.boot.loaded && !s.plan.split then decide (link = 0)
  else decide (link < 4)

/-- Virtual functions that a link may enable: none until the image is applied, then NVF. -/
def State.nvf (s : State) (link : Nat) : Nat := if s.boot.loaded then s.plan.nvf.getD link 0 else 0

/-- A link completes training with a width and speed, in recovery as x4 (R43); a link that is up reports the virtual functions that its host has
enabled since. -/
def execHostLinkUp (link width speed vfen : Nat) (s : State) :=
  let l := s.link link
  if bit s.pwr.phases 1 && l.perst && s.linkThere link then
    let vf := min vfen (s.nvf link)
    if l.up then done (s.setLink link { l with vfen := vf })
    else done ((s.setLink link { l with up := true, width := if s.boot.recovery then 2 else width, speed := speed, vfen := vf }).fire 41 (link + 256))
  else done s

end Sys2Proof.Machine
end

