-- ==== Sys2Proof/Machine/Bus.lean ====
section
/-! DEFINITION. Register accesses (R7 to R11, R45, R324, R333, R345, R410 to R415): 64-bit registers in two words, writes by
access code, and the writes that are commands. -/
namespace Sys2Proof.Machine

/-! Requesters and addresses -/

/-- The tenant of a virtual function. -/
def State.vfTenant (s : State) (link fn : Nat) : Option Nat :=
  ((s.enabledTenants.filter fun (e : Nat × TenantCfg) => decide (e.2.link = link ∧ e.2.vf = fn)).map
    fun (e : Nat × TenantCfg) => e.1).head?

/-- The address that a requester's address names. A virtual function gives an offset in its BAR 0; a physical function an
offset in its BAR 0 below 0x10_0000, or 0x1000_0000 plus an offset in its BAR 2. An access that is not aligned names
nothing (R324, R411). -/
def State.busAddr (s : State) (q : Requester) (a : Nat) : Option Nat :=
  if a % 4 ≠ 0 then none
  else match q with
    | .supervisor | .walnut => if a < 0x20000000 then some a else none
    | .jtag => if a < 0x800000 ∧ (s.fld .ATT_LC 2 0 = 0 ∨ s.fld .ATT_LC 2 0 = 3) then some a else none
    | .vf link fn => if a < 0x10000 then (s.vfTenant link fn).map fun t => windowBase t + a else none
    | .pf link =>
      if 4 ≤ link then none
      else if a < 0x100000 then some (0x20000000 + 0x100000 * link + a)
      else if 0x10000000 ≤ a ∧ a < 0x14000000 then
        (s.vfTenant link ((a - 0x10000000) / 0x10000 + 1)).map fun t => windowBase t + (a - 0x10000000) % 0x10000
      else none

/-- The link of a host's requester. -/
def Requester.host : Requester → Option Nat
  | .vf link _ => some link
  | .pf link => some link
  | .supervisor | .jtag | .walnut => none

/-- The function through which a requester gives a tenant command. -/
def Requester.via : Requester → Option Nat
  | .vf link _ => some link
  | .pf link => some (4 + link)
  | .supervisor | .jtag | .walnut => none

/-- A physical function: what its rings and doorbells ask for is transferred through it
(R326). -/
def Requester.isPf : Requester → Bool
  | .pf _ => true
  | .vf _ _ | .supervisor | .jtag | .walnut => false

/-! Reads (R10) -/

/-- A read of a register word by a requester. -/
def State.busRead (s : State) (q : Requester) (a : Nat) (w : RegAt) : State :=
  let v := readReg s w.reg w.i w.j
  let p := s.port q
  let put (key : Nat) (x : W32) (l : List (Nat × W32)) : List (Nat × W32) := (key, x) :: l.filter fun e => decide (e.1 ≠ key)
  let drop (key : Nat) (l : List (Nat × W32)) : List (Nat × W32) := l.filter fun e => decide (e.1 ≠ key)
  let get (key : Nat) : Option W32 := (p.latch.find? fun e => decide (e.1 = key)).map fun e => e.2
  if (regInfo w.reg).wide then
    if w.high then
      let base := a - 4
      let x := (get base).getD (wordOf v true)
      s.setPort q { p with latch := drop base p.latch, data := x }
    else
      -- ADC_RESTS shows the stamp latched by the requester's read of ADC_RES, if there is one (R300)
      let lo := (get (a + 1)).getD (wordOf v false)
      let hi := (get (a + 2)).getD (wordOf v true)
      let s := s.setPort q { p with latch := put a hi (drop (a + 1) (drop (a + 2) p.latch)), data := lo }
      if w.reg = .TMB_SRVOFS then { s with tb := { s.tb with srvUnread := false } } else s
  else match w.reg with
    | .DCR_UCNT => s.ucntRead q w.i
    | .ADC_RES =>
      let s := s.readClear q .ADC_RES w.i
      let r := regAddr .ADC_RESTS w.i 0
      let x := s.rg .ADC_RESTS w.i
      let p := s.port q
      s.setPort q { p with latch := put (r + 1) (wordOf x false) (put (r + 2) (wordOf x true) p.latch) }
    | _ => s.readClear q w.reg w.i w.j

/-- A read at an address: a register, a memory, or nothing, which reads zero. -/
def State.busReadAt (s : State) (q : Requester) (a : Nat) : State :=
  match s.busAddr q a with
  | none => s.answer q 0
  | some x => match s.regAt x with
    | some w => s.busRead q x w
    | none => s.answer q (busPeek s x).toNat

/-- A read of a low word: it latches the high word for the requester. -/
def execReg64LowRead (q : Requester) (a : Nat) (s : State) := done (s.busReadAt q a)

/-- A read of a high word: the latched word, once, or the present one. -/
def execReg64HighRead (q : Requester) (a : Nat) (s : State) := done (s.busReadAt q a)

/-! Writes by access code (R7, R45) -/

/-- A register's value after a write: RW and, before the seal, RWS bits take the written value; W1C bits clear and W1S bits set
where a 1 is written. A W1C bit of `raised`, which hardware has set in the same FRC count, stays set (R9). -/
def regMerge (g : RegInfo) (sealed : Bool) (old v : Nat) (raised : Nat := 0) : Nat :=
  let m := g.rw ||| (if sealed then 0 else g.rws)
  let kept := old - (old &&& m) + (v &&& m)
  let gone := kept &&& (v &&& g.w1c)
  (kept - (gone - (gone &&& raised))) ||| (v &&& g.w1s)

/-- A write by access code; after the seal one that would have changed an RWS field counts in RWS_IGN. -/
def State.plainWrite (s : State) (r : Reg) (i j v : Nat) : State :=
  let g := regInfo r
  let old := s.rg r i j
  let s := if s.boot.sealed && decide ((Nat.xor old v) &&& g.rws ≠ 0) then
      { s with boot := { s.boot with rwsIgn := satInc 8 s.boot.rwsIgn } } else s
  s.setRg r (regMerge g s.boot.sealed old v (s.raisedNow r i j)) i j

/-- The state that an outcome leaves; every command of this block answers a next state. -/
def State.after (s : State) (o : Host.Outcome State Fault Refusal) : State :=
  match o with
  | .next t => t
  | .fault _ => s
  | .refused _ => s

/-- A write that is a command where a bit is set. -/
def State.onBit (s : State) (v b : Nat) (f : State → Host.Outcome State Fault Refusal) : State :=
  if bit v b then s.after (f s) else s

/-- Sets an entry of a selector-banked register. -/
def bankPut (l : List (Nat × Nat)) (k v : Nat) : List (Nat × Nat) := Tbl.put 0 l k v

/-! Writes that are commands, block by block -/

/-- SYS_ and PWR_ (chapters 02 and 18). STAGE reads its record from DRAM: it is the row STAGE. -/
def State.sysWrite (s : State) (r : Reg) (i j v : Nat) : State :=
  match r with
  | .SYS_RSTCMD =>
    let key := bits v 15 8
    if bits v 1 0 = 1 then s.after (execWarmRestartCmd key s) else if bits v 1 0 = 2 then s.after (execSysrstCmd key s) else s
  | .SYS_WDOG => let s := s.plainWrite r i j v; s.after (execWdogKick (bits v 31 24) s)
  | .SYS_BOOTCFG => (s.plainWrite r i j v).onBit v 2 execConfirm
  | .SYS_ROLLFLOOR => s.after (execRollfloorWrite v s)
  | .SYS_SEAL => s.onBit v 0 execSeal
  | .SYS_AMDADDR => { s with boot := { s.boot with amdAddr := bankPut s.boot.amdAddr s.amdSel v } }
  | .SYS_AMDACT => { s with boot := { s.boot with amdAct := bankPut s.boot.amdAct s.amdSel v } }
  | .SYS_AMDCMD => if bits v 1 0 = 2 then s.after (execCommit s) else if bits v 1 0 = 3 then s.after (execDiscard s) else s
  | .PWR_STAT => s.smbSettle (s.plainWrite r i j v)
  | .PWR_DCMD =>
    let d := bits v 3 0
    match bits v 5 4 with
    | 1 => s.after (execDomainOff d s)
    | 2 => s.after (execDomainOn d s)
    | 3 => s.after (execDomainReset d s)
    | _ => s
  | _ => s.plainWrite r i j v

/-- A write of an _NX register is ignored while a commit is pending (R64). -/
def State.nxWrite (s : State) (r : Reg) (i j v : Nat) : State :=
  if s.tb.pending.isSome then s.setFlag .TMB_STAT 3 else s.plainWrite r i j v

/-- TMB_ and TTU_ (chapter 03). -/
def State.timeWrite (s : State) (r : Reg) (i j v : Nat) : State :=
  match r with
  | .TMB_RATE_NX | .TMB_OFS_NX | .TMB_ANC_NX => s.nxWrite r i j v
  | .TMB_CMT =>
    let fold := bit v 2
    let servo := bit v 3
    match bits v 1 0 with
    | 1 => s.after (execTimeCommitNow fold servo s)
    | 2 => s.after (execTimeCommitAt fold servo s)
    | 3 => s.after (execTimeCommitCancel s)
    | _ => s
  | .TMB_SYNC =>
    match bits v 17 16 with
    | 1 => s.after (execClaimLock s)
    | 2 => s.after (execEnterHoldover s)
    | 3 => s.after (execDeclareLost s)
    | _ => s
  | .TMB_PPSCFG => (s.plainWrite r i j v).ppsGate
  | .TTU_SCHED_CMD =>
    let n := bits v 28 24
    let w := bits v 23 0
    match bits v 31 29 with
    | 0 => s.after (execTtuSet n s)
    | 1 => s.after (execTtuClear n s)
    | 2 => s.after (execTtuToggle n s)
    | 3 => s.after (execTtuPulse n w s)
    | 4 => s.after (execTtuFire n s)
    | 5 => s.after (execTtuStartPeriodic n w s)
    | 6 => s.after (execTtuStop n s)
    | _ => s.after (execTtuFlush n s)
  | _ => s.plainWrite r i j v

/-- MAC_, SWC_ and PRP_ (chapters 04 and 05). UNTAG of SWC_PCFG is reserved for the fabric inputs 12 to 14. -/
def State.netWrite (s : State) (r : Reg) (i j v : Nat) : State :=
  match r with
  | .MAC_CFG =>
    let old := s
    let was := s.flag .MAC_CFG 31 i
    let s := s.plainWrite r i j v
    (if bit v 31 then if was then s else s.after (execAdminDown i false s)
     else if was then s.setPrt i { s.prt i with lockAt := s.frc } else s).lineFrom old i
  | .MAC_FILTCTL =>
    let s := s.plainWrite r i j v
    match bits v 1 0 with
    | 1 => s.after (execFiltReqNormal i s)
    | 2 => s.after (execFiltReqTest i s)
    | 3 => s.after (execFiltReqRecovery i s)
    | _ => s
  | .MAC_CNTCLR => s.after (execMacCntclr i v s)
  | .MAC_FENT => s.commitEntry i j v
  | .MAC_FMASK => s.holdMask i j v
  | .SWC_FDBCMD => if bits v 1 0 = 1 then s.after (execFdbRead s) else if bits v 1 0 = 2 then s.after (execFdbWrite s) else s
  | .SWC_PCFG => s.plainWrite r i j (if 12 ≤ i then v % 2 ^ 31 else v)
  | .SWC_INBUF => s.after (execInbufWrite i j v s)
  | .PRP_NODECFG => s.after (execStModeWrite (bit v 0) s)
  | .PRP_CNTCLR => (s.onBit v 0 execPrpClearPb).onBit v 1 execPrpClearSt
  | _ => s.plainWrite r i j v

/-- SVX_, FLT_, ELA_, PNT_, GPB_ and GSB_ (chapters 06 to 09). -/
def State.dataWrite (s : State) (r : Reg) (i j v : Nat) : State :=
  match r with
  | .SVX_SCLR => (s.onBit v 0 execSvxClearSel).onBit v 1 execSvxClearAll
  | .SVX_DISCPOP => s.onBit v 0 execDiscoveryPop
  | .FLT_DCFRZ =>
    match bits v 31 30 with
    | 1 => s.after (execDcFreeze (bit v 29) (bits v 13 0) s)
    | 2 => s.after (execDcRelease (bit v 29) (bits v 13 0) s)
    | 3 => s.after (execDcCancel s)
    | _ => s
  | .FLT_SCLR => (s.onBit v 0 execFltClearSel).onBit v 1 execFltClearAll
  | .ELA_GRPCTL => s.onBit v 0 (execArmPreset i)
  | .ELA_TCLR => (s.onBit v 0 execElaClearSel).onBit v 1 execElaClearAll
  | .ELA_TINJ => s.after (execTinjWrite (bits v 31 16) (bits v 15 8) s)
  | .PNT_CMD => if bits v 1 0 = 1 then s.after (execPntRead s) else if bits v 1 0 = 2 then s.after (execPntWrite s) else s
  | .GPB_PCLR => (s.onBit v 0 execGpbClearSel).onBit v 1 execGpbClearAll
  | .GSB_SCLR => (s.onBit v 0 execGsbClearSel).onBit v 1 execGsbClearAll
  | _ => s.plainWrite r i j v

/-- SCH_, LOP_, ADC_ and CAN_ (chapters 11 to 14). CHG_STAGE reads its package from DRAM: it is the row CHG_STAGE. -/
def State.ctlWrite (s : State) (r : Reg) (i j v : Nat) : State :=
  match r with
  | .SCH_TCMD =>
    match bits v 2 0 with
    | 1 => s.after (execStartWarm s)
    | 2 => s.after (execStartCold s)
    | 3 => s.after (execSchStop s)
    | 5 => s.after (execChgCommit s)
    | 6 => s.after (execChgDiscard s)
    | _ => s
  | .SCH_TCLR => (s.onBit v 0 execSchClearSel).onBit v 1 execSchClearAll
  | .LOP_CMD =>
    match bits v 2 0 with
    | 1 => s.after (execLoopRun i s)
    | 2 => s.after (execLoopHold i s)
    | 3 => s.after (execLoopSafe i s)
    | 4 => s.after (execLoopOff i s)
    | _ => s
  | .LOP_COEF => s.after (execCoefWrite i j v s)
  | .LOP_GAIN => s.after (execGainWrite i j v s)
  | .ADC_REF => s.after (execReferenceEnable (bit v 0) s)
  | .ADC_CFG =>
    let was := s.flag .ADC_CFG 31 i
    let s := s.plainWrite r i j v
    if was && !bit v 31 then s.after (execConverterDisable i s) else s
  | .ADC_CMD =>
    match bits v 2 0 with
    | 1 => s.after (execAdcScan i s)
    | 2 => s.after (execAdcInject i s)
    | 3 => s.after (execAdcCal i s)
    | 4 => s.after (execAdcStop i s)
    | _ => s
  | .CAN_CFG => s.canCfgWrite i v
  | .CAN_NBT | .CAN_DBT => if (s.canC i).init then s.plainWrite r i j v else s.setFlag .CAN_STAT 2 i
  | .CAN_TXCMD => let s := s.after (execCanTxReq i (bits v 7 0) s); s.after (execCanTxCancel i (bits v 15 8) none s)
  | .CAN_RRD => s.after (execRrdWrite i v s)
  | .CAN_NODE => s.canNodeWrite i j (v &&& 0x9FFFFFFF1FFFFFFF)
  | _ => s.plainWrite r i j v

/-- PAR_, SGE_, KVS_, ATT_ and TMP_ (chapters 10 and 16). IMPORT and APPLY read what they name from DRAM: they are rows of
their own. -/
def State.keyWrite (s : State) (r : Reg) (i j v : Nat) : State :=
  match r with
  | .PAR_CFG => if s.paired then s else s.plainWrite r i j v
  | .PAR_TCMD =>
    match bits v 2 0 with
    | 1 => s.after (execSilence s)
    | 2 => s.after (execUnsilence s)
    | 3 => s.after (execJoin s)
    | 4 => s.after (execShip s)
    | 5 => s.after (execTakeover s)
    | 6 => s.after (execPairRelease s)
    | _ => s
  | .PAR_TCLR => ((s.onBit v 0 execParClearSel).onBit v 1 execParClearAll).onBit v 2 execParClearLink
  | .SGE_STAT => s.smbSettle (s.plainWrite r i j v)
  | .KVS_CMD =>
    match bits v 3 0 with
    | 1 => s.after (execDerive s)
    | 3 => s.after (execGenerate s)
    | 4 => s.after (execVerify s)
    | 5 => s.after (execKeyCommit s)
    | 6 => s.after (execKeyDiscard s)
    | 7 => s.after (execInvalidate s)
    | 8 => s.after (execVaultInit s)
    | _ => s
  | .ATT_CMD => s.onBit v 0 execRequest
  | .TMP_CFG =>
    let old := s.rg .TMP_CFG
    let v := if bit old 31 then v ||| bits old 6 0 else v
    s.smbSettle (s.plainWrite r i j v)
  | .TMP_CMD => s.onBit v 0 (execZeroise (bits v 15 8))
  | _ => s.plainWrite r i j v

/-- QCR_, DCR_, LTL_ and EVR_ (chapters 01 and 17). -/
def State.recWrite (s : State) (r : Reg) (i j v : Nat) : State :=
  match r with
  | .QCR_CLR => (s.onBit v 0 execQcrClrSel).onBit v 1 execQcrClrBnd
  | .DCR_CMD =>
    match bits v 2 0 with
    | 1 => s.after (execDcrArm s)
    | 2 => s.after (execDcrDisarm s)
    | 3 => s.after (execDcrFire s)
    | 4 => s.after (execDcrFree s)
    | _ => s
  | .LTL_INC => s.after (execLtlInc (bits v 31 24) (bits v 15 0) s)
  | .LTL_HADD => s.after (execLtlHadd (bits v 31 27) (bits v 26 21) (bits v 15 0) s)
  | .EVR_SWTRIG => s.after (execSwtrig (bits v 31 28) (bits v 27 0) s)
  | _ => s.plainWrite r i j v

/-- TEN_CMD, given through a host function of a link or by the supervisor. -/
def State.tenCmdWrite (s : State) (t : Nat) (via : Option Nat) (v : Nat) : State :=
  match bits v 2 0 with
  | 1 => s.after (execStart t via s)
  | 2 => s.after (execReset t via s)
  | 3 => s.after (execFreeze t via s)
  | 4 => s.after (execResume t via s)
  | 5 => s.after (execSave t via s)
  | 6 => s.after (execRestore t via s)
  | 7 => s.after (execRelease t via s)
  | _ => s

/-- The tenant windows and link pages (chapter 15, R415): the doorbells ignore supervisor writes. -/
def State.windowWrite (s : State) (q : Requester) (r : Reg) (i j v : Nat) : State :=
  let host := q.host.isSome
  match r with
  | .TEN_CMD => s.tenCmdWrite i q.via v
  | .MBX_H2D_DB => if host then let s := s.setMailbox i { s.mailbox i with pf := q.isPf }; s.after (execDoorbell i (v % 256) s) else s
  | .MBX_D2H_DB => if host then s.after (execD2hSlotFree i (v % 256) s) else s
  | .TEN_PTCMD =>
    if bits v 1 0 = 1 then s.after (execTenPtRead i q.via s) else if bits v 1 0 = 2 then s.after (execTenPtWrite i q.via s) else s
  | .QP_SQTAIL => (s.setQp i j { s.qp i j with pf := q.isPf }).sqTail i j v
  | .QP_CQHEAD => s.cqHead i j v
  | .QP_CFG => s.qpEnable i j v
  | _ => s.plainWrite r i j v

/-- A write of a whole register. Registers lie in blocks by their addresses. -/
def State.regWrite (s : State) (q : Requester) (r : Reg) (i j v : Nat) : State :=
  let b := (regInfo r).base
  if b < 0x20000 then s.sysWrite r i j v
  else if b < 0x30000 then s.plainWrite r i j v
  else if b < 0x50000 then s.timeWrite r i j v
  else if b < 0x80000 then s.netWrite r i j v
  else if b < 0xE0000 then s.dataWrite r i j v
  else if b < 0x180000 then s.ctlWrite r i j v
  else if b < 0x1E0000 then s.keyWrite r i j v
  else if b < 0x10000000 then s.recWrite r i j v
  else s.windowWrite q r i j v

/-! Bus writes (R10) -/

/-- A write of a register word by a requester: the low word of a 64-bit register is held until the high word is written; a
high word without a held low word leaves the low word as it is. -/
def State.busWrite (s : State) (q : Requester) (a : Nat) (w : RegAt) (v : W32) : State :=
  if (regInfo w.reg).wide then
    let p := s.port q
    if w.high then
      let base := a - 4
      let low := ((p.held.find? fun e => decide (e.1 = base)).map fun e => e.2).getD (wordOf (readReg s w.reg w.i w.j) false)
      let s := s.setPort q { p with held := p.held.filter fun e => decide (e.1 ≠ base) }
      s.regWrite q w.reg w.i w.j (v.toNat * 2 ^ 32 + low.toNat)
    else s.setPort q { p with held := (a, v) :: p.held.filter fun e => decide (e.1 ≠ a) }
  else s.regWrite q w.reg w.i w.j v.toNat

/-- Memory that a requester may write: a host its request slots, the supervisor and JTAG the CAN transmit buffers. -/
def State.ramWritable (s : State) (q : Requester) (a : Nat) : Bool :=
  s.ramAt a &&
    if q.host.isSome then decide (0x10000000 ≤ a ∧ 0x400 ≤ a % 0x10000 ∧ a % 0x10000 < 0x600)
    else decide (0x170000 ≤ a ∧ a < 0x171000)

/-- A write at an address; one that names no register has no effect (R11). Walnut only reads. -/
def State.busWriteAt (s : State) (q : Requester) (a : Nat) (v : W32) : State :=
  match q, s.busAddr q a with
  | .walnut, _ => s
  | _, none => s
  | _, some x => match s.regAt x with
    | some w => s.busWrite q x w v
    | none => if s.ramWritable q x then { s with mem := memPutAll s.mem x (leBytes 4 v.toNat) } else s

/-- A write of a low word: held until the high word is written. -/
def execReg64LowWrite (q : Requester) (a : Nat) (v : W32) (s : State) := done (s.busWriteAt q a v)

/-- A write of a high word: it takes effect with the held low word, or alone. -/
def execReg64HighWrite (q : Requester) (a : Nat) (v : W32) (s : State) := done (s.busWriteAt q a v)

/-- A write of `size` bytes at an address: narrower than 32 bits it has no effect (R324, R411). -/
def execRegisterWrite (q : Requester) (a size : Nat) (v : W32) (s : State) :=
  if size = 4 then done (s.busWriteAt q a v) else done s

/-- A write of the high word of MAC_FENT(n,e) (R99): the entry and its mask take effect together. -/
def execFilterEntryWrite (q : Requester) (n e : Nat) (hi : W32) (s : State) :=
  if n < 8 ∧ e < 16 then done (s.busWriteAt q (regAddr .MAC_FENT n e + 4) hi) else done s

/-! Accesses of one cycle (R412, R427) -/

/-- The requester of a register access. -/
def accessOf : Instr → Option Requester
  | .reg64LowRead q _ | .reg64HighRead q _ | .reg64LowWrite q _ _ | .reg64HighWrite q _ _ | .registerWrite q _ _ _
  | .filterEntryWrite q _ _ _ | .swcIcntRead q _ _ | .svxUnknownRead q | .svxParseRead q | .elaGrpevRead q _
  | .pntRefusedRead q | .pntBadhandleRead q | .pntStaleRead q | .gsbUnknownRead q | .schTickevRead q | .lopEvRead q
  | .lopFcntRead q _ | .adcResRead q _ | .adcEvRead q _ | .canCntRead q _ _ | .tenCntRead q _ _ | .evrCntRead q _
  | .dcrUcntRead q _ => some q
  | _ => none

/-- The place of a requester among those whose accesses arrive in one cycle (R412). -/
def Requester.place : Requester → Nat
  | .supervisor => 1
  | .jtag => 2
  | .vf _ _ => 3
  | .pf _ => 4
  | .walnut => 5

/-- The place of a command among those of one cycle: register accesses by requester, then SMBus reads (R427). DESIGN CHOICE:
what is no access comes first; where it meets an access in a register or counter, R9 decides. -/
def placeOf (i : Instr) : Nat :=
  match accessOf i, i with
  | some q, _ => q.place
  | none, .smbusBlockRead _ => 6
  | none, _ => 0

/-- The commands of one cycle in the order in which they take effect. -/
def cycleOrder (cs : List Instr) : List Instr :=
  (List.range 7).flatMap fun k => cs.filter fun i => decide (placeOf i = k)

/-- Commands that arrive in one cycle join the queue. -/
def State.arrive (s : State) (cs : List Instr) : State := { s with pending := s.pending ++ cycleOrder cs }

end Sys2Proof.Machine
end

