-- ==== Sys2Proof/Machine/Pins.lean ====
section
/-! DEFINITION. The states of the output pins (R421, Table 20-6), each as a function of the module's state. -/
namespace Sys2Proof.Machine

/-- What an output pin does. -/
inductive PinState where
  | low | high | released
  /-- High-impedance, with the internal pull-down. -/
  | pullDown
  | highZ
  /-- As a CAN controller drives its bus, or TDO in the Shift states. -/
  | driven
deriving DecidableEq, Repr

/-- The time from power-on to the end of phase 1, and while SYSRST_N is low. -/
def State.pinsQuiet (s : State) : Bool := !bit s.pwr.phases 0 || s.pwr.sysrst

def levelPin (b : Bool) : PinState := if b then .high else .low

def State.trigoutPin (s : State) (n : Nat) : PinState :=
  if s.pinsQuiet || !s.chPinEn n then .pullDown else levelPin (s.ch n).level

def State.ppsPin (s : State) : PinState := if s.pinsQuiet then .pullDown else levelPin s.tb.ppsHigh

def State.canTxdPin (s : State) (k : Nat) : PinState :=
  if s.pinsQuiet || !s.flag .CAN_CFG 1 k then .high else .driven

/-- An open-drain output that is low where a condition holds. -/
def openDrain (b : Bool) : PinState := if b then .low else .released

def State.rstoutPin (s : State) : PinState := openDrain (s.pinsQuiet || s.pwr.rstOut)
def State.thermPin (s : State) : PinState := openDrain (!s.pinsQuiet && s.pwr.hot)
def State.smbAlertPin (s : State) : PinState := openDrain (!s.pinsQuiet && s.pwr.smbAlert)

/-- HST_CLKREQ_N of a link: low from the end of phase 2 where HOST provides the link. -/
def State.clkreqPin (s : State) (link : Nat) : PinState :=
  openDrain (!s.pinsQuiet && bit s.pwr.phases 1 && s.linkThere link)

/-- TDO, in a Shift state of the test access port or out of one. -/
def State.tdoPin (s : State) (shift : Bool) : PinState := if s.pinsQuiet || !shift then .highZ else .driven

end Sys2Proof.Machine
end

