-- ==== Sys2Proof/Machine/Sage.lean ====
section
/-! DEFINITION. Sage: the self-tests and the health report (R249, R250, R391, R424). What a test finds comes with its
command. -/
namespace Sys2Proof.Machine

/-- A test fails: its bit of SGE_STAT, and Walnut source 26 (R249). -/
def State.testFail (s : State) (b : Nat) : State := (s.setFlag .SGE_STAT b).fire 26 b

/-- A tile whose 32 slots are all in use (Table 10-8). -/
def State.tileFull (s : State) (tile : Nat) : Bool := (List.range 32).all fun k => (s.slotInUse tile k).isSome

/-- A tile that the BIST covers: BISTEN or a pass due after a domain reset (R389), enabled, its quarter on, with an idle slot. -/
def State.bistable (s : State) (tile : Nat) : Bool :=
  decide (tile < 128) && (s.flag .SGE_CTL 0 || bit s.pwr.bistDue tile) && s.flag .ELA_TILECFG 31 tile && s.domOn (5 + tile / 32) && !s.tileFull tile

/-- Tile BIST. -/
def execTileBist (tile : Nat) (fail : Bool) (s : State) :=
  if !s.bistable tile then done s
  else
    let s := { s with pwr := { s.pwr with bistDue := clrBit s.pwr.bistDue tile } }
    let s := { s with sge := { s.sge with tested := Tbl.put none s.sge.tested tile (some s.frc) } }
    if fail then done (((s.setFlag .SGE_TILEFAIL (tile % 32) (tile / 32)).testFail 0).almond 21) else done s

/-- An uncorrectable error in the partition or the data of a tenant's running scheme program stops it (Table 11-2). -/
def State.schMemError (s : State) (t : Nat) : State :=
  if (s.schT t).st = SchSt.run then (s.schHalt t 3).schDispatch (s.schT t).core else s

/-- SRAM scrub: `corr` single-bit errors corrected; an uncorrectable error may lie in slot memory of a tenant (R195) or in
its scheme partition (R265). -/
def execSramScrub (corr : Nat) (uncorr : Bool) (slot : Option SramPlace) (s : State) :=
  if !s.flag .SGE_CTL 1 then done s
  else
    let s := { s with sge := { s.sge with sramCorr := satAdd 32 s.sge.sramCorr corr } }
    if !uncorr then done s
    else
      let s := (s.testFail 1).almond 12
      done (match slot with | some (.slot t) => s.slotError t | some (.part t) => s.schMemError t | none => s)

/-- DRAM scrub: an uncorrectable error may lie in the scheme data of a tenant (R265). -/
def execDramScrub (corr : Nat) (uncorr : Option DramPlace) (s : State) :=
  if !s.flag .SGE_CTL 1 then done s
  else
    let s := { s with sge := { s.sge with dramCorr := satAdd 32 s.sge.dramCorr corr } }
    match uncorr with
    | none => done s
    | some x =>
      let s := (s.testFail 2).almond 13
      done (match x with | .data t => s.schMemError t | .other => s)

/-- Port loopback: a port with role OFF, or SPARE and DOWN. -/
def execPortLoopback (n : Nat) (fail : Bool) (s : State) :=
  let idle := s.role n = Role.off ∨ (s.role n = Role.spare ∧ (s.prt n).up = false)
  if s.flag .SGE_CTL 3 ∧ n < 8 ∧ idle ∧ fail then done (s.testFail 3) else done s

/-- Domains that a rail feeds (Table 18-2); the rails that the table gives to no domain count for none. -/
def railDomains (rails : Nat) : Nat :=
  (if bit rails 0 then 1 else 0) ||| (if bit rails 1 then 2 ^ 14 else 0) ||| (if bit rails 3 then 0xAFFE else 0) |||
  (if bit rails 4 ∨ bit rails 5 then 2 ^ 12 else 0)

/-- Regulator check (R391): rails outside their windows, and VIN_SERDES outside its own. -/
def execRegulatorCheck (rails : Nat) (serdesLow : Bool) (s : State) :=
  if !s.flag .SGE_CTL 2 then done s
  else
    let old := s
    let rails := rails % 64
    let s := { s with pwr := { s.pwr with regOut := rails, serdesLow := serdesLow } }
    let s := { s with sge := { s.sge with regFault := railDomains rails } }
    let s := if serdesLow then s.setFlag .PWR_STAT 3 else s
    let s := if serdesLow && !old.pwr.serdesLow then (List.range 8).foldl (fun (s : State) n => if (s.prt n).up then s.linkDown n else s) s else s
    let s := if rails ≠ 0 then ((s.setFlag .PWR_STAT 1).testFail 4).almond 22 else s
    done (old.smbSettle s)

/-- Temperature check: the highest junction sensor in 0.1 °C; THERMAL above 105 °C; THERM_N (R424). -/
def execTemperatureCheck (temp : Int) (s : State) :=
  if !s.flag .SGE_CTL 2 then done s
  else
    let old := s
    let s := { s with sge := { s.sge with temp := temp } }
    let s := if 1050 < temp then (s.testFail 5).almond 23 else s
    let from_ := if 1000 ≤ temp then none else match s.pwr.coolFrom with | some f => some f | none => some s.frc
    let cool := match from_ with | some f => decide (f + 10 * ms ≤ s.frc) | none => false
    let hot := if 1050 ≤ temp then true else s.pwr.hot && !cool
    done (old.smbSettle { s with pwr := { s.pwr with coolFrom := from_, hot := hot } })

/-! Health reports (R250) -/

def Sage.uncorr (s : State) : Bool := s.flag .SGE_STAT 1 || s.flag .SGE_STAT 2

/-- Enabled tiles that no BIST has covered in the last 10 s. -/
def State.tilesUntested (s : State) : Nat :=
  ((List.range 128).filter fun t => s.flag .ELA_TILECFG 31 t &&
    (match Tbl.get none s.sge.tested t with | some f => decide (f + 10 * sec < s.frc) | none => true)).length

def popcount (n v : Nat) : Nat := ((List.range n).filter fun i => bit v i).length

/-- The 64 bytes of Table 10-9. -/
def State.healthBytes (s : State) : List Byte :=
  let flags := b2n s.pwr.warm + 2 * b2n s.sge.lockstep + 4 * b2n (s.flag .SGE_STAT 0) + 8 * b2n (Sage.uncorr s) +
    16 * b2n (s.flag .SGE_STAT 4) + 32 * b2n (s.flag .SGE_STAT 5) + 64 * b2n s.sge.suspect
  let states := syncCode s.tb.sync + 4 * pairCode s.par.st
  let up := ((List.range 8).map fun n => if (s.prt n).up then 2 ^ n else 0).foldl (· + ·) 0
  let failed := ((List.range 4).map fun w => popcount 32 (s.rg .SGE_TILEFAIL w)).foldl (· + ·) 0
  let blocked := (s.ela.filter fun e => decide (e.2.st = .blocked)).length
  let valid := (s.svx.streams.filter fun e => decide (e.2.st = .valid)).length
  let synced := (s.svx.streams.filter fun e => s.streamSynced e.1).length
  let active := (s.par.ten.filter fun e => decide (e.2.cst = 1) && s.classC e.1).length
  let open_ := (s.par.ten.filter fun e => e.2.open_).length
  leBytes 4 s.sge.seq ++ leBytes 1 flags ++ leBytes 1 states ++ leBytes 1 (s.fld .SGE_SCORE 7 0) ++ leBytes 1 up ++
    leBytes 8 (stampNs s.dt) ++ leBytes 2 failed ++ leBytes 2 s.tilesUntested ++ leBytes 4 s.sge.sramCorr ++
    leBytes 4 s.sge.dramCorr ++ leBytes 2 blocked ++ leBytes 2 valid ++ leBytes 2 synced ++
    leBytes 2 s.hRunning.length ++ leBytes 2 active ++ leBytes 2 (unsigned 16 s.sge.temp) ++
    leBytes 2 s.sge.regFault ++ leBytes 2 open_ ++ List.replicate 20 0

/-- Bytes as 32-bit words, the first byte in bits [7:0]. -/
def bytesToWords (n : Nat) (l : List Byte) : List W32 :=
  (List.range n).map fun i => BitVec.ofNat 32 (ofLe ((l.drop (4 * i)).take 4))

/-- Every 100 ms the report is written, sent, kept for the next beacon, and offered to the physical functions. -/
def execHealthReport (s : State) :=
  if !s.pwr.main || decide (s.frc < s.sge.reportAt + 100 * ms) then done s
  else
    let words := bytesToWords 16 s.healthBytes
    let s := { s with sge := { s.sge with
      lrep := words, seq := (s.sge.seq + 1) % 2 ^ 32, reportAt := s.frc, sramCorr := 0, dramCorr := 0, lockstep := false, suspect := false,
      beacon := true } }
    let s := (s.setFlag .SGE_STAT 6).parSend (.health words)
    done ((List.range 4).foldl (fun (s : State) h =>
      if (Tbl.get {} s.links h).up then s.emit (.msix h 0 3) else s) s)

/-- PREP_LOST: no partner report has arrived for 300 ms. -/
def execPartnerReportLost (s : State) :=
  match s.sge.peerAt with
  | some f =>
    if f + 300 * ms ≤ s.frc && !s.sge.peerLost then
      done ({ s with sge := { s.sge with peerLost := true } }.setFlag .SGE_STAT 8)
    else done s
  | none =>
    if 300 * ms ≤ s.frc && !s.sge.peerLost then
      done ({ s with sge := { s.sge with peerLost := true } }.setFlag .SGE_STAT 8)
    else done s

end Sys2Proof.Machine
end

