-- ==== Sys2Proof/Machine/Dispatch.lean ====
section
/-! DEFINITION. Which meaning each command has. -/
namespace Sys2Proof.Machine

def exec (i : Instr) (s : State) : Host.Outcome State Fault Refusal :=
  match i with
  | .reg64LowRead q a => Sys2Proof.Machine.execReg64LowRead q a s
  | .reg64HighRead q a => Sys2Proof.Machine.execReg64HighRead q a s
  | .reg64LowWrite q a v => Sys2Proof.Machine.execReg64LowWrite q a v s
  | .reg64HighWrite q a v => Sys2Proof.Machine.execReg64HighWrite q a v s
  | .registerWrite q a size v => Sys2Proof.Machine.execRegisterWrite q a size v s
  | .lockstepMismatch pair => Sys2Proof.Machine.execLockstepMismatch pair s
  | .supRestartComplete => Sys2Proof.Machine.execSupRestartComplete s
  | .creditReturn bnd owner gen => Sys2Proof.Machine.execCreditReturn bnd owner gen s
  | .outputCreditExpiry n tap => Sys2Proof.Machine.execOutputCreditExpiry n tap s
  | .tenantDrainComplete t => Sys2Proof.Machine.execTenantDrainComplete t s
  | .qcrClrSel => Sys2Proof.Machine.execQcrClrSel s
  | .qcrClrBnd => Sys2Proof.Machine.execQcrClrBnd s
  | .powerOn standby pins vbat ref => Sys2Proof.Machine.execPowerOn standby pins vbat ref s
  | .supervisorPhase bankA bankB => Sys2Proof.Machine.execSupervisorPhase bankA bankB s
  | .imageLoad bankA bankB => Sys2Proof.Machine.execImageLoad bankA bankB s
  | .confirm => Sys2Proof.Machine.execConfirm s
  | .rollfloorWrite v => Sys2Proof.Machine.execRollfloorWrite v s
  | .seal => Sys2Proof.Machine.execSeal s
  | .sealTimeout => Sys2Proof.Machine.execSealTimeout s
  | .stage r => Sys2Proof.Machine.execStage r s
  | .stageDone k => Sys2Proof.Machine.execStageDone k s
  | .commit => Sys2Proof.Machine.execCommit s
  | .commitDone k => Sys2Proof.Machine.execCommitDone k s
  | .discard => Sys2Proof.Machine.execDiscard s
  | .amdActivation t => Sys2Proof.Machine.execAmdActivation t s
  | .timeCommitNow fold servo => Sys2Proof.Machine.execTimeCommitNow fold servo s
  | .timeCommitAt fold servo => Sys2Proof.Machine.execTimeCommitAt fold servo s
  | .timeCommitCancel => Sys2Proof.Machine.execTimeCommitCancel s
  | .timeCommitApply => Sys2Proof.Machine.execTimeCommitApply s
  | .claimLock => Sys2Proof.Machine.execClaimLock s
  | .enterHoldover => Sys2Proof.Machine.execEnterHoldover s
  | .declareLost => Sys2Proof.Machine.execDeclareLost s
  | .holdTimerExpiry => Sys2Proof.Machine.execHoldTimerExpiry s
  | .holdoverLimitExpiry => Sys2Proof.Machine.execHoldoverLimitExpiry s
  | .referenceLost => Sys2Proof.Machine.execReferenceLost s
  | .referenceRestored => Sys2Proof.Machine.execReferenceRestored s
  | .rtcSecond => Sys2Proof.Machine.execRtcSecond s
  | .syncRx => Sys2Proof.Machine.execSyncRx s
  | .pdelayReq => Sys2Proof.Machine.execPdelayReq s
  | .pdelayResp => Sys2Proof.Machine.execPdelayResp s
  | .ptpUnsupported => Sys2Proof.Machine.execPtpUnsupported s
  | .ptpGeneral => Sys2Proof.Machine.execPtpGeneral s
  | .pdelayInterval n => Sys2Proof.Machine.execPdelayInterval n s
  | .ppsOutRise => Sys2Proof.Machine.execPpsOutRise s
  | .ppsOutFall => Sys2Proof.Machine.execPpsOutFall s
  | .ppsInEdge => Sys2Proof.Machine.execPpsInEdge s
  | .ppsLost => Sys2Proof.Machine.execPpsLost s
  | .ttuSet n => Sys2Proof.Machine.execTtuSet n s
  | .ttuClear n => Sys2Proof.Machine.execTtuClear n s
  | .ttuToggle n => Sys2Proof.Machine.execTtuToggle n s
  | .ttuPulse n width => Sys2Proof.Machine.execTtuPulse n width s
  | .ttuFire n => Sys2Proof.Machine.execTtuFire n s
  | .ttuStartPeriodic n width => Sys2Proof.Machine.execTtuStartPeriodic n width s
  | .ttuStop n => Sys2Proof.Machine.execTtuStop n s
  | .ttuFlush n => Sys2Proof.Machine.execTtuFlush n s
  | .timedOutputRequest => Sys2Proof.Machine.execTimedOutputRequest s
  | .entryExecute n => Sys2Proof.Machine.execEntryExecute n s
  | .periodicInstant n => Sys2Proof.Machine.execPeriodicInstant n s
  | .frameReceive n phi f lockLost fcsOk corr uncorr => Sys2Proof.Machine.execFrameReceive n phi f lockLost fcsOk corr uncorr s
  | .pause n quanta => Sys2Proof.Machine.execPause n quanta s
  | .pfc n enables quanta => Sys2Proof.Machine.execPfc n enables quanta s
  | .pauseHoldEnd n => Sys2Proof.Machine.execPauseHoldEnd n s
  | .pauseCapEnd n => Sys2Proof.Machine.execPauseCapEnd n s
  | .pauseIgnoreEnd n => Sys2Proof.Machine.execPauseIgnoreEnd n s
  | .filtReqNormal n => Sys2Proof.Machine.execFiltReqNormal n s
  | .filtReqTest n => Sys2Proof.Machine.execFiltReqTest n s
  | .filtReqRecovery n => Sys2Proof.Machine.execFiltReqRecovery n s
  | .filterEntryWrite q n e hi => Sys2Proof.Machine.execFilterEntryWrite q n e hi s
  | .lossOfLock n receiving lf rf => Sys2Proof.Machine.execLossOfLock n receiving lf rf s
  | .lockRegained n => Sys2Proof.Machine.execLockRegained n s
  | .upHoldExpiry n => Sys2Proof.Machine.execUpHoldExpiry n s
  | .downFiltExpiry n => Sys2Proof.Machine.execDownFiltExpiry n s
  | .adminDown n receiving => Sys2Proof.Machine.execAdminDown n receiving s
  | .rxIdleTimeout n => Sys2Proof.Machine.execRxIdleTimeout n s
  | .macCntclr n mask => Sys2Proof.Machine.execMacCntclr n mask s
  | .frameTransmit n phi => Sys2Proof.Machine.execFrameTransmit n phi s
  | .discardTick => Sys2Proof.Machine.execDiscardTick s
  | .stModeWrite v => Sys2Proof.Machine.execStModeWrite v s
  | .fdbRead => Sys2Proof.Machine.execFdbRead s
  | .fdbWrite => Sys2Proof.Machine.execFdbWrite s
  | .inbufWrite p c v => Sys2Proof.Machine.execInbufWrite p c v s
  | .swcIcntRead q n c => Sys2Proof.Machine.execSwcIcntRead q n c s
  | .prpClearPb => Sys2Proof.Machine.execPrpClearPb s
  | .prpClearSt => Sys2Proof.Machine.execPrpClearSt s
  | .svFrame => Sys2Proof.Machine.execSvFrame s
  | .streamTimeout n => Sys2Proof.Machine.execStreamTimeout n s
  | .svxClearSel => Sys2Proof.Machine.execSvxClearSel s
  | .svxClearAll => Sys2Proof.Machine.execSvxClearAll s
  | .discoveryPop => Sys2Proof.Machine.execDiscoveryPop s
  | .svxUnknownRead q => Sys2Proof.Machine.execSvxUnknownRead q s
  | .svxParseRead q => Sys2Proof.Machine.execSvxParseRead q s
  | .filterStep n => Sys2Proof.Machine.execFilterStep n s
  | .dcFreeze now at_ => Sys2Proof.Machine.execDcFreeze now at_ s
  | .dcRelease now at_ => Sys2Proof.Machine.execDcRelease now at_ s
  | .dcCancel => Sys2Proof.Machine.execDcCancel s
  | .fltClearSel => Sys2Proof.Machine.execFltClearSel s
  | .fltClearAll => Sys2Proof.Machine.execFltClearAll s
  | .groupCycleStart g => Sys2Proof.Machine.execGroupCycleStart g s
  | .freewheelStart g => Sys2Proof.Machine.execFreewheelStart g s
  | .armPreset g => Sys2Proof.Machine.execArmPreset g s
  | .fetch tile slot => Sys2Proof.Machine.execFetch tile slot s
  | .coreWake tile slot => Sys2Proof.Machine.execCoreWake tile slot s
  | .windowOpen tile slot => Sys2Proof.Machine.execWindowOpen tile slot s
  | .programCommit tile slot stalls => Sys2Proof.Machine.execProgramCommit tile slot stalls s
  | .budgetStop tile slot stalls => Sys2Proof.Machine.execBudgetStop tile slot stalls s
  | .windowClose tile slot => Sys2Proof.Machine.execWindowClose tile slot s
  | .slotEccError t => Sys2Proof.Machine.execSlotEccError t s
  | .elaClearSel => Sys2Proof.Machine.execElaClearSel s
  | .elaClearAll => Sys2Proof.Machine.execElaClearAll s
  | .tinjWrite extra count => Sys2Proof.Machine.execTinjWrite extra count s
  | .elaGrpevRead q g => Sys2Proof.Machine.execElaGrpevRead q g s
  | .pntRead => Sys2Proof.Machine.execPntRead s
  | .pntWrite => Sys2Proof.Machine.execPntWrite s
  | .pointWrite => Sys2Proof.Machine.execPointWrite s
  | .pntRefusedRead q => Sys2Proof.Machine.execPntRefusedRead q s
  | .pntBadhandleRead q => Sys2Proof.Machine.execPntBadhandleRead q s
  | .pntStaleRead q => Sys2Proof.Machine.execPntStaleRead q s
  | .publicationRequest => Sys2Proof.Machine.execPublicationRequest s
  | .pendingRelease n => Sys2Proof.Machine.execPendingRelease n s
  | .retransmission n => Sys2Proof.Machine.execRetransmission n s
  | .gooseFrame => Sys2Proof.Machine.execGooseFrame s
  | .subscriptionTimeout n => Sys2Proof.Machine.execSubscriptionTimeout n s
  | .gpbClearSel => Sys2Proof.Machine.execGpbClearSel s
  | .gpbClearAll => Sys2Proof.Machine.execGpbClearAll s
  | .gsbClearSel => Sys2Proof.Machine.execGsbClearSel s
  | .gsbClearAll => Sys2Proof.Machine.execGsbClearAll s
  | .gsbUnknownRead q => Sys2Proof.Machine.execGsbUnknownRead q s
  | .hello => Sys2Proof.Machine.execHello s
  | .heartbeat => Sys2Proof.Machine.execHeartbeat s
  | .digest => Sys2Proof.Machine.execDigest s
  | .summary => Sys2Proof.Machine.execSummary s
  | .notice => Sys2Proof.Machine.execNotice s
  | .seat => Sys2Proof.Machine.execSeat s
  | .joinMessage => Sys2Proof.Machine.execJoinMessage s
  | .snapshot => Sys2Proof.Machine.execSnapshot s
  | .health => Sys2Proof.Machine.execHealth s
  | .capfire => Sys2Proof.Machine.execCapfire s
  | .supmsg => Sys2Proof.Machine.execSupmsg s
  | .beacon => Sys2Proof.Machine.execBeacon s
  | .helloSend => Sys2Proof.Machine.execHelloSend s
  | .heartbeatSend => Sys2Proof.Machine.execHeartbeatSend s
  | .beaconSend => Sys2Proof.Machine.execBeaconSend s
  | .silenceDetect => Sys2Proof.Machine.execSilenceDetect s
  | .beaconSilenceDetect => Sys2Proof.Machine.execBeaconSilenceDetect s
  | .handshakeTimeout => Sys2Proof.Machine.execHandshakeTimeout s
  | .agreementWindowExpiry t pubno => Sys2Proof.Machine.execAgreementWindowExpiry t pubno s
  | .digestHoldExpiry n => Sys2Proof.Machine.execDigestHoldExpiry n s
  | .noticeDeliveryApply t => Sys2Proof.Machine.execNoticeDeliveryApply t s
  | .seatActivation t => Sys2Proof.Machine.execSeatActivation t s
  | .joinwaitExpiry t => Sys2Proof.Machine.execJoinwaitExpiry t s
  | .silence => Sys2Proof.Machine.execSilence s
  | .unsilence => Sys2Proof.Machine.execUnsilence s
  | .join => Sys2Proof.Machine.execJoin s
  | .ship => Sys2Proof.Machine.execShip s
  | .takeover => Sys2Proof.Machine.execTakeover s
  | .pairRelease => Sys2Proof.Machine.execPairRelease s
  | .joinCapture t => Sys2Proof.Machine.execJoinCapture t s
  | .joinApply t => Sys2Proof.Machine.execJoinApply t s
  | .snapshotTake t => Sys2Proof.Machine.execSnapshotTake t s
  | .parClearLink => Sys2Proof.Machine.execParClearLink s
  | .parClearAll => Sys2Proof.Machine.execParClearAll s
  | .parClearSel => Sys2Proof.Machine.execParClearSel s
  | .healthReport => Sys2Proof.Machine.execHealthReport s
  | .partnerReportLost => Sys2Proof.Machine.execPartnerReportLost s
  | .tileBist tile fail => Sys2Proof.Machine.execTileBist tile fail s
  | .sramScrub corr uncorr slot => Sys2Proof.Machine.execSramScrub corr uncorr slot s
  | .dramScrub corr uncorr => Sys2Proof.Machine.execDramScrub corr uncorr s
  | .portLoopback n fail => Sys2Proof.Machine.execPortLoopback n fail s
  | .regulatorCheck rails serdesLow => Sys2Proof.Machine.execRegulatorCheck rails serdesLow s
  | .temperatureCheck temp => Sys2Proof.Machine.execTemperatureCheck temp s
  | .runtimeTick => Sys2Proof.Machine.execRuntimeTick s
  | .freewheelTick => Sys2Proof.Machine.execFreewheelTick s
  | .eventActivation => Sys2Proof.Machine.execEventActivation s
  | .activationEnd t k r => Sys2Proof.Machine.execActivationEnd t k r s
  | .wdogAbort t k => Sys2Proof.Machine.execWdogAbort t k s
  | .startWarm => Sys2Proof.Machine.execStartWarm s
  | .startCold => Sys2Proof.Machine.execStartCold s
  | .schStop => Sys2Proof.Machine.execSchStop s
  | .chgStage pkg => Sys2Proof.Machine.execChgStage pkg s
  | .changeStaged t => Sys2Proof.Machine.execChangeStaged t s
  | .chgCommit => Sys2Proof.Machine.execChgCommit s
  | .chgDiscard => Sys2Proof.Machine.execChgDiscard s
  | .changeSwitch t => Sys2Proof.Machine.execChangeSwitch t s
  | .changeTimeout t => Sys2Proof.Machine.execChangeTimeout t s
  | .schClearSel => Sys2Proof.Machine.execSchClearSel s
  | .schClearAll => Sys2Proof.Machine.execSchClearAll s
  | .schTickevRead q => Sys2Proof.Machine.execSchTickevRead q s
  | .loopPass => Sys2Proof.Machine.execLoopPass s
  | .loopFreewheel => Sys2Proof.Machine.execLoopFreewheel s
  | .loopRun n => Sys2Proof.Machine.execLoopRun n s
  | .loopHold n => Sys2Proof.Machine.execLoopHold n s
  | .loopSafe n => Sys2Proof.Machine.execLoopSafe n s
  | .loopOff n => Sys2Proof.Machine.execLoopOff n s
  | .coefWrite n w v => Sys2Proof.Machine.execCoefWrite n w v s
  | .gainWrite g n v => Sys2Proof.Machine.execGainWrite g n v s
  | .lopEvRead q => Sys2Proof.Machine.execLopEvRead q s
  | .lopFcntRead q n => Sys2Proof.Machine.execLopFcntRead q n s
  | .adcScan k => Sys2Proof.Machine.execAdcScan k s
  | .adcInject k => Sys2Proof.Machine.execAdcInject k s
  | .adcCal k => Sys2Proof.Machine.execAdcCal k s
  | .adcStop k => Sys2Proof.Machine.execAdcStop k s
  | .converterFire k => Sys2Proof.Machine.execConverterFire k s
  | .conversionDone k code => Sys2Proof.Machine.execConversionDone k code s
  | .calibrationDone k gain ofs => Sys2Proof.Machine.execCalibrationDone k gain ofs s
  | .referenceEnable en => Sys2Proof.Machine.execReferenceEnable en s
  | .referenceSettled => Sys2Proof.Machine.execReferenceSettled s
  | .converterDisable k => Sys2Proof.Machine.execConverterDisable k s
  | .adcResRead q n => Sys2Proof.Machine.execAdcResRead q n s
  | .adcEvRead q k => Sys2Proof.Machine.execAdcEvRead q k s
  | .canFrameRx k f sof => Sys2Proof.Machine.execCanFrameRx k f sof s
  | .canError k lec own major => Sys2Proof.Machine.execCanError k lec own major s
  | .canTxReq k mask => Sys2Proof.Machine.execCanTxReq k mask s
  | .canTxCancel k mask busy => Sys2Proof.Machine.execCanTxCancel k mask busy s
  | .canTxComplete k sof lost tdc => Sys2Proof.Machine.execCanTxComplete k sof lost tdc s
  | .rrdWrite k v => Sys2Proof.Machine.execRrdWrite k v s
  | .nodeWatchTimeout k m => Sys2Proof.Machine.execNodeWatchTimeout k m s
  | .stuckDominant k => Sys2Proof.Machine.execStuckDominant k s
  | .initSet k busy => Sys2Proof.Machine.execInitSet k busy s
  | .initClear k => Sys2Proof.Machine.execInitClear k s
  | .canCntRead q k j => Sys2Proof.Machine.execCanCntRead q k j s
  | .start t via => Sys2Proof.Machine.execStart t via s
  | .reset t via => Sys2Proof.Machine.execReset t via s
  | .freeze t via => Sys2Proof.Machine.execFreeze t via s
  | .freezeTimeout t => Sys2Proof.Machine.execFreezeTimeout t s
  | .resume t via => Sys2Proof.Machine.execResume t via s
  | .save t via => Sys2Proof.Machine.execSave t via s
  | .saveDone t ok => Sys2Proof.Machine.execSaveDone t ok s
  | .restore t via => Sys2Proof.Machine.execRestore t via s
  | .restoreDone t snap => Sys2Proof.Machine.execRestoreDone t snap s
  | .release t via => Sys2Proof.Machine.execRelease t via s
  | .doorbell w mask => Sys2Proof.Machine.execDoorbell w mask s
  | .d2hSlotFree w mask => Sys2Proof.Machine.execD2hSlotFree w mask s
  | .mailboxReply w => Sys2Proof.Machine.execMailboxReply w s
  | .mailboxTimeout w => Sys2Proof.Machine.execMailboxTimeout w s
  | .info t => Sys2Proof.Machine.execInfo t s
  | .forceSet t => Sys2Proof.Machine.execForceSet t s
  | .forceClear t => Sys2Proof.Machine.execForceClear t s
  | .forceList t => Sys2Proof.Machine.execForceList t s
  | .schCmd t => Sys2Proof.Machine.execSchCmd t s
  | .mbxChgStage t pkg => Sys2Proof.Machine.execMbxChgStage t pkg s
  | .mbxChgCommit t => Sys2Proof.Machine.execMbxChgCommit t s
  | .mbxChgDiscard t => Sys2Proof.Machine.execMbxChgDiscard t s
  | .canSend t => Sys2Proof.Machine.execCanSend t s
  | .time t => Sys2Proof.Machine.execTime t s
  | .amdStage link r => Sys2Proof.Machine.execAmdStage link r s
  | .amdCommit link => Sys2Proof.Machine.execAmdCommit link s
  | .amdDiscard link => Sys2Proof.Machine.execAmdDiscard link s
  | .attest link => Sys2Proof.Machine.execAttest link s
  | .sqTailWrite w q v => Sys2Proof.Machine.execSqTailWrite w q v s
  | .cqHeadWrite w q v => Sys2Proof.Machine.execCqHeadWrite w q v s
  | .qpEnable w q v => Sys2Proof.Machine.execQpEnable w q v s
  | .descriptorFetch w q d => Sys2Proof.Machine.execDescriptorFetch w q d s
  | .ptRead w q handles => Sys2Proof.Machine.execPtRead w q handles s
  | .ptWrite w q recs => Sys2Proof.Machine.execPtWrite w q recs s
  | .ringRead w q => Sys2Proof.Machine.execRingRead w q s
  | .capRead w q => Sys2Proof.Machine.execCapRead w q s
  | .qpCanSend w q frame => Sys2Proof.Machine.execQpCanSend w q frame s
  | .nop w q => Sys2Proof.Machine.execNop w q s
  | .rxBuf link cls => Sys2Proof.Machine.execRxBuf link cls s
  | .txFrame link frame => Sys2Proof.Machine.execTxFrame link frame s
  | .hostRxDelivery link cls => Sys2Proof.Machine.execHostRxDelivery link cls s
  | .dmaTimeout w q => Sys2Proof.Machine.execDmaTimeout w q s
  | .tenPtRead t via => Sys2Proof.Machine.execTenPtRead t via s
  | .tenPtWrite t via => Sys2Proof.Machine.execTenPtWrite t via s
  | .functionLevelReset link vf => Sys2Proof.Machine.execFunctionLevelReset link vf s
  | .hostLinkReset link loss => Sys2Proof.Machine.execHostLinkReset link loss s
  | .perstRelease link => Sys2Proof.Machine.execPerstRelease link s
  | .tenCntRead q t k => Sys2Proof.Machine.execTenCntRead q t k s
  | .derive => Sys2Proof.Machine.execDerive s
  | .importKey blob => Sys2Proof.Machine.execImportKey blob s
  | .generate => Sys2Proof.Machine.execGenerate s
  | .verify => Sys2Proof.Machine.execVerify s
  | .keyCommit => Sys2Proof.Machine.execKeyCommit s
  | .keyDiscard => Sys2Proof.Machine.execKeyDiscard s
  | .invalidate => Sys2Proof.Machine.execInvalidate s
  | .vaultInit => Sys2Proof.Machine.execVaultInit s
  | .keyCommandDone => Sys2Proof.Machine.execKeyCommandDone s
  | .expiryCheck => Sys2Proof.Machine.execExpiryCheck s
  | .graceEnd n => Sys2Proof.Machine.execGraceEnd n s
  | .tamper src => Sys2Proof.Machine.execTamper src s
  | .zeroise key => Sys2Proof.Machine.execZeroise key s
  | .identityRederive levels => Sys2Proof.Machine.execIdentityRederive levels s
  | .apply token => Sys2Proof.Machine.execApply token s
  | .erasureDone => Sys2Proof.Machine.execErasureDone s
  | .request => Sys2Proof.Machine.execRequest s
  | .statementBuild ok => Sys2Proof.Machine.execStatementBuild ok s
  | .recordWrite => Sys2Proof.Machine.execRecordWrite s
  | .swtrig src arg => Sys2Proof.Machine.execSwtrig src arg s
  | .evrCntRead q k => Sys2Proof.Machine.execEvrCntRead q k s
  | .rowClose u => Sys2Proof.Machine.execRowClose u s
  | .dcrArm => Sys2Proof.Machine.execDcrArm s
  | .dcrDisarm => Sys2Proof.Machine.execDcrDisarm s
  | .dcrFire => Sys2Proof.Machine.execDcrFire s
  | .dcrFree => Sys2Proof.Machine.execDcrFree s
  | .holdoffEnd u => Sys2Proof.Machine.execHoldoffEnd u s
  | .dcrUcntRead q k => Sys2Proof.Machine.execDcrUcntRead q k s
  | .ltlInc c add => Sys2Proof.Machine.execLtlInc c add s
  | .ltlHadd h b add => Sys2Proof.Machine.execLtlHadd h b add s
  | .histogramSample h => Sys2Proof.Machine.execHistogramSample h s
  | .onSecondsTick => Sys2Proof.Machine.execOnSecondsTick s
  | .almondFlush => Sys2Proof.Machine.execAlmondFlush s
  | .rankOpen => Sys2Proof.Machine.execRankOpen s
  | .tenantAutostart t => Sys2Proof.Machine.execTenantAutostart t s
  | .startEnd => Sys2Proof.Machine.execStartEnd s
  | .sysrstAssert => Sys2Proof.Machine.execSysrstAssert s
  | .sysrstRelease pins => Sys2Proof.Machine.execSysrstRelease pins s
  | .warmRestartCmd key => Sys2Proof.Machine.execWarmRestartCmd key s
  | .sysrstCmd key => Sys2Proof.Machine.execSysrstCmd key s
  | .wdogKick key => Sys2Proof.Machine.execWdogKick key s
  | .watchdogExpiry => Sys2Proof.Machine.execWatchdogExpiry s
  | .brownOut => Sys2Proof.Machine.execBrownOut s
  | .supplyWarning => Sys2Proof.Machine.execSupplyWarning s
  | .warningClear => Sys2Proof.Machine.execWarningClear s
  | .railFault => Sys2Proof.Machine.execRailFault s
  | .vbatLoss => Sys2Proof.Machine.execVbatLoss s
  | .domainOff d => Sys2Proof.Machine.execDomainOff d s
  | .domainOn d => Sys2Proof.Machine.execDomainOn d s
  | .domainReset d => Sys2Proof.Machine.execDomainReset d s
  | .domainTransitionDone d => Sys2Proof.Machine.execDomainTransitionDone d s
  | .pllStop p => Sys2Proof.Machine.execPllStop p s
  | .smbusBlockRead code => Sys2Proof.Machine.execSmbusBlockRead code s
  | .smbusAlertResponse won => Sys2Proof.Machine.execSmbusAlertResponse won s
  | .jtagInstruction ins => Sys2Proof.Machine.execJtagInstruction ins s
  | .cellTime => Sys2Proof.Machine.execCellTime s
  | .frameTransmitted n => Sys2Proof.Machine.execFrameTransmitted n s
  | .supervisorFrameSend f thyme => Sys2Proof.Machine.execSupervisorFrameSend f thyme s
  | .pulseInEdge p => Sys2Proof.Machine.execPulseInEdge p s
  | .hostLinkUp link width speed vfen => Sys2Proof.Machine.execHostLinkUp link width speed vfen s
  | .busOffRecovery k => Sys2Proof.Machine.execBusOffRecovery k s
  | .stuckDominantRelease k => Sys2Proof.Machine.execStuckDominantRelease k s
  | .autonegFail n rf => Sys2Proof.Machine.execAutonegFail n rf s

end Sys2Proof.Machine
end

