-- ==== Sys2Proof/Machine/Step.lean ====
section
/-! DEFINITION. One step of the module: the command at the front of the queue, or the clock. -/
namespace Sys2Proof.Machine

/-- The state without the command at the front of its queue. -/
def State.rest (s : State) (cs : List Instr) : State := { s with pending := cs }

/-- The FRC counts one nanosecond, and a new count begins for the same-cycle rules. -/
def State.frcNext (s : State) : State := { s with tb := { s.tb with frc := (s.tb.frc + 1) % 2 ^ 64 }, now := s.instant }

/-- With nothing commanded the free-running counter counts one nanosecond while main power is good, with or without
REFCLK (R61, R62), and a pass of the loop engine goes on (R279); otherwise the module idles. DESIGN CHOICE: no command of the
table is a tick of the FRC. -/
def State.frcStep (s : State) : State :=
  if s.pwr.main then (if s.domOn 11 then s.frcNext.passTick else s.frcNext) else s

/-- Takes the command at the front of the queue and runs it with the queue's rest; on an empty queue the FRC counts. -/
def step (s : State) : Host.Outcome State Fault Refusal :=
  match s.pending with
  | [] => .next s.frcStep
  | i :: rest => exec i (s.rest rest)

/-- The state with the command that a table word spells at the front of its queue; unchanged where it spells none. -/
def State.withFetchWord (s : State) (nbits w : Nat) : State :=
  match decodeTableWord nbits w with
  | some i => { s with pending := i :: s.pending }
  | none => s

end Sys2Proof.Machine
end

