-- ==== Sys2Proof/WellFormed.lean ====
section
/-! DEFINITION. Which commands are well formed: every number operand lies in the range that its field has in the
specification. A command outside its ranges still has a meaning (exec is total); statements that need a range cite
these checks. -/
namespace Sys2Proof
open Machine

/-- Port P0 to P7 (R1). -/
def okPort (n : Nat) : Bool := decide (n < 8)

/-- A remote fault code of Clause 37 (R88). -/
def okLine (x : Line) : Bool := match x.an with | some (_, rf) => decide (rf < 4) | none => true

/-- Tenant number (R1). -/
def okTenant (n : Nat) : Bool := decide (n < 4096)

/-- Host link (R1). -/
def okLink (n : Nat) : Bool := decide (n < 4)

/-- A host function: l the tenant's virtual function on link l, 4 + l the physical function of link l. -/
def okVia (n : Nat) : Bool := decide (n < 8)

/-- Stream number (R1). -/
def okStream (n : Nat) : Bool := decide (n < 4096)

/-- Thyme channel (R78). -/
def okChannel (n : Nat) : Bool := decide (n < 32)

/-- Position within an FRC count, in 1/256 ns (R63). -/
def okPhi (n : Nat) : Bool := decide (n < 256)

/-- Tile (R1). -/
def okTile (n : Nat) : Bool := decide (n < 128)

/-- Slot of a tile (R1). -/
def okSlot (n : Nat) : Bool := decide (n < 32)

/-- Tile-cycle group (R177). -/
def okGroup (n : Nat) : Bool := decide (n < 4)

/-- Filter tap (R158). -/
def okTap (n : Nat) : Bool := decide (n < 4)

/-- Boundary (Table 01-4). -/
def okBoundary (n : Nat) : Bool := decide (n < 16)

/-- Loop (R1). -/
def okLoop (n : Nat) : Bool := decide (n < 64)

/-- Local converter (R1). -/
def okConv (n : Nat) : Bool := decide (n < 2)

/-- Analogue input (R1). -/
def okInput (n : Nat) : Bool := decide (n < 16)

/-- CAN controller (R1). -/
def okCan (n : Nat) : Bool := decide (n < 4)

/-- Publication entry (R203). -/
def okPub (n : Nat) : Bool := decide (n < 8192)

/-- Subscription entry (R203). -/
def okSub (n : Nat) : Bool := decide (n < 16384)

/-- Capture unit (R374). -/
def okUnit (n : Nat) : Bool := decide (n < 16)

/-- Power domain (R386). -/
def okDomain (n : Nat) : Bool := decide (n < 16)

/-- PLL (Table 18-3). -/
def okPll (n : Nat) : Bool := decide (n < 7)

/-- Queue pair of a window (R342). -/
def okQueue (n : Nat) : Bool := decide (n < 8)

/-- Traffic class (R130). -/
def okClass (n : Nat) : Bool := decide (n < 8)

/-- An 8-bit field. -/
def okByte (n : Nat) : Bool := decide (n < 256)

/-- A 16-bit field. -/
def okHalf (n : Nat) : Bool := decide (n < 65536)

/-- A 32-bit word. -/
def okWord (n : Nat) : Bool := decide (n < 4294967296)

/-- A 64-bit word. -/
def okDouble (n : Nat) : Bool := decide (n < 18446744073709551616)

/-- Key slot (R351). -/
def okKey (n : Nat) : Bool := decide (n < 16384)

/-- Task of a scheme program: cyclic 0 to 7, event 8 to 23. -/
def okTask (n : Nat) : Bool := decide (n < 24)

/-- A 3-bit field. -/
def okThree (n : Nat) : Bool := decide (n < 8)

/-- A 14-bit field. -/
def okFourteen (n : Nat) : Bool := decide (n < 16384)

/-- PAIR_SIDE (R229). -/
def okSide (n : Nat) : Bool := decide (n < 2)

/-- Levels of the pins latched at a reset: PAIR_SIDE of one bit, SMB_ADDR of three. -/
def okPins (p : LatchPins) : Bool := okSide p.side && okThree p.smbAddr

/-- Amendment slot (R52). -/
def okAmdSlot (n : Nat) : Bool := decide (n < 4)

/-- A 4-bit field. -/
def okNibble (n : Nat) : Bool := decide (n < 16)

/-- A 2-bit field. -/
def okTwo (n : Nat) : Bool := decide (n < 4)

/-- A 6-bit field. -/
def okSix (n : Nat) : Bool := decide (n < 64)

/-- Fabric input (SWC_INBUF). -/
def okIn (n : Nat) : Bool := decide (n < 15)

/-- Tamper source (R360). -/
def okTamper (n : Nat) : Bool := decide (n < 7)

/-- Buffer of a CAN controller (CAN_TXCMD). -/
def okMailer (n : Nat) : Bool := decide (n < 8)

/-- The access sizes of the management space, in bytes (R8). -/
def okSize (n : Nat) : Bool := decide (n = 1 ∨ n = 2 ∨ n = 4 ∨ n = 8)

/-- A window: a tenant's, or the page of a link. -/
def okWindow (w : Nat) : Bool := decide (w < 4096 ∨ w = 4096 ∨ w = 4112 ∨ w = 4128 ∨ w = 4144)

/-- A queue pair of a tenant window, or a virtual-port ring of a link under 60 + r (R344). -/
def okRing (q : Nat) : Bool := decide (q < 8 ∨ (60 ≤ q ∧ q ≤ 68))

/-- A virtual function of a link, 1 to 1024 (R1). -/
def okVf (f : Nat) : Bool := decide (f ≤ 1024)

/-- An operand that may be absent. -/
def okOpt {α : Type} (p : α → Bool) (o : Option α) : Bool := match o with | some x => p x | none => true

/-- A requester names a link and function that can exist. -/
def okRequester : Requester → Bool
  | .vf link fn => okLink link && okVf fn
  | .pf link => okLink link
  | .supervisor => true
  | .jtag => true
  | .walnut => true

/-- A CAN frame (R312): a 4-bit DLC and at most 64 data bytes. -/
def okCanFrame (f : CanFrame) : Bool := decide (f.idw < 2 ^ 32 ∧ f.dlc < 16 ∧ f.data.length ≤ 64)

/-- The check of each command. -/
def Instr.wellFormed : Instr → Bool
  | .reg64LowRead r a => okRequester r && okWord a
  | .reg64HighRead r a => okRequester r && okWord a
  | .reg64LowWrite r a _ => okRequester r && okWord a
  | .reg64HighWrite r a _ => okRequester r && okWord a
  | .registerWrite r a size _ => okRequester r && okWord a && okSize size
  | .lockstepMismatch pair => okSide pair
  | .supRestartComplete => true
  | .creditReturn bnd owner _ => okBoundary bnd && okTenant owner
  | .outputCreditExpiry n tap => okStream n && okTap tap
  | .tenantDrainComplete t => okTenant t
  | .qcrClrSel => true
  | .qcrClrBnd => true
  | .powerOn _ pins _ _ => okPins pins
  | .supervisorPhase _ _ => true
  | .imageLoad _ _ => true
  | .confirm => true
  | .rollfloorWrite v => okDouble v
  | .seal => true
  | .sealTimeout => true
  | .stage _ => true
  | .stageDone k => okAmdSlot k
  | .commit => true
  | .commitDone k => okAmdSlot k
  | .discard => true
  | .amdActivation t => okTenant t
  | .timeCommitNow _ _ => true
  | .timeCommitAt _ _ => true
  | .timeCommitCancel => true
  | .timeCommitApply => true
  | .claimLock => true
  | .enterHoldover => true
  | .declareLost => true
  | .holdTimerExpiry => true
  | .holdoverLimitExpiry => true
  | .referenceLost => true
  | .referenceRestored => true
  | .rtcSecond => true
  | .syncRx => true
  | .pdelayReq => true
  | .pdelayResp => true
  | .ptpUnsupported => true
  | .ptpGeneral => true
  | .pdelayInterval n => okPort n
  | .ppsOutRise => true
  | .ppsOutFall => true
  | .ppsInEdge => true
  | .ppsLost => true
  | .ttuSet n => okChannel n
  | .ttuClear n => okChannel n
  | .ttuToggle n => okChannel n
  | .ttuPulse n width => okChannel n && okWord width
  | .ttuFire n => okChannel n
  | .ttuStartPeriodic n width => okChannel n && okWord width
  | .ttuStop n => okChannel n
  | .ttuFlush n => okChannel n
  | .timedOutputRequest => true
  | .entryExecute n => okChannel n
  | .periodicInstant n => okChannel n
  | .frameReceive n phi _ _ _ _ _ => okPort n && okPhi phi
  | .pause n quanta => okPort n && okHalf quanta
  | .pfc n enables quanta => okPort n && okByte enables && quanta.all okHalf
  | .pauseHoldEnd n => okPort n
  | .pauseCapEnd n => okPort n
  | .pauseIgnoreEnd n => okPort n
  | .filtReqNormal n => okPort n
  | .filtReqTest n => okPort n
  | .filtReqRecovery n => okPort n
  | .filterEntryWrite r n e _ => okRequester r && okPort n && okNibble e
  | .lossOfLock n _ x _ => okPort n && okLine x
  | .lockRegained n => okPort n.port && okLine n.line
  | .upHoldExpiry n => okPort n
  | .downFiltExpiry n => okPort n
  | .adminDown n _ => okPort n
  | .rxIdleTimeout n => okPort n
  | .macCntclr n mask => okPort n && okWord mask
  | .frameTransmit n phi => okPort n && okPhi phi
  | .discardTick => true
  | .stModeWrite _ => true
  | .fdbRead => true
  | .fdbWrite => true
  | .inbufWrite i c v => okIn i && okClass c && okWord v
  | .swcIcntRead r i c => okRequester r && okIn i && okClass c
  | .prpClearPb => true
  | .prpClearSt => true
  | .svFrame => true
  | .streamTimeout n => okStream n
  | .svxClearSel => true
  | .svxClearAll => true
  | .discoveryPop => true
  | .svxUnknownRead r => okRequester r
  | .svxParseRead r => okRequester r
  | .filterStep n => okStream n
  | .dcFreeze _ at_ => okFourteen at_
  | .dcRelease _ at_ => okFourteen at_
  | .dcCancel => true
  | .fltClearSel => true
  | .fltClearAll => true
  | .groupCycleStart g => okGroup g
  | .freewheelStart g => okGroup g
  | .armPreset g => okGroup g
  | .fetch tile slot => okTile tile && okSlot slot
  | .coreWake tile slot => okTile tile && okSlot slot
  | .windowOpen tile slot => okTile tile && okSlot slot
  | .programCommit tile slot _ => okTile tile && okSlot slot
  | .budgetStop tile slot _ => okTile tile && okSlot slot
  | .windowClose tile slot => okTile tile && okSlot slot
  | .slotEccError t => okTenant t
  | .elaClearSel => true
  | .elaClearAll => true
  | .tinjWrite extra count => okHalf extra && okByte count
  | .elaGrpevRead r g => okRequester r && okGroup g
  | .pntRead => true
  | .pntWrite => true
  | .pointWrite => true
  | .pntRefusedRead r => okRequester r
  | .pntBadhandleRead r => okRequester r
  | .pntStaleRead r => okRequester r
  | .publicationRequest => true
  | .pendingRelease i => okPub i
  | .retransmission i => okPub i
  | .gooseFrame => true
  | .subscriptionTimeout i => okSub i
  | .gpbClearSel => true
  | .gpbClearAll => true
  | .gsbClearSel => true
  | .gsbClearAll => true
  | .gsbUnknownRead r => okRequester r
  | .hello => true
  | .heartbeat => true
  | .digest => true
  | .summary => true
  | .notice => true
  | .seat => true
  | .joinMessage => true
  | .snapshot => true
  | .health => true
  | .capfire => true
  | .supmsg => true
  | .beacon => true
  | .helloSend => true
  | .heartbeatSend => true
  | .beaconSend => true
  | .silenceDetect => true
  | .beaconSilenceDetect => true
  | .handshakeTimeout => true
  | .agreementWindowExpiry t pubno => okTenant t && okByte pubno
  | .digestHoldExpiry _ => true
  | .noticeDeliveryApply t => okTenant t
  | .seatActivation t => okTenant t
  | .joinwaitExpiry t => okTenant t
  | .silence => true
  | .unsilence => true
  | .join => true
  | .ship => true
  | .takeover => true
  | .pairRelease => true
  | .joinCapture t => okTenant t
  | .joinApply t => okTenant t
  | .snapshotTake t => okTenant t
  | .parClearLink => true
  | .parClearAll => true
  | .parClearSel => true
  | .healthReport => true
  | .partnerReportLost => true
  | .tileBist tile _ => okTile tile
  | .sramScrub _ _ slot => okOpt (fun (p : SramPlace) => match p with | .slot t => okTenant t | .part t => okTenant t) slot
  | .dramScrub _ u => okOpt (fun (p : DramPlace) => match p with | .data t => okTenant t | .other => true) u
  | .portLoopback n _ => okPort n
  | .regulatorCheck rails _ => okSix rails
  | .temperatureCheck _ => true
  | .runtimeTick => true
  | .freewheelTick => true
  | .eventActivation => true
  | .activationEnd t k _ => okTenant t && okTask k
  | .wdogAbort t k => okTenant t && okTask k
  | .startWarm => true
  | .startCold => true
  | .schStop => true
  | .chgStage _ => true
  | .changeStaged t => okTenant t
  | .chgCommit => true
  | .chgDiscard => true
  | .changeSwitch t => okTenant t
  | .changeTimeout t => okTenant t
  | .schClearSel => true
  | .schClearAll => true
  | .schTickevRead r => okRequester r
  | .loopPass => true
  | .loopFreewheel => true
  | .loopRun n => okLoop n
  | .loopHold n => okLoop n
  | .loopSafe n => okLoop n
  | .loopOff n => okLoop n
  | .coefWrite n w v => okLoop n && okNibble w && okWord v
  | .gainWrite g i v => okSix g && okByte i && okWord v
  | .lopEvRead r => okRequester r
  | .lopFcntRead r n => okRequester r && okLoop n
  | .adcScan k => okConv k
  | .adcInject k => okConv k
  | .adcCal k => okConv k
  | .adcStop k => okConv k
  | .converterFire k => okConv k
  | .conversionDone k _ => okConv k
  | .calibrationDone k gain ofs => okConv k && okHalf gain && okHalf ofs
  | .referenceEnable _ => true
  | .referenceSettled => true
  | .converterDisable k => okConv k
  | .adcResRead r i => okRequester r && okInput i
  | .adcEvRead r k => okRequester r && okConv k
  | .canFrameRx k f _ => okCan k && okCanFrame f
  | .canError k lec _ _ => okCan k && okMailer lec
  | .canTxReq k mask => okCan k && okByte mask
  | .canTxCancel k mask _ => okCan k && okByte mask
  | .canTxComplete k _ _ _ => okCan k
  | .rrdWrite k v => okCan k && okWord v
  | .nodeWatchTimeout k m => okCan k && okNibble m
  | .stuckDominant k => okCan k
  | .initSet k _ => okCan k
  | .initClear k => okCan k
  | .canCntRead r k j => okRequester r && okCan k && okMailer j
  | .start t via => okTenant t && okOpt okVia via
  | .reset t via => okTenant t && okOpt okVia via
  | .freeze t via => okTenant t && okOpt okVia via
  | .freezeTimeout t => okTenant t
  | .resume t via => okTenant t && okOpt okVia via
  | .save t via => okTenant t && okOpt okVia via
  | .saveDone t _ => okTenant t
  | .restore t via => okTenant t && okOpt okVia via
  | .restoreDone t _ => okTenant t
  | .release t via => okTenant t && okOpt okVia via
  | .doorbell w mask => okWindow w && okWord mask
  | .d2hSlotFree w mask => okWindow w && okWord mask
  | .mailboxReply w => okWindow w
  | .mailboxTimeout w => okWindow w
  | .info t => okTenant t
  | .forceSet t => okTenant t
  | .forceClear t => okTenant t
  | .forceList t => okTenant t
  | .schCmd t => okTenant t
  | .mbxChgStage t _ => okTenant t
  | .mbxChgCommit t => okTenant t
  | .mbxChgDiscard t => okTenant t
  | .canSend t => okTenant t
  | .time t => okTenant t
  | .amdStage link _ => okLink link
  | .amdCommit link => okLink link
  | .amdDiscard link => okLink link
  | .attest link => okLink link
  | .sqTailWrite w q v => okWindow w && okRing q && okWord v
  | .cqHeadWrite w q v => okWindow w && okRing q && okWord v
  | .qpEnable w q v => okWindow w && okRing q && okWord v
  | .descriptorFetch w q _ => okWindow w && okRing q
  | .ptRead w q _ => okWindow w && okQueue q
  | .ptWrite w q _ => okWindow w && okQueue q
  | .ringRead w q => okWindow w && okQueue q
  | .capRead w q => okWindow w && okQueue q
  | .qpCanSend w q _ => okWindow w && okQueue q
  | .nop w q => okWindow w && okQueue q
  | .rxBuf link cls => okLink link && okClass cls
  | .txFrame link _ => okLink link
  | .hostRxDelivery link cls => okLink link && okClass cls
  | .dmaTimeout w q => okWindow w && okOpt okRing q
  | .tenPtRead t via => okTenant t && okOpt okVia via
  | .tenPtWrite t via => okTenant t && okOpt okVia via
  | .functionLevelReset link vf => okLink link && okVf vf
  | .hostLinkReset link _ => okLink link
  | .perstRelease link => okLink link
  | .tenCntRead r t k => okRequester r && okTenant t && okNibble k
  | .derive => true
  | .importKey _ => true
  | .generate => true
  | .verify => true
  | .keyCommit => true
  | .keyDiscard => true
  | .invalidate => true
  | .vaultInit => true
  | .keyCommandDone => true
  | .expiryCheck => true
  | .graceEnd n => okKey n
  | .tamper src => okTamper src
  | .zeroise key => okByte key
  | .identityRederive levels => okSix levels
  | .apply _ => true
  | .erasureDone => true
  | .request => true
  | .statementBuild _ => true
  | .recordWrite => true
  | .swtrig src arg => okNibble src && okWord arg
  | .evrCntRead r k => okRequester r && okTwo k
  | .rowClose u => okUnit u
  | .dcrArm => true
  | .dcrDisarm => true
  | .dcrFire => true
  | .dcrFree => true
  | .holdoffEnd u => okUnit u
  | .dcrUcntRead r k => okRequester r && okMailer k
  | .ltlInc c add => okByte c && okHalf add
  | .ltlHadd h b add => okChannel h && okSix b && okHalf add
  | .histogramSample h => okTwo h
  | .onSecondsTick => true
  | .almondFlush => true
  | .rankOpen => true
  | .tenantAutostart t => okTenant t
  | .startEnd => true
  | .sysrstAssert => true
  | .sysrstRelease pins => okPins pins
  | .warmRestartCmd key => okByte key
  | .sysrstCmd key => okByte key
  | .wdogKick key => okByte key
  | .watchdogExpiry => true
  | .brownOut => true
  | .supplyWarning => true
  | .warningClear => true
  | .railFault => true
  | .vbatLoss => true
  | .domainOff d => okDomain d
  | .domainOn d => okDomain d
  | .domainReset d => okDomain d
  | .domainTransitionDone d => okDomain d
  | .pllStop p => okPll p
  | .smbusBlockRead code => okByte code
  | .smbusAlertResponse _ => true
  | .jtagInstruction _ => true
  | .cellTime => true
  | .frameTransmitted n => okPort n
  | .supervisorFrameSend _ _ => true
  | .pulseInEdge p => okTwo p.input
  | .hostLinkUp link width speed vfen => okLink link && okByte width && okByte speed && okHalf vfen
  | .busOffRecovery k => okCan k
  | .stuckDominantRelease k => okCan k
  | .autonegFail n rf => okPort n && okTwo rf

end Sys2Proof
end

