-- ==== Sys2Proof/Safety.lean ====
section
/-! DEFINITION. The terms that statements use: a command that runs to its effect, what a command leaves as it was, and
the invariants of every state. -/
namespace Sys2Proof.Machine

/-- Command i answers a next state in s, and P holds of that state. -/
def Runs (i : Instr) (s : State) (P : State → Prop) : Prop := ∃ t, exec i s = .next t ∧ P t

/-- Every stored register outside the 64 KiB blocks listed (Table 19-1, by number) is as it was. -/
def RegsKept (blocks : List Nat) (s t : State) : Prop :=
  ∀ (d : W64) (a : Nat), a / 0x10000 ∉ blocks → Tbl.get d t.rf a = Tbl.get d s.rf a

/-- The frame of a command: in every state it answers a next state, in which `upd s t` takes from t what the command may
change and all else from s, but for the record of the present FRC count; registers change in the blocks listed alone;
memory bytes change at the addresses that `mems` admits alone. -/
def Leaves (i : Instr) (blocks : List Nat) (upd : State → State → State) (mems : Nat → Prop := fun _ => False) : Prop :=
  ∀ s, Runs i s fun t =>
    t = { upd s t with now := t.now } ∧ RegsKept blocks s t ∧ ∀ a, ¬ mems a → memByte t.mem a = memByte s.mem a

/-- What holds in every state: the byte memory is in canonical form and the FRC is a 64-bit counter (R61). -/
def State.Inv (s : State) : Prop := Memory.wf s.mem = true ∧ s.tb.frc < 2 ^ 64

end Sys2Proof.Machine
end

