-- ==== Sys2Proof/Certificates/Slice0/Obligations.lean ====
section
/-! DEFINITION. What is claimed of the module, as statements for the provers. Each docstring says what its statement
formalises; OBLIGATIONS.json lists the rules. A clause `Runs i s P` says that command i answers a next state in s and
that P holds of it; `Leaves` is the frame of a command. -/

open Sys2Proof Sys2Proof.Machine

/-- For every command c, state s and queue rest: step of s with c at the front of its queue is exec of c on s with the rest of the queue. (The queue is the model's own form of the order in which commands arrive.) -/
def Obligations.StepRunsFrontCommand : Prop :=
  ∀ (c : Instr) (rest : List Instr) (s : State),
    step { s with pending := c :: rest } = exec c { s with pending := rest }

/-- On an empty queue a step adds 1 to the free-running counter (modulo 2^64) while main power is good, whether or not the reference is present: a new FRC count begins for the same-cycle rules (R437), and with the exchange domain on the pass of the loop engine that is in progress goes on; with no pass, or with domain 11 off, nothing else changes. Without main power the state stays as it is. That the clock runs on the empty queue is the model's choice (log entry 2). -/
def Obligations.EmptyQueueCountsFrc : Prop :=
  ∀ s : State, s.pending = [] →
    let t : State := { s with tb := { s.tb with frc := (s.frc + 1) % 2 ^ 64 }, now := s.instant }
    (s.pwr.main = false → step s = .next s) ∧
    (s.pwr.main = true → s.domOn 11 = false ∨ s.lop.pass = none → step s = .next t) ∧
    (s.pwr.main = true → s.domOn 11 = true → step s = .next t.passTick)

/-- Right after the power-on reset: every register that an index of its table names holds its reset value, the FRC is 0 and the synchronisation state FREE, no commit is pending, only domain 0 and TBPLL are on, the supply phase has ended and no later one, no image is applied, no tenant is enabled, memory lists nothing, no command waits, and the invariant that every step keeps (canonical memory, 64-bit FRC) holds. POWER_ON of a module without power leads to exactly this state, but for the queue. -/
def Obligations.ResetStateHoldsResetValues : Prop :=
  (∀ (r : Reg) (i j : Nat), State.reset.rg r i j = (regInfo r).reset % 2 ^ 64) ∧
  State.reset.frc = 0 ∧ State.reset.tb.sync = .free ∧ State.reset.tb.pending = none ∧
  State.reset.pwr.on = 1 ∧ State.reset.pwr.pll = 1 ∧ State.reset.pwr.phases = 1 ∧ State.reset.pwr.main = true ∧
  State.reset.boot.loaded = false ∧ State.reset.enabledTenants = [] ∧ State.reset.mem = [] ∧
  State.reset.pending = [] ∧ State.reset.Inv ∧ exec (.powerOn 0 ⟨0, 0⟩ true true) {} = .next State.reset

/-- For every requester and address that names the low word of a 64-bit register (and holds no latched stamp of ADC_RES): the read returns the low word and latches the present high word for that requester alone; a read of the high word returns the latched word and drops the latch, or the present high word where none is held; a low write is held and changes no register; the high write of TMB_CMT_AT takes effect together with the held low word and drops it. -/
def Obligations.WideRegistersLatchAndHold : Prop :=
  (∀ q a x w s, s.busAddr q a = some x → s.regAt x = some w → (regInfo w.reg).wide = true → w.high = false →
    (∀ e ∈ (s.port q).latch, e.1 ≠ x + 1 ∧ e.1 ≠ x + 2) →
    Runs (.reg64LowRead q a) s fun t =>
      (t.port q).data = wordOf (readReg s w.reg w.i w.j) false ∧
      (x, wordOf (readReg s w.reg w.i w.j) true) ∈ (t.port q).latch ∧
      (∀ q', q' ≠ q → t.port q' = s.port q') ∧ t.rf = s.rf) ∧
  (∀ q a x w s, s.busAddr q a = some x → s.regAt x = some w → (regInfo w.reg).wide = true → w.high = true →
    (∀ h, (s.port q).latch.find? (fun e => decide (e.1 = x - 4)) = some (x - 4, h) →
      Runs (.reg64HighRead q a) s fun t => (t.port q).data = h ∧ ∀ e ∈ (t.port q).latch, e.1 ≠ x - 4) ∧
    ((∀ e ∈ (s.port q).latch, e.1 ≠ x - 4) →
      Runs (.reg64HighRead q a) s fun t => (t.port q).data = wordOf (readReg s w.reg w.i w.j) true)) ∧
  (∀ q a x w v s, q ≠ .walnut → s.busAddr q a = some x → s.regAt x = some w → (regInfo w.reg).wide = true →
    w.high = false →
    Runs (.reg64LowWrite q a v) s fun t =>
      t = { s with bus := t.bus } ∧ (x, v) ∈ (t.port q).held ∧ ∀ q', q' ≠ q → t.port q' = s.port q') ∧
  (∀ lo hi s, (s.port .supervisor).held = [(regAddr .TMB_CMT_AT 0 0, lo)] →
    Runs (.reg64HighWrite .supervisor (regAddr .TMB_CMT_AT 0 0 + 4) hi) s fun t =>
      t.rg .TMB_CMT_AT = hi.toNat * 2 ^ 32 + lo.toNat ∧ (t.port .supervisor).held = []) ∧
  (∀ hi s, (s.port .supervisor).held = [] →
    Runs (.reg64HighWrite .supervisor (regAddr .TMB_CMT_AT 0 0 + 4) hi) s fun t =>
      t.rg .TMB_CMT_AT = hi.toNat * 2 ^ 32 + s.rg .TMB_CMT_AT % 2 ^ 32)

/-- A 32-bit write of the supervisor to TMB_STAT clears the bits written with 1, but for those that hardware has set in the same FRC count, and no other; to TMB_HOLD it replaces the register; to LOP_FBSRC of loop n it replaces the register before the seal, and after it leaves the register as it is and counts in RWS_IGN if it would have changed it. A write at an address of the supervisor that names neither a register nor a memory, or of a size other than 32 bits, changes nothing. The high word of MAC_FENT takes effect with its held low word and its held mask. -/
def Obligations.RegisterWritesFollowAccessCodes : Prop :=
  (∀ v s, Runs (.registerWrite .supervisor (regAddr .TMB_STAT 0 0) 4 v) s fun t =>
    ∀ b, b < 32 → t.flag .TMB_STAT b = (s.flag .TMB_STAT b && !(bit v.toNat b && bit (regInfo .TMB_STAT).w1c b &&
      !bit (s.raisedNow .TMB_STAT) b))) ∧
  (∀ v s, Runs (.registerWrite .supervisor (regAddr .TMB_HOLD 0 0) 4 v) s fun t =>
    t.rg .TMB_HOLD % 2 ^ 32 = v.toNat) ∧
  (∀ n v s, n < 64 → s.boot.sealed = false → Runs (.registerWrite .supervisor (regAddr .LOP_FBSRC n 0) 4 v) s fun t =>
    t.rg .LOP_FBSRC n % 2 ^ 32 = v.toNat ∧ t.boot = s.boot) ∧
  (∀ n v s, n < 64 → s.boot.sealed = true → s.rg .LOP_FBSRC n < 2 ^ 32 →
    Runs (.registerWrite .supervisor (regAddr .LOP_FBSRC n 0) 4 v) s fun t =>
      t.rg .LOP_FBSRC n = s.rg .LOP_FBSRC n ∧
      t.boot.rwsIgn = if s.rg .LOP_FBSRC n = v.toNat then s.boot.rwsIgn else satInc 8 s.boot.rwsIgn) ∧
  (∀ a x v s, s.busAddr .supervisor a = some x → s.regAt x = none → s.ramAt x = false →
    exec (.registerWrite .supervisor a 4 v) s = .next s) ∧
  (∀ q a size v s, size ≠ 4 → exec (.registerWrite q a size v) s = .next s) ∧
  (∀ n e hi lo s, n < 8 → e < 16 → (s.port .supervisor).held = [(regAddr .MAC_FENT n e, lo)] →
    Runs (.filterEntryWrite .supervisor n e hi) s fun t =>
      t.rg .MAC_FENT n e = ((hi.toNat * 2 ^ 32 + lo.toNat) &&& (2 ^ 63 + (2 ^ 48 - 1))) ∧
      ∀ m, Tbl.get none (s.prt n).heldMask e = some m →
        t.rg .MAC_FMASK n e = m % 2 ^ 48 ∧ Tbl.get none (t.prt n).heldMask e = none)

/-- A return at a boundary other than 5, 9, 10 and 15, by a consumer of the current generation where the owner is a tenant, takes one from what the owner has outstanding; one of an older generation changes nothing; AVAIL never exceeds the share. A filter output entry whose retention has passed gives its boundary-5 credit back. CLR_SEL clears the drop counter of the selected owner and no other; CLR_BND those of every owner at the selected boundary and of no other; what the present FRC count has dropped stays counted. -/
def Obligations.CreditsReturnToOwners : Prop :=
  (∀ b o g s, b < 16 → b ≠ 5 → b ≠ 9 → b ≠ 10 → b ≠ 15 → o < crdOwners b → (tenantBnd b = true → (s.tenant o).gen = g) →
    Runs (.creditReturn b o g) s fun t =>
      Tbl.get 0 t.crd.used (crdKey b o) = Tbl.get 0 s.crd.used (crdKey b o) - 1 ∧
      t.avail b o ≤ Tbl.get 0 t.crd.share (crdKey b o) ∧
      t = { s with crd := { s.crd with used := t.crd.used } } ∧
      ∀ k, k ≠ crdKey b o → Tbl.get 0 t.crd.used k = Tbl.get 0 s.crd.used k) ∧
  (∀ b o g s, tenantBnd b = true → (s.tenant o).gen ≠ g → exec (.creditReturn b o g) s = .next s) ∧
  (∀ n tap s e, n < 4096 → tap < 4 → Tbl.get none (s.chain n).outs (64 * tap) = some e → e.credit = true →
    e.expires ≤ s.frc →
    Runs (.outputCreditExpiry n tap) s fun t =>
      Tbl.get 0 t.crd.used (crdKey 5 n) = Tbl.get 0 s.crd.used (crdKey 5 n) - 1 ∧
      Tbl.get none (t.chain n).outs (64 * tap) = some { e with credit := false } ∧ t.rf = s.rf) ∧
  (∀ s b o, qcrSel s = some (b, o) → Runs .qcrClrSel s fun t =>
    Tbl.get 0 t.crd.drops (crdKey b o) = Tbl.get 0 s.crd.drops (crdKey b o) - Tbl.get 0 s.now.drops (crdKey b o) ∧
    t = { s with crd := { s.crd with drops := t.crd.drops }, now := t.now } ∧
    ∀ k, k ≠ crdKey b o → Tbl.get 0 t.crd.drops k = Tbl.get 0 s.crd.drops k) ∧
  (∀ s o k, o < 4096 → k = crdKey (s.fld .QCR_SEL 19 16) o → Runs .qcrClrBnd s fun t =>
    Tbl.get 0 t.crd.drops k = Tbl.get 0 s.crd.drops k - Tbl.get 0 s.now.drops k ∧
    t = { s with crd := { s.crd with drops := t.crd.drops }, now := t.now } ∧
    ∀ k, k / 4096 ≠ s.fld .QCR_SEL 19 16 → Tbl.get 0 t.crd.drops k = Tbl.get 0 s.crd.drops k)

/-- STAGE of a free slot starts the check of its record. The end of the check leaves the slot STAGED where the record passes and no other slot holds one of its tenant, FAILED with BUSY where one does, FAILED with the first failing code otherwise. DISCARD empties a slot that is not COMMITTING. COMMIT of a staged record is refused, the record staying staged, with JOURNAL_FULL, with STATE for kind 0 of a tenant in service, with NOACT for kind 1 of a class H tenant without ACT_CYCLE, with LATE less than two cycles ahead; else the record enters the journal, not yet complete, and the slot is COMMITTING; kind 0 of a tenant that drains waits, any other takes the tenant to DRAIN under its next generation, and completes once it is OUT with the amended structure in force. A kind 1 commit completes as DONE: TEN_SEQ and the amendment count rise by 1, the journal entry is complete and the change waits; one that fails its check again is FAILED and leaves the journal. The change takes effect as a slot window of the tenant starts after the commit, and at no other time: without ACT_CYCLE the next, with it only in the cycle that it names. That JOURNAL_FULL comes first where several codes hold is the model's choice (log entry 123). -/
def Obligations.AmendmentsAreStagedAndCommitted : Prop :=
  (∀ r s, let k := s.amdSel
    ((s.amdSlot k).st = .empty ∨ (s.amdSlot k).st = .done ∨ (s.amdSlot k).st = .failed → Runs (.stage r) s fun t =>
      (t.amdSlot k).st = .verifying ∧ (t.amdSlot k).rec_ = r ∧ (∀ j, j ≠ k → t.amdSlot j = s.amdSlot j) ∧ t.jrnl = s.jrnl) ∧
    ((s.amdSlot k).st = .staged ∨ (s.amdSlot k).st = .committing ∨ (s.amdSlot k).st = .verifying →
      exec (.stage r) s = .next s) ∧
    ((s.amdSlot k).st ≠ .committing → Runs .discard s fun t => t.amdSlot k = {} ∧ (∀ j, j ≠ k → t.amdSlot j = s.amdSlot j) ∧
      t.jrnl = s.jrnl) ∧
    ((s.amdSlot k).st = .committing → exec .discard s = .next s)) ∧
  (∀ k s, (s.amdSlot k).st = .verifying → s.pwr.supRuns = true →
    (∀ r c, (s.amdSlot k).rec_ = some r → s.amdCheck r = .error c → c ≠ 0 → Runs (.stageDone k) s fun t =>
      (t.amdSlot k).st = .failed ∧ (t.amdSlot k).result = c ∧ t.plan = s.plan) ∧
    (∀ r a, (s.amdSlot k).rec_ = some r → s.amdCheck r = .ok a → Runs (.stageDone k) s fun t =>
      (t.amdSlot k).st = (if s.amdBusy k a.tenant then .failed else .staged) ∧
      (t.amdSlot k).result = (if s.amdBusy k a.tenant then 0x14 else 0) ∧ (t.amdSlot k).kind = a.kind ∧ t.plan = s.plan)) ∧
  (∀ r s x, x = s.amdSlot s.amdSel → x.st = .staged → x.rec_ = some r → s.pwr.supRuns = true →
    let act := Tbl.get 0 s.boot.amdAct s.amdSel
    let room := s.jrnlRoom (bnum r.obj.bytes recordForm.lenAt 4)
    let ahead := (act + 2 ^ 32 - s.cycleOf x.tenant % 2 ^ 32) % 2 ^ 32
    let refused (c : Nat) (t : State) : Prop := (t.amdSlot s.amdSel).st = .staged ∧ (t.amdSlot s.amdSel).result = c ∧
      t.jrnl = s.jrnl ∧ t.ten = s.ten
    let taken (t : State) : Prop := (t.amdSlot s.amdSel).st = .committing ∧
      t.jrnl.entries = s.jrnl.entries ++ [JrnlEntry.mk (.amd r) (bnum r.obj.bytes recordForm.lenAt 4) false]
    (room = false → Runs .commit s (refused 0x16)) ∧
    (room = true → x.kind = 0 → (s.tenant x.tenant).svc = .in_ → Runs .commit s (refused 0x13)) ∧
    (room = true → x.kind = 1 → act = 0 → s.classH x.tenant = true → Runs .commit s (refused 0x17)) ∧
    (room = true → x.kind = 1 → act ≠ 0 → ahead < 2 ∨ 2 ^ 31 ≤ ahead → Runs .commit s (refused 0x15)) ∧
    (room = true → x.kind = 1 → (act = 0 ∧ s.classH x.tenant = false) ∨ (act ≠ 0 ∧ 2 ≤ ahead ∧ ahead < 2 ^ 31) →
      Runs .commit s fun t => taken t ∧ (t.amdSlot s.amdSel).act = act ∧ t.ten = s.ten) ∧
    (room = true → x.kind = 0 → (s.tenant x.tenant).svc = .drain → Runs .commit s fun t => taken t ∧
      (t.amdSlot s.amdSel).waits = true ∧ (t.tenant x.tenant).commit = true ∧ (t.tenant x.tenant).gen = (s.tenant x.tenant).gen) ∧
    (room = true → x.kind = 0 → (s.tenant x.tenant).svc = .out ∨ (s.tenant x.tenant).svc = .frozen → Runs .commit s fun t =>
      taken t ∧ (t.amdSlot s.amdSel).waits = false ∧ (t.tenant x.tenant).commit = true ∧ (t.tenant x.tenant).svc = .drain ∧
      (t.tenant x.tenant).gen = (if (s.tenant x.tenant).gen = 0xFFFF then 1 else (s.tenant x.tenant).gen + 1))) ∧
  (∀ k r s x a, x = s.amdSlot k → x.st = .committing → x.rec_ = some r → x.waits = false → x.kind = 0 → s.pwr.supRuns = true →
    s.amdCheck r = .ok a → (s.tenant x.tenant).held = none →
    ((s.tenant x.tenant).svc = .out → Runs (.commitDone k) s fun t => (t.amdSlot k).st = .done ∧ t.plan = a.plan ∧
      t.jrnl.entries = jrnlEnd r true s.jrnl.entries) ∧
    ((s.tenant x.tenant).svc ≠ .out → exec (.commitDone k) s = .next s)) ∧
  (∀ k r s x, x = s.amdSlot k → x.st = .committing → x.rec_ = some r → x.waits = false → x.kind = 1 → s.pwr.supRuns = true →
    (s.tenant x.tenant).held = none →
    (∀ a, s.amdCheck r = .ok a → Runs (.commitDone k) s fun t => (t.amdSlot k).st = .done ∧ t.acts =
      s.acts ++ [AmdAct.mk a.tenant x.act r s.frc] ∧ (t.tenant a.tenant).seq = (s.tenant a.tenant).seq + 1 ∧
      t.boot.amdCount = s.boot.amdCount + 1 ∧ t.jrnl.entries = jrnlEnd r true s.jrnl.entries ∧ t.plan = s.plan ∧
      t.boot.runDigest = Config.sha384 (digestBytes s.boot.runDigest ++ digestBytes (recordForm.digest r.obj.bytes))) ∧
    (∀ c, s.amdCheck r = .error c → c ≠ 0 → Runs (.commitDone k) s fun t => (t.amdSlot k).st = .failed ∧
      (t.amdSlot k).result = c ∧ t.acts = s.acts ∧ t.jrnl.entries = jrnlEnd r false s.jrnl.entries ∧ t.plan = s.plan)) ∧
  (∀ n a x s, s.acts = [a] → a.tenant = n → s.recordCheck a.rec_ = .ok x →
    (s.windowStarts n a.at_ = true → a.act = 0 ∨ s.cycleOf n % 2 ^ 32 = a.act → Runs (.amdActivation n) s fun t => t.acts = [] ∧ t.plan = s.plan.amend n x) ∧
    (s.windowStarts n a.at_ = false ∨ (a.act ≠ 0 ∧ s.cycleOf n % 2 ^ 32 ≠ a.act) → exec (.amdActivation n) s = .next s)) ∧
  (∀ n s, s.acts = [] → exec (.amdActivation n) s = .next s) ∧
  (∀ r b rest, jrnlEnd r true (JrnlEntry.mk (.amd r) b false :: rest) = JrnlEntry.mk (.amd r) b true :: rest ∧
    jrnlEnd r false (JrnlEntry.mk (.amd r) b false :: rest) = rest)

/-- TIME_COMMIT_NOW with no commit pending applies at once: OFS, ANC and RATE in force take the values of the _NX registers (without FOLD), RATE with FOLD too and ANC is the FRC; a SERVO commit restarts the hold timer. TIME_COMMIT_AT before its FRC count only makes the commit pending, at or after it applies at once with CMT_LATE; either while one is pending only sets CMT_BUSY. During a supervisor warm restart a SERVO commit does nothing. TIME_COMMIT_CANCEL leaves nothing pending. TIME_COMMIT_APPLY applies a pending commit whose FRC count has come. The FRC never changes. -/
def Obligations.TimeCommitsApplyWholly : Prop :=
  (∀ fold s, s.pwr.warm = true → exec (.timeCommitNow fold true) s = .next s ∧ exec (.timeCommitAt fold true) s = .next s) ∧
  (∀ fold servo s, (servo = true → s.pwr.warm = false) → s.tb.pending = none →
    Runs (.timeCommitNow fold servo) s fun t =>
      t.tb.pending = none ∧ t.frc = s.frc ∧ t.rg .TMB_RATE = s.rg .TMB_RATE_NX ∧
      (fold = false → t.rg .TMB_OFS = s.rg .TMB_OFS_NX ∧ t.rg .TMB_ANC = s.rg .TMB_ANC_NX) ∧
      (fold = true → t.rg .TMB_ANC = s.frc % 2 ^ 64) ∧
      t.tb.holdFrom = if servo then s.frc else s.tb.holdFrom) ∧
  (∀ fold servo s, (servo = true → s.pwr.warm = false) → s.tb.pending = none → s.frc < s.rg .TMB_CMT_AT →
    exec (.timeCommitAt fold servo) s = .next { s with tb := { s.tb with
      pending := some { at_ := s.rg .TMB_CMT_AT, fold := fold, servo := servo } } }) ∧
  (∀ fold servo s, (servo = true → s.pwr.warm = false) → s.tb.pending = none → s.rg .TMB_CMT_AT ≤ s.frc →
    Runs (.timeCommitAt fold servo) s fun t =>
      t.tb.pending = none ∧ t.flag .TMB_STAT 2 = true ∧ t.rg .TMB_RATE = s.rg .TMB_RATE_NX ∧ t.frc = s.frc) ∧
  (∀ fold servo s, (servo = true → s.pwr.warm = false) → s.tb.pending ≠ none →
    exec (.timeCommitNow fold servo) s = .next (s.setFlag .TMB_STAT 3) ∧
    exec (.timeCommitAt fold servo) s = .next (s.setFlag .TMB_STAT 3)) ∧
  (∀ s, exec .timeCommitCancel s = .next { s with tb := { s.tb with pending := none } }) ∧
  (∀ s p, s.tb.pending = some p → p.at_ ≤ s.frc →
    Runs .timeCommitApply s fun t =>
      t.tb.pending = none ∧ t.rg .TMB_RATE = s.rg .TMB_RATE_NX ∧ t.frc = s.frc ∧
      (p.fold = false → t.rg .TMB_OFS = s.rg .TMB_OFS_NX ∧ t.rg .TMB_ANC = s.rg .TMB_ANC_NX))

/-- REQ 1 takes every state but LOCKED to LOCKED; REQ 2 takes LOCKED to HOLDOVER and changes no other state; REQ 3 takes LOCKED and HOLDOVER to LOST and changes no other state; the hold timer takes LOCKED to HOLDOVER once TIMEOUT ms (at least 100) have passed; LIMIT seconds (at least 1) in HOLDOVER lead to LOST; loss of the reference takes LOCKED to HOLDOVER and sets both REF_LOST bits. Each transition sets STATE_CHG and enters the state that the table names. Restoring the reference while main power is good leaves the state as it is. -/
def Obligations.SyncStateFollowsTable : Prop :=
  (∀ s, s.tb.sync ≠ .locked → Runs .claimLock s fun t =>
    t.tb.sync = .locked ∧ t.tb.holdFrom = s.frc ∧ t.flag .TMB_STAT 5 = true) ∧
  (∀ s, s.tb.sync = .locked → exec .claimLock s = .next s) ∧
  (∀ s, s.tb.sync = .locked → Runs .enterHoldover s fun t =>
    t.tb.sync = .holdover ∧ t.tb.holdoverAt = s.frc ∧ t.flag .TMB_STAT 5 = true) ∧
  (∀ s, s.tb.sync ≠ .locked → exec .enterHoldover s = .next s) ∧
  (∀ s, s.tb.sync = .locked ∨ s.tb.sync = .holdover → Runs .declareLost s fun t =>
    t.tb.sync = .lost ∧ t.flag .TMB_STAT 5 = true) ∧
  (∀ s, s.tb.sync = .free ∨ s.tb.sync = .lost → exec .declareLost s = .next s) ∧
  (∀ s, s.tb.sync = .locked → s.tb.holdFrom + max 100 (s.fld .TMB_HOLD 15 0) * ms ≤ s.frc →
    Runs .holdTimerExpiry s fun t => t.tb.sync = .holdover ∧ t.flag .TMB_STAT 5 = true) ∧
  (∀ s, s.tb.sync = .holdover → s.tb.holdoverAt + max 1 (s.fld .TMB_HOLD 31 16) * sec ≤ s.frc →
    Runs .holdoverLimitExpiry s fun t => t.tb.sync = .lost ∧ t.flag .TMB_STAT 5 = true) ∧
  (∀ s, s.pwr.main = true → s.pwr.refOk = true → Runs .referenceLost s fun t =>
    t.tb.sync = (if s.tb.sync = .locked then .holdover else s.tb.sync) ∧ t.pwr.refOk = false ∧
    t.flag .TMB_STAT 0 = true ∧ t.flag .CLK_STAT 0 = true ∧ t.frc = s.frc) ∧
  (∀ s, s.pwr.main = true → exec .referenceRestored s = .next { s with pwr := { s.pwr with refOk := true } })

/-- While locked, a whole second of device time that was not kept yet sets TMB_RTC from it; at other times, and without lock, nothing happens. PPS_OUT rises at a whole second when OUTEN is set and, with GATE, only while locked; it falls once its width has passed, or with GATE as the lock is declared lost. An accepted PPS_IN edge that is not early writes its stamp and sets PPSIN_CAP; an early one counts in PPSCFG.EARLY alone. 1.5 s after the last edge PPS_LOST is set. `newSecond` says that this second's rise, or setting, has not happened yet. -/
def Obligations.SecondsAndPulsesFollowDeviceTime : Prop :=
  (∀ s, s.locked = true → s.atSecond = true → s.newSecond s.tb.rtcSecond = true → Runs .rtcSecond s fun t =>
    t.tb.rtcValid = true ∧ t.tb.rtc = s.dtSec * 32768 ∧ t.tb.rtcFrom = s.frc ∧ t.rf = s.rf) ∧
  (∀ s, s.locked = false ∨ s.atSecond = false ∨ s.newSecond s.tb.rtcSecond = false → exec .rtcSecond s = .next s) ∧
  (∀ s, s.locked = true → s.tb.ppsHigh = true → s.flag .TMB_PPSCFG 1 = true → Runs .declareLost s fun t =>
    t.tb.ppsHigh = false ∧ t.out = s.out ++ [.pps false]) ∧
  (∀ s, s.flag .TMB_PPSCFG 0 = true → s.atSecond = true → s.newSecond s.tb.ppsRise = true →
    (s.flag .TMB_PPSCFG 1 = true → s.locked = true) →
    Runs .ppsOutRise s fun t => t.tb.ppsHigh = true ∧ s.frc + ms ≤ t.tb.ppsFall ∧ t.out = s.out ++ [.pps true] ∧
      t.rf = s.rf) ∧
  (∀ s, s.flag .TMB_PPSCFG 1 = true → s.locked = false → exec .ppsOutRise s = .next s) ∧
  (∀ s, s.tb.ppsHigh = true → s.tb.ppsFall ≤ s.frc →
    exec .ppsOutFall s = .next { s with tb := { s.tb with ppsHigh := false }, out := s.out ++ [.pps false] }) ∧
  (∀ s, (∀ f, s.tb.ppsIn = some f → f + 900 * ms ≤ s.frc) → Runs .ppsInEdge s fun t =>
    t.rg .TMB_PPSIN_NS = stampNs s.dt ∧ t.flag .TMB_STAT 7 = true ∧ t.tb.ppsIn = some s.frc) ∧
  (∀ s f, s.tb.ppsIn = some f → s.frc < f + 900 * ms →
    Runs .ppsInEdge s fun t => t.tb = s.tb ∧ t.fld .TMB_PPSCFG 15 8 = satInc 8 (s.fld .TMB_PPSCFG 15 8)) ∧
  (∀ s f, s.tb.ppsIn = some f → f + 1500 * ms ≤ s.frc → s.tb.ppsLost = false → Runs .ppsLost s fun t =>
    t.flag .TMB_STAT 6 = true ∧ t.tb.ppsLost = true)

/-- A one-step Sync at Thyme leaves its queue and, on the servo port in the servo domain, is captured (SEQ and SRV_CAP). A Pdelay_Req leaves the queue. A Pdelay_Resp that matches the port's outstanding request writes TMB_PDRAW with VALID and closes the request. Two-step Sync, Delay_Req and Delay_Resp count in TMB_PTPUNS, and so does a frame that carries no message of the table (the model's choice, log entry 124). Announce, Signaling and Management go to the supervisor with their stamp. A due peer-delay interval of an enabled port that is up and no PARTNER port opens a new request with the next sequence number, and counts the one left open as missed. -/
def Obligations.ThymeHandlesPtpFrames : Prop :=
  (∀ s rx m rest, s.tb.ptpRx = rx :: rest → rx.frame.payload = .ptp m → m.type = .sync → m.twoStep = false →
    Runs .syncRx s fun t => t.tb.ptpRx = rest ∧
      (s.flag .TMB_SRVCFG 3 = true → s.fld .TMB_SRVCFG 2 0 = rx.port → s.fld .TMB_PTPCFG 23 16 = m.domain →
        t.fld .TMB_SRVCFG 31 16 = m.seq % 65536 ∧ t.flag .TMB_STAT 8 = true ∧ t.tb.srvUnread = true)) ∧
  (∀ s rx m rest, s.tb.ptpRx = rx :: rest → rx.frame.payload = .ptp m → m.type = .pdelayReq →
    Runs .pdelayReq s fun t => t.tb.ptpRx = rest ∧ t.frc = s.frc) ∧
  (∀ s rx m rest o t1, s.tb.ptpRx = rx :: rest → rx.frame.payload = .ptp m → m.type = .pdelayResp →
    Tbl.get none s.tb.pdOut rx.port = some o → o.t1 = some t1 → o.seq = m.seq → rx.port < 8 →
    Runs .pdelayResp s fun t => t.tb.ptpRx = rest ∧ t.flag .TMB_PDRAW 31 rx.port = true ∧
      t.fld .TMB_PDRAW 23 0 rx.port = unsigned 24 ((stampDiff rx.stamp t1 - m.corr / 256) / 2)) ∧
  (∀ s rx m rest, s.tb.ptpRx = rx :: rest → rx.frame.payload = .ptp m →
    (m.type = .sync ∧ m.twoStep = true) ∨ m.type = .delayReq ∨ m.type = .delayResp →
    Runs .ptpUnsupported s fun t => t.tb.ptpRx = rest ∧ t.rg .TMB_PTPUNS = satInc 32 (s.rg .TMB_PTPUNS)) ∧
  (∀ s rx rest, s.tb.ptpRx = rx :: rest → (∀ m, rx.frame.payload ≠ .ptp m) → Runs .ptpUnsupported s fun t =>
    t.tb.ptpRx = rest ∧ t.rg .TMB_PTPUNS = satInc 32 (s.rg .TMB_PTPUNS) ∧ t.out = s.out) ∧
  (∀ s rx m rest, s.tb.ptpRx = rx :: rest → rx.frame.payload = .ptp m →
    m.type = .announce ∨ m.type = .signaling ∨ m.type = .management →
    Runs .ptpGeneral s fun t => t.tb.ptpRx = rest ∧ .supervisor rx.frame rx.stamp ∈ t.out) ∧
  (∀ s n, n < 8 → s.flag .TMB_PTPCFG 24 = true → bit (s.fld .TMB_PTPCFG 7 0) n = true → (s.prt n).up = true →
    s.role n ≠ Role.partner → Tbl.get 0 s.tb.pdNext n ≤ s.frc →
    Runs (.pdelayInterval n) s fun t =>
      (Tbl.get none t.tb.pdOut n).map (·.seq) = some ((Tbl.get 0 s.tb.pdSeq n + 1) % 65536) ∧
      Tbl.get 0 t.tb.pdNext n = s.frc + s.pdPeriod ∧
      ((Tbl.get none s.tb.pdOut n).isSome = true → t.flag .TMB_PDRAW 31 n = false ∧
        t.fld .TMB_PDRAW 30 24 n = satInc 7 (s.fld .TMB_PDRAW 30 24 n)))

/-- A system request of SET, CLEAR, TOGGLE, PULSE (width not 0) or FIRE to a channel that the system owns, with fewer than 8 entries that take a place (the falls of a periodic run take none) and an instant no more than 10 s ahead, enters one entry (RESULT 0, or 1 and LATE if the instant is less than 200 ns ahead). START_PERIODIC with a legal period and a place free starts the run. A request to a channel that the system does not own gives RESULT 2 and counts in REFUSED. STOP ends a run; FLUSH empties the queue. -/
def Obligations.ThymeRequestsEnterOrAreRefused : Prop :=
  (∀ n s, n < 32 → s.chOwnerKind n = 1 → (s.ch n).places < 8 → s.schedInstant ≤ s.dt + 10000000000 * 256 →
    let res := if s.schedInstant < s.dt + 200 * 256 then 1 else 0
    let entered (a : TtuAct) (t : State) : Prop :=
      (t.ch n).q = ttuInsert { instant := s.schedInstant, act := a, late := decide (res = 1) } (s.ch n).q ∧
      t.rg .TTU_SCHED_STAT = res ∧ (t.ch n).refused = (s.ch n).refused ∧ t.frc = s.frc
    Runs (.ttuSet n) s (entered .set) ∧ Runs (.ttuClear n) s (entered .clear) ∧
    Runs (.ttuToggle n) s (entered .toggle) ∧ Runs (.ttuFire n) s (entered .fire) ∧
    ∀ w, w ≠ 0 → Runs (.ttuPulse n w) s (entered (.pulse w))) ∧
  (∀ n w s, n < 32 → s.chOwnerKind n = 1 → s.chPeriodic n = true → (s.ch n).places < 8 → 1000 ≤ s.fld .TTU_CHPER 33 0 n →
    s.fld .TTU_CHPER 33 0 n ≤ 10000000000 → s.fld .TTU_CHPREM 15 0 n < max 1 (s.fld .TTU_CHPREM 31 16 n) →
    s.dt + 200 * 256 ≤ s.schedInstant → s.schedInstant ≤ s.dt + 10000000000 * 256 →
    Runs (.ttuStartPeriodic n w) s fun t => t.rg .TTU_SCHED_STAT = 0 ∧
      ∃ r, (t.ch n).run = some r ∧ r.base = s.schedInstant ∧ r.width = w ∧ r.k = 0 ∧
        r.num = s.fld .TTU_CHPER 33 0 n * r.den + s.fld .TTU_CHPREM 15 0 n) ∧
  (∀ n s, n < 32 → s.chOwnerKind n ≠ 1 →
    let turned (t : State) : Prop := t.rg .TTU_SCHED_STAT = 2 ∧ (t.ch n).q = (s.ch n).q ∧
      (t.ch n).refused = satInc 6 (s.ch n).refused
    Runs (.ttuSet n) s turned ∧ Runs (.ttuClear n) s turned ∧ Runs (.ttuToggle n) s turned ∧
    Runs (.ttuFire n) s turned ∧ Runs (.ttuStop n) s turned ∧ Runs (.ttuFlush n) s turned ∧
    ∀ w, Runs (.ttuPulse n w) s turned ∧ Runs (.ttuStartPeriodic n w) s turned) ∧
  (∀ n s, n < 32 → s.chOwnerKind n = 1 → s.chPeriodic n = true →
    Runs (.ttuStop n) s fun t => (t.ch n).run = none ∧ t.rg .TTU_SCHED_STAT = 0) ∧
  (∀ n s, n < 32 → s.chOwnerKind n = 1 →
    Runs (.ttuFlush n) s fun t => (t.ch n).q = [] ∧ (t.ch n).level = s.chIdle n ∧ t.rg .TTU_SCHED_STAT = 0)

/-- ENTRY_EXECUTE of a SET or CLEAR entry that alone stands at the earliest instant, once device time has reached the vernier step and outside NEEDLOCK, removes the entry and sets the level. An entry that is not due stays. PERIODIC_INSTANT of a due run advances it by one occurrence and leaves its period. A tenant's request of the current generation to a channel it owns, with room and a timely instant, enters the channel and gives its boundary-8 credit back; one of an older generation is discarded with no effect but its leaving. -/
def Obligations.ThymeExecutesDueEntries : Prop :=
  (∀ n s e, n < 32 → (s.ch n).q = [e] → s.dueAt e.instant = true → s.chNeedLock n = false →
    (e.act = .set → Runs (.entryExecute n) s fun t => (t.ch n).q = [] ∧ (t.ch n).level = true) ∧
    (e.act = .clear → Runs (.entryExecute n) s fun t => (t.ch n).q = [] ∧ (t.ch n).level = false)) ∧
  (∀ n s e rest, (s.ch n).q = e :: rest → s.dueAt e.instant = false → exec (.entryExecute n) s = .next s) ∧
  (∀ n s r, n < 32 → (s.ch n).run = some r → r.nextVernier ≤ s.dt →
    Runs (.periodicInstant n) s fun t => ∃ r', (t.ch n).run = some r' ∧ r'.k = r.k + 1 ∧ r'.base = r.base ∧
      r'.num = r.num ∧ r'.den = r.den) ∧
  (∀ s r rest, s.ttuReqs = r :: rest → r.gen = s.genOf r.tenant → s.chOwnerKind r.ch = 2 → r.ch < 32 →
    s.chOwner r.ch = r.tenant → (s.ch r.ch).places < 8 → (∀ w, r.act = .pulse w → w ≠ 0) →
    s.dt + 200 * 256 ≤ r.instant → r.instant ≤ s.dt + 10000000000 * 256 →
    Runs .timedOutputRequest s fun t => t.ttuReqs = rest ∧
      (t.ch r.ch).q = ttuInsert { instant := r.instant, act := r.act, owner := some (r.tenant, r.gen) } (s.ch r.ch).q ∧
      Tbl.get 0 t.crd.used (crdKey 8 r.tenant) = Tbl.get 0 s.crd.used (crdKey 8 r.tenant) - 1) ∧
  (∀ s r rest, s.ttuReqs = r :: rest → r.gen ≠ s.genOf r.tenant →
    exec .timedOutputRequest s = .next { s with ttuReqs := rest })

/-- Commands of the synchronisation state, PPS and the seconds keeper change the timebase, registers of the timebase and clock blocks, Walnut, Almond and the log of outputs, and nothing else; a commit may also change Thyme, its targets and the capture units that a fire arms; Thyme's commands leave the timebase alone. None changes a byte of memory or the FRC. -/
def Obligations.TimeCommandsFrame : Prop :=
  (let upd (s t : State) : State := { s with
     tb := { t.tb with frc := s.tb.frc }, rf := t.rf, evr := t.evr, ltl := t.ltl, out := t.out
     pwr := { s.pwr with refOk := t.pwr.refOk } }
   ∀ i ∈ [Instr.claimLock, .enterHoldover, .declareLost, .holdTimerExpiry, .holdoverLimitExpiry, .referenceLost,
     .rtcSecond, .ppsOutRise, .ppsOutFall, .ppsInEdge, .ppsLost, .timeCommitCancel],
     Leaves i [2, 3, 64] upd) ∧
  (let upd (s t : State) : State := { s with
     tb := { s.tb with pending := t.tb.pending, holdFrom := t.tb.holdFrom }
     rf := t.rf, evr := t.evr, ltl := t.ltl, out := t.out, ttu := t.ttu, edges := t.edges, evts := t.evts, dcr := t.dcr }
   Leaves .timeCommitApply [3, 31, 64] upd ∧
   ∀ fold servo, Leaves (.timeCommitNow fold servo) [3, 31, 64] upd ∧ Leaves (.timeCommitAt fold servo) [3, 31, 64] upd) ∧
  (let upd (s t : State) : State := { s with
     ttu := t.ttu, rf := t.rf, evr := t.evr, out := t.out, edges := t.edges, evts := t.evts, dcr := t.dcr }
   ∀ n w, Leaves (.ttuSet n) [4] upd ∧ Leaves (.ttuClear n) [4] upd ∧ Leaves (.ttuToggle n) [4] upd ∧
     Leaves (.ttuPulse n w) [4] upd ∧ Leaves (.ttuFire n) [4, 64] upd ∧ Leaves (.ttuStartPeriodic n w) [4] upd ∧
     Leaves (.ttuStop n) [4] upd ∧ Leaves (.ttuFlush n) [4] upd ∧ Leaves (.entryExecute n) [31, 64] upd ∧
     Leaves (.periodicInstant n) [31, 64] upd)

/-- A PAUSE (PFC) frame on a port that is UP counts once in PAUSE_RX (PFC_RX). Without the action bit, within the 1 ms after a capped hold or on a PARTNER port it has no other effect. With the action a PAUSE of q quanta holds every class of the port for exactly the time of q quanta from now, a PFC frame each class that its vector and the port's mask enable; a hold in force keeps its uninterrupted start, zero quanta end it, and with a frame in transmission a new hold waits: FRAME_TRANSMITTED begins it. The end of a hold keeps the holds that are in force or wait and no other. A hold of PAUSE or of a class that has lasted PAUSE_CAP ends, sets PAUSE_CAPPED and counts, and the port ignores pause for 1 ms; before that PAUSE_CAP_END changes nothing. After the 1 ms the port acts again. A request for NORMAL or RECOVERY sets the mode. A request for TEST does so in lifecycle TEST and on a SPARE port, and is otherwise refused with FILT REQ_REFUSED and the mode as it was. A change of mode sets FILT_CHG; a request for the mode in force has no effect. -/
def Obligations.PauseAndFilterModesFollowTables : Prop :=
  (∀ n q s, n < 8 → s.receives n = true → s.flag .MAC_CFG 10 n = false ∨ s.pauseActs n = false →
    Runs (.pause n q) s fun t => t.rg .MAC_CNT n 9 = satAdd 64 (s.rg .MAC_CNT n 9) 1 ∧ t.ports = s.ports) ∧
  (∀ n en q s, n < 8 → s.receives n = true → s.flag .MAC_CFG 11 n = false ∨ s.pauseActs n = false →
    Runs (.pfc n en q) s fun t => t.rg .MAC_CNT n 10 = satAdd 64 (s.rg .MAC_CNT n 10) 1 ∧ t.ports = s.ports) ∧
  (∀ n q s, n < 8 → s.receives n = true → s.flag .MAC_CFG 10 n = true → s.pauseActs n = true →
    (s.quantaNs n q = 0 → Runs (.pause n q) s fun t => (t.prt n).pause = none) ∧
    (∀ h, (s.prt n).pause = some h → h.active s.frc = true → 0 < s.quantaNs n q → Runs (.pause n q) s fun t =>
      (t.prt n).pause = some { h with stop := s.frc + s.quantaNs n q }) ∧
    ((s.prt n).pause = none → 0 < s.quantaNs n q → (s.prt n).tx = none → Runs (.pause n q) s fun t => t.frc = s.frc ∧
      (t.prt n).pause = some { start := s.frc, stop := s.frc + s.quantaNs n q } ∧ ∀ c, (t.prt n).heldClass c t.frc = true) ∧
    (∀ f, (s.prt n).pause = none → 0 < s.quantaNs n q → (s.prt n).tx = some f → Runs (.pause n q) s fun t =>
      (t.prt n).pause = some { start := s.frc, stop := s.frc, waits := some (s.quantaNs n q) })) ∧
  (∀ n en q s c, n < 8 → c < 8 → s.receives n = true → s.flag .MAC_CFG 11 n = true → s.pauseActs n = true →
    (s.prt n).tx = none → Tbl.get none (s.prt n).pfc c = none → Runs (.pfc n en q) s fun t =>
    Tbl.get none (t.prt n).pfc c = if bit en c && bit (s.fld .MAC_CFG 23 16 n) c && decide (0 < s.quantaNs n (q.getD c 0)) then
      some { start := s.frc, stop := s.frc + s.quantaNs n (q.getD c 0) } else none) ∧
  (∀ n s f ns, n < 8 → (s.prt n).tx = some f → (s.prt n).pause = some { start := s.frc, stop := s.frc, waits := some ns } →
    Runs (.frameTransmitted n) s fun t => (t.prt n).pause = some { start := s.frc, stop := s.frc + ns }) ∧
  (∀ n s, n < 8 → Runs (.pauseHoldEnd n) s fun t =>
    (t.prt n).pause = (s.prt n).pause.filter (fun h => h.active s.frc || h.waits.isSome) ∧
    (t.prt n).pfc = (s.prt n).pfc.filter (fun e => e.2.any fun h => h.active s.frc || h.waits.isSome) ∧
    ((s.prt n).held s.frc = false → (t.prt n).heldFrom = none)) ∧
  (∀ n s, n < 8 →
    let over_ (h : Hold) : Prop := h.active s.frc = true ∧ h.start + min 10000 (max 1 (s.fld .MAC_PAUSECFG 13 0 n)) * us ≤ s.frc
    let ended (t : State) : Prop := t.flag .MAC_STAT 10 n = true ∧ (t.prt n).ignoreTo = s.frc + ms ∧
      t.rg .MAC_CNT n 23 = satAdd 64 (s.rg .MAC_CNT n 23) 1
    (∀ h, (s.prt n).pause = some h → over_ h → Runs (.pauseCapEnd n) s fun t => ended t ∧ (t.prt n).pause = none) ∧
    (∀ e h, e ∈ (s.prt n).pfc → e.2 = some h → over_ h → Runs (.pauseCapEnd n) s fun t => ended t ∧ e ∉ (t.prt n).pfc) ∧
    ((∀ h, (s.prt n).pause = some h → ¬ over_ h) → (∀ e ∈ (s.prt n).pfc, ∀ h, e.2 = some h → ¬ over_ h) →
      exec (.pauseCapEnd n) s = .next s)) ∧
  (∀ n s, n < 8 → (s.prt n).ignoreTo ≤ s.frc → Runs (.pauseIgnoreEnd n) s fun t => (t.prt n).ignoreTo = 0 ∧ t.rf = s.rf) ∧
  (∀ n s, n < 8 →
    let goes (m : FilterMode) (t : State) : Prop := (t.prt n).filt = m ∧ t.frc = s.frc ∧
      ((s.prt n).filt ≠ m → t.flag .MAC_STAT 0 n = true) ∧ ((s.prt n).filt = m → t = s)
    Runs (.filtReqNormal n) s (goes .normal) ∧ Runs (.filtReqRecovery n) s (goes .recovery) ∧
    (s.fld .ATT_LC 2 0 = 0 ∨ s.role n = Role.spare → Runs (.filtReqTest n) s (goes .test))) ∧
  (∀ n s, n < 8 → (s.prt n).filt = .test → exec (.filtReqTest n) s = .next s) ∧
  (∀ n s, n < 8 → (s.prt n).filt ≠ .test → s.fld .ATT_LC 2 0 ≠ 0 → s.role n ≠ Role.spare →
    exec (.filtReqTest n) s = .next (s.setFlag .MAC_STAT 11 n))

/-- On a port with a role that is UP: a frame cut by loss of lock, of 16,384 bytes or more, shorter than 64 bytes or with a bad FCS counts once under its outcome and reaches nothing; on a port that is not UP nothing is received. A PTP frame on an enabled port goes to Thyme with its ingress stamp. On the PARTNER port an admitted frame with a credit of boundary 0 goes to pairing. On a SPARE port an admitted SV frame with credits at boundaries 0 and 1 and no other destination goes to Sesame and takes the boundary-1 credit. A unicast frame that no filter admits outside HSR counts as filtered and reaches nothing. -/
def Obligations.ReceivedFramesReachTheirConsumer : Prop :=
  (∀ n phi f lock fcs s, n < 8 → s.role n ≠ Role.off → s.receives n = false →
    Runs (.frameReceive n phi f lock fcs 0 0) s fun t => t.ports = s.ports ∧ t.svx = s.svx ∧ t.par = s.par ∧ t.tb = s.tb) ∧
  (∀ n phi f lock fcs s, n < 8 → s.role n ≠ Role.off → s.receives n = true →
    let only (k : Nat) (t : State) : Prop :=
      t.rg .MAC_CNT n k = satAdd 64 (s.rg .MAC_CNT n k) 1 ∧ t.ports = s.ports ∧ t.svx = s.svx ∧ t.goose = s.goose ∧
      t.par = s.par ∧ t.sw = s.sw ∧ t.crd = s.crd ∧ t.tb = s.tb
    (lock = true → Runs (.frameReceive n phi f lock fcs 0 0) s (only 5)) ∧
    (lock = false → 16384 ≤ f.len → Runs (.frameReceive n phi f lock fcs 0 0) s (only 4)) ∧
    (lock = false → f.len ≤ 63 → Runs (.frameReceive n phi f lock fcs 0 0) s (only 2)) ∧
    (lock = false → 63 < f.len → f.len < 16384 → fcs = false → Runs (.frameReceive n phi f lock fcs 0 0) s (only 3)) ∧
    (lock = false → 63 < f.len → f.len < 16384 → fcs = true → f.etherType ≠ 0x8808 → f.etherType ≠ 0x88F7 →
      s.role n ≠ Role.partner → s.admitted n f.da = false → s.hsr = false →
      Runs (.frameReceive n phi f lock fcs 0 0) s (only 6))) ∧
  (∀ n phi f s, n < 8 → s.role n ≠ Role.off → s.role n ≠ Role.partner → s.receives n = true → 63 < f.len →
    f.len < 16384 → f.len ≤ s.maxFrame n → f.etherType = 0x88F7 → bit (s.fld .TMB_PTPCFG 7 0) n = true →
    Runs (.frameReceive n phi f false true 0 0) s fun t => ∃ rx, t.tb.ptpRx = s.tb.ptpRx ++ [rx] ∧ rx.port = n ∧
      rx.frame = f ∧ rx.stamp = s.rxStamp n phi) ∧
  (∀ n phi f s, n < 8 → s.role n = Role.partner → s.receives n = true → 63 < f.len → f.len < 16384 →
    f.len ≤ s.maxFrame n → f.etherType ≠ 0x8808 → 0 < s.avail 0 n →
    Runs (.frameReceive n phi f false true 0 0) s fun t => ∃ rx, t.par.rx = s.par.rx ++ [rx] ∧ rx.port = n ∧
      rx.frame = f ∧ rx.oversize = false ∧ t.rg .MAC_CNT n 0 = satAdd 64 (s.rg .MAC_CNT n 0) 1) ∧
  (∀ n phi f s, n < 8 → s.role n = Role.spare → s.receives n = true → 63 < f.len → f.len < 16384 →
    f.len ≤ s.maxFrame n → f.etherType = 0x88BA → s.admitted n f.da = true → 0 < s.avail 0 n → 0 < s.avail 1 n →
    s.lookup n (s.vidOf n f) f.da = {} →
    Runs (.frameReceive n phi f false true 0 0) s fun t => (∃ rx, t.svx.queue = s.svx.queue ++ [rx] ∧ rx.port = n ∧
      rx.frame = f ∧ rx.stamp = s.rxStamp n phi) ∧
      Tbl.get 0 t.crd.used (crdKey 1 n) = Tbl.get 0 s.crd.used (crdKey 1 n) + 1 ∧ t.sw = s.sw)

/-- Where the line of a locked port no longer meets the conditions of lock the port loses it: its time starts, a local or remote fault that is seen sets its flag, and without ADMIN_DOWN a 10G or 25G port sends the remote fault sequence; where the line still meets them nothing of the lock changes. Lock regained within DOWN_FILT on an UP link is a glitch that keeps it UP. A link that has held lock for UP_HOLD with ADMIN_DOWN clear goes UP with no hold of pause; one that has lacked it for DOWN_FILT, or whose ADMIN_DOWN is set, goes DOWN, and a frame in transmission ends cut. RX_IDLE ms without a counted frame set the flag once. MAC_CNTCLR leaves in the counters of its mask only what the present FRC count has counted, and every other as it was. A failed auto-negotiation sets its flag and negotiates again with the advertisement of R88. -/
def Obligations.LinksGoUpAndDown : Prop :=
  (∀ n x rf s, n < 8 → (s.prt n).lock = true →
    (s.lineLocks n x rf = false → Runs (.lossOfLock n false x rf) s fun t =>
      (t.prt n).lock = false ∧ (t.prt n).lockAt = s.frc ∧ (t.prt n).up = (s.prt n).up ∧
      (x.localFault = true → t.flag .MAC_STAT 8 n = true) ∧ (rf = true → t.flag .MAC_STAT 7 n = true) ∧
      (s.role n ≠ Role.off → s.flag .MAC_CFG 31 n = false → s.fld .MAC_CFG 5 4 n ≠ 2 →
        t.out = s.out ++ [.line n .remoteFault])) ∧
    (s.lineLocks n x rf = true → Runs (.lossOfLock n false x rf) s fun t =>
      (t.prt n).lock = true ∧ (t.prt n).lockAt = (s.prt n).lockAt ∧ t.out = s.out)) ∧
  (∀ n x s, n < 8 → (s.prt n).lock = false → s.role n ≠ Role.off → (s.prt n).up = true → s.lineLocks n x false = true →
    s.frc < (s.prt n).lockAt + s.downFilt n → Runs (.lockRegained ⟨n, x⟩) s fun t =>
    (t.prt n).lock = true ∧ (t.prt n).lockAt = s.frc ∧ (t.prt n).up = true ∧ t.flag .MAC_STAT 3 n = true ∧
    t.rg .MAC_CNT n 21 = satAdd 64 (s.rg .MAC_CNT n 21) 1) ∧
  (∀ n s, n < 8 → (s.prt n).lock = true → (s.prt n).up = false → s.flag .MAC_CFG 31 n = false → s.role n ≠ Role.off →
    s.pwr.main = true → s.pwr.serdesLow = false → s.boot.recovery = false → (s.prt n).lockAt + s.upHold n ≤ s.frc →
    Runs (.upHoldExpiry n) s fun t => (t.prt n).up = true ∧ (t.prt n).upAt = s.frc ∧ t.flag .MAC_STAT 2 n = true ∧
      (t.prt n).pause = none ∧ (t.prt n).pfc = []) ∧
  (∀ n s, n < 8 → (s.prt n).up = true →
    let down (t : State) : Prop := (t.prt n).up = false ∧ (t.prt n).tx = none ∧ (t.prt n).waiting = none ∧
      t.flag .MAC_STAT 1 n = true ∧
      ∀ f, (s.prt n).tx = some f → .frame n f.frame f.frame.len true ∈ t.out
    ((s.prt n).lock = false → (s.prt n).lockAt + s.downFilt n ≤ s.frc → Runs (.downFiltExpiry n) s down) ∧
    Runs (.adminDown n false) s (fun t => down t ∧ t.flag .MAC_CFG 31 n = true)) ∧
  (∀ n s, n < 8 → (s.prt n).up = true → (s.prt n).rxIdleSeen = false → s.fld .MAC_LINKCFG 13 0 n ≠ 0 →
    (s.prt n).rxAt + s.fld .MAC_LINKCFG 13 0 n * ms ≤ s.frc → Runs (.rxIdleTimeout n) s fun t =>
    t.flag .MAC_STAT 5 n = true ∧ (t.prt n).rxIdleSeen = true ∧ (t.prt n).up = true) ∧
  (∀ n m k s, n < 8 → k < 24 → k ≠ 22 → Runs (.macCntclr n m) s fun t =>
    t.rg .MAC_CNT n k = (if bit m k then s.countedNow .MAC_CNT n k else s.rg .MAC_CNT n k) ∧ t.frc = s.frc) ∧
  (∀ n r s, n < 8 → s.flag .MAC_CFG 7 n = true → s.fld .MAC_CFG 5 4 n = 2 → (s.prt n).up = false →
    Runs (.autonegFail n r) s fun t => t.flag .MAC_STAT 9 n = true ∧ (t.prt n).lock = false ∧ (t.prt n).anRf = r % 4 ∧
      (s.role n ≠ Role.off → s.flag .MAC_CFG 31 n = false → t.out = s.out ++ [.line n (.config true false 0 0)]))

/-- A frame that waits at a port that is UP, without ADMIN_DOWN, with no frame in transmission and no hold on its class, starts transmission: it leaves the waiting position, and unless its egress form exceeds MAX (which counts and drops it) it is in transmission, at least 64 bytes long. A frame whose class is held keeps waiting. FRAME_TRANSMITTED ends it: the frame is logged as sent whole and counted. CELL_TIME with nothing matched or queued changes nothing; with one match whose last cell crosses, the frame comes to wait at its port. -/
def Obligations.WaitingFramesLeaveWhole : Prop :=
  (∀ n phi s f, n < 8 → (s.prt n).waiting = some f → (s.prt n).tx = none → (s.prt n).up = true →
    s.flag .MAC_CFG 31 n = false → (s.prt n).heldClass f.cls s.frc = false → (s.egressFrame n f).len ≤ s.maxFrame n →
    Runs (.frameTransmit n phi) s fun t => (t.prt n).waiting = none ∧
      ∃ g, (t.prt n).tx = some g ∧ 64 ≤ g.frame.len ∧ g.frame.da = (s.egressFrame n f).da ∧
        g.ingress = s.txStamp n phi) ∧
  (∀ n phi s f, n < 8 → (s.prt n).waiting = some f → (s.prt n).tx = none → (s.prt n).up = true →
    s.flag .MAC_CFG 31 n = false → (s.prt n).heldClass f.cls s.frc = false → s.maxFrame n < (s.egressFrame n f).len →
    Runs (.frameTransmit n phi) s fun t => (t.prt n).waiting = none ∧ (t.prt n).tx = none ∧
      t.rg .MAC_CNT n 15 = satAdd 64 (s.rg .MAC_CNT n 15) 1) ∧
  (∀ n phi s f, (s.prt n).waiting = some f → (s.prt n).heldClass f.cls s.frc = true →
    exec (.frameTransmit n phi) s = .next s) ∧
  (∀ n s f, n < 8 → (s.prt n).tx = some f → Runs (.frameTransmitted n) s fun t => (t.prt n).tx = none ∧
    t.out = s.out ++ [.frame n f.frame f.frame.len false] ∧
    t.rg .MAC_CNT n 13 = satAdd 64 (s.rg .MAC_CNT n 13) 1) ∧
  (∀ s, s.sw.matched = [] → (∀ k, Tbl.get [] s.sw.voq k = []) → Runs .cellTime s fun t =>
    t.sw.frames = s.sw.frames ∧ t.sw.matched = [] ∧ t.ports = s.ports ∧ t.out = s.out) ∧
  (∀ s m f, s.sw.matched = [m] → (∀ k, Tbl.get [] s.sw.voq k = []) → Tbl.get none s.sw.frames m.id = some f →
    m.output < 8 → f.cells ≤ m.crossed + 1 → Runs .cellTime s fun t =>
    (t.prt m.output).waiting = some f ∧ t.sw.matched = [] ∧ t.out = s.out)

/-- A sequence number that the discard window of a source has just marked is a duplicate for the next 16 ticks; the number after the newest is fresh. DISCARD_TICK drops the positions and sources that no tick remembers. A write of the ST_MODE in force changes nothing; another one while a station port is UP sets MODE_REFUSED. FDB READ shows the selected entry. A legal INBUF write takes effect, one whose sum over the 16 inputs exceeds the buffer sets its flag and changes nothing else. The clears leave in the counters of their node only what the present FRC count has counted; a read of SWC_ICNT returns what it held before that and clears it. A supervisor frame records its source address, unless its EtherType is 0x88B5 (log entry 125); one for a single UP port joins that port's queue at input 13 while its cells fit. -/
def Obligations.SwitchAndRedundancyCommands : Prop :=
  (∀ (w : SeqWindow) n a b, n < 65536 → a ≤ b → b ≤ a + 16 → (w.decideSeq n a).2 ≠ .dup →
    ((w.decideSeq n a).1.decideSeq n b).2 = .dup) ∧
  (∀ (w : SeqWindow) a, w.top < 65536 → (w.decideSeq ((w.top + 1) % 65536) a).2 = .fresh) ∧
  (∀ s, Runs .discardTick s fun t => (∀ e ∈ t.prp.pb, e.live t.discardTick = true) ∧
    (∀ e ∈ t.prp.st, e.live t.discardTick = true) ∧ t.frc = s.frc ∧ t.rf = s.rf) ∧
  (∀ b s, (b = s.hsr → exec (.stModeWrite b) s = .next s) ∧
    (b ≠ s.hsr → (∃ n, n < 8 ∧ (s.role n = Role.stA ∨ s.role n = Role.stB) ∧ (s.prt n).up = true) →
      exec (.stModeWrite b) s = .next (s.setFlag .PRP_STAT 1))) ∧
  (∀ s, Runs .fdbRead s fun t => t.rg .SWC_FDBKEY = (Tbl.get {} s.sw.fdb (s.fld .SWC_FDBSEL 11 0)).key % 2 ^ 64 ∧
    t.rg .SWC_FDBACT = (Tbl.get {} s.sw.fdb (s.fld .SWC_FDBSEL 11 0)).act % 2 ^ 64 ∧ t.sw = s.sw) ∧
  (∀ i c v s, i < 15 → c < 8 → v < 2 ^ 18 →
    let total := ((List.range 15).flatMap fun x => (List.range 8).map fun y =>
      if x = i ∧ y = c then v else s.fld .SWC_INBUF 17 0 x y).foldl (· + ·) (8 * 1024)
    (total ≤ 131072 → Tbl.get [] s.sw.inWait (i * 8 + c) = [] →
      Runs (.inbufWrite i c v) s fun t => t.rg .SWC_INBUF i c = v ∧ t.sw = s.sw) ∧
    (131072 < total → exec (.inbufWrite i c v) s = .next (s.setFlag .SWC_STAT 1))) ∧
  (∀ k s, k < 13 →
    Runs .prpClearPb s (fun t => t.rg .PRP_CNT 0 k = s.countedNow .PRP_CNT 0 k ∧ t.rg .PRP_CNT 1 k = s.rg .PRP_CNT 1 k) ∧
    Runs .prpClearSt s (fun t => t.rg .PRP_CNT 1 k = s.countedNow .PRP_CNT 1 k ∧ t.rg .PRP_CNT 0 k = s.rg .PRP_CNT 0 k)) ∧
  (∀ q i c s, i < 15 → c < 8 → s.rg .SWC_ICNT i c < 2 ^ 32 → Runs (.swcIcntRead q i c) s fun t =>
    (t.port q).data = BitVec.ofNat 32 (s.rg .SWC_ICNT i c - s.countedNow .SWC_ICNT i c) ∧
    t.rg .SWC_ICNT i c = s.countedNow .SWC_ICNT i c) ∧
  (∀ f th s, f.etherType ≠ 0x88B5 ∨ th = true →
    Runs (.supervisorFrameSend f th) s fun t => f.sa ∈ t.prp.supSas ∧ t.frc = s.frc ∧ t.pts = s.pts) ∧
  (∀ f th s n c, f.etherType ≠ 0x88B5 ∨ th = true → f.pauses = false → n < 8 → (s.prt n).up = true → s.role n ≠ Role.partner → s.twin n = none →
    (s.lookup 13 (s.vidOf 13 f) f.da).ports = [n] → (s.lookup 13 (s.vidOf 13 f) f.da).hosts = [] →
    (s.lookup 13 (s.vidOf 13 f) f.da).sup = false → c = (if th && decide (f.etherType = 0x88F7) && f.ptpEvent then 7 else min 6 (s.priOf 13 f)) →
    s.cellsUsed 13 c + cellsOf f.len ≤ s.fld .SWC_INBUF 17 0 13 c → Tbl.get [] s.sw.inWait (13 * 8 + c) = [] →
    Runs (.supervisorFrameSend f th) s fun t => ∃ g, Tbl.get none t.sw.frames s.sw.nextId = some g ∧ g.frame = f ∧ g.outs = [n] ∧
      g.cls = c ∧ Tbl.get [] t.sw.voq (voqKey 13 n c) = Tbl.get [] s.sw.voq (voqKey 13 n c) ++ [s.sw.nextId])

/-- Port commands change ports, the switch buffer, the MAC, SWC, TMB and EVR blocks of registers, the peer-delay requests, Walnut, Almond and the log of outputs, and nothing else; a received frame may also change credits, the discard tables and the queues of its consumers; a cell time may change the switch with its registers, ports and outputs; a frame of the supervisor also the counters and credits of pairing. None changes a byte of memory, a tenant, or the FRC. -/
def Obligations.PortCommandsFrame : Prop :=
  (let upd (s t : State) : State := { s with
     ports := t.ports, sw := t.sw, rf := t.rf, evr := t.evr, ltl := t.ltl, out := t.out
     tb := { s.tb with pdOut := t.tb.pdOut } }
   ∀ n a b x k l, n < 8 → Leaves (.pause n k) [5] upd ∧ Leaves (.pfc n k l) [5] upd ∧ Leaves (.pauseHoldEnd n) [5] upd ∧
     Leaves (.pauseCapEnd n) [5, 64] upd ∧ Leaves (.pauseIgnoreEnd n) [] upd ∧ Leaves (.filtReqNormal n) [5] upd ∧
     Leaves (.filtReqTest n) [5] upd ∧ Leaves (.filtReqRecovery n) [5] upd ∧ Leaves (.lossOfLock n a x b) [5] upd ∧
     Leaves (.lockRegained ⟨n, x⟩) [3, 5, 6, 64] upd ∧ Leaves (.upHoldExpiry n) [5, 64] upd ∧
     Leaves (.downFiltExpiry n) [3, 5, 6, 64] upd ∧ Leaves (.adminDown n a) [3, 5, 6, 64] upd ∧
     Leaves (.rxIdleTimeout n) [5] upd ∧ Leaves (.macCntclr n k) [5] upd ∧ Leaves (.autonegFail n k) [5] upd ∧
     Leaves (.frameTransmit n k) [3, 5] upd ∧ Leaves (.frameTransmitted n) [5] upd) ∧
  (let upd (s t : State) : State := { s with
     ports := t.ports, sw := t.sw, rf := t.rf, evr := t.evr, crd := t.crd, prp := t.prp
     svx := { s.svx with queue := t.svx.queue }, goose := { s.goose with queue := t.goose.queue }
     par := { s.par with rx := t.par.rx }, tb := { s.tb with ptpRx := t.tb.ptpRx } }
   ∀ n phi f lock fcs a b, n < 8 → Leaves (.frameReceive n phi f lock fcs a b) [5, 6, 7, 30, 64] upd) ∧
  (let upd (s t : State) : State := { s with sw := t.sw, ports := t.ports, out := t.out, rf := t.rf }
   Leaves .cellTime [6] upd) ∧
  (let upd (s t : State) : State := { s with
     sw := t.sw, rf := t.rf, prp := t.prp, crd := t.crd, bus := t.bus
     par := { s.par with txCtr := t.par.txCtr, beaconSeq := t.par.beaconSeq } }
   Leaves .discardTick [] upd ∧ Leaves .fdbRead [6] upd ∧ Leaves .fdbWrite [6] upd ∧ Leaves .prpClearPb [7] upd ∧
   Leaves .prpClearSt [7] upd ∧ (∀ b, Leaves (.stModeWrite b) [7] upd) ∧ (∀ i c v, Leaves (.inbufWrite i c v) [6] upd) ∧
   (∀ q i c, i < 15 → c < 8 → Leaves (.swcIcntRead q i c) [6] upd) ∧
   ∀ f th, Leaves (.supervisorFrameSend f th) [6, 25, 30] upd)

/-- SV_FRAME takes the oldest frame of the queue and returns its boundary-1 credit. A single-ASDU frame of an unauthenticated stream that passes its checks: after the sample before it (d = 0) it writes one record, counts in GOOD if a boundary-4 credit is there, and becomes the previous sample; a repeat of the previous sample writes nothing and counts as a duplicate. A frame that no stream matches counts in UNKNOWN; one that does not parse counts in PARSE. -/
def Obligations.SvFramesWriteSamples : Prop :=
  (∀ s rx rest, s.svx.queue = rx :: rest → rx.port < 8 → Runs .svFrame s fun t => t.svx.queue = rest ∧
    Tbl.get 0 t.crd.used (crdKey 1 rx.port) = Tbl.get 0 s.crd.used (crdKey 1 rx.port) - 1 ∧ t.frc = s.frc) ∧
  (∀ s rx rest p a n c q, s.svx.queue = rx :: rest → rx.port < 8 → rx.frame.payload = .sv p → p.parses = true →
    p.asdus = [a] → 0x4000 ≤ p.appid → p.appid ≤ 0x7FFF → s.svLookup p.appid a.svid = some (n, c) → n < 4096 →
    p.noAsdu = 1 → c.asdus = 1 → c.auth = 0 → (p.simulation = false ∨ c.simAcc = true) → a.svid = c.svid →
    a.smpCnt < c.wrap → a.chans.length = c.nch → a.confRev = c.confRev → (s.stream n).prev = some q → q.smp < c.wrap →
    (a.smpCnt = (q.smp + 1) % c.wrap → Runs .svFrame s fun t =>
      (t.stream n).widx = (s.stream n).widx + 1 ∧ ((t.stream n).prev.map (·.smp)) = some a.smpCnt ∧
      (∃ r, Tbl.get none (t.stream n).ring ((s.stream n).widx % c.ringDepth) = some r ∧ r.smp = a.smpCnt ∧
        r.vals = a.chans.map (·.val)) ∧
      (0 < s.avail 4 n → Tbl.get 0 (t.stream n).cnt 0 = satInc 32 (Tbl.get 0 (s.stream n).cnt 0) ∧
        ∃ d, Tbl.get [] t.svx.descs n = Tbl.get [] s.svx.descs n ++ [d] ∧ d.smp = a.smpCnt)) ∧
    (a.smpCnt = q.smp → c.gapMax < c.wrap - 1 → Runs .svFrame s fun t =>
      (t.stream n).widx = (s.stream n).widx ∧ (t.stream n).prev = some q ∧
      Tbl.get 0 (t.stream n).cnt 1 = satInc 32 (Tbl.get 0 (s.stream n).cnt 1))) ∧
  (∀ s rx rest p, s.svx.queue = rx :: rest → rx.frame.payload = .sv p → p.appid < 0x4000 ∨ 0x7FFF < p.appid →
    Runs .svFrame s fun t => t.rg .SVX_UNKNOWN = satInc 32 (s.rg .SVX_UNKNOWN) ∧ t.flag .SVX_STAT 0 = true ∧
      t.svx.streams = s.svx.streams) ∧
  (∀ s rx rest p, s.svx.queue = rx :: rest → rx.frame.payload = .sv p → 0x4000 ≤ p.appid → p.appid ≤ 0x7FFF →
    p.parses = false → Runs .svFrame s fun t => t.rg .SVX_PARSE = satInc 32 (s.rg .SVX_PARSE) ∧
      t.svx.streams = s.svx.streams)

/-- An expired timer of a VALID stream makes it LOST with its flag and counter, of one in ACQUIRE restarts its good run; the stream has no previous sample then. A timer that has not expired changes nothing. SVX_SCLR leaves in the counters of the selected stream, or of all, what the present FRC count has counted, and changes no state; DISCPOP drops the oldest entry; a read of SVX_UNKNOWN or SVX_PARSE returns to its requester what it held before the present FRC count and clears that. -/
def Obligations.StreamTimeoutsAndClears : Prop :=
  (∀ n s e, n < 4096 → (s.stream n).expiry = some e → e ≤ s.frc → (s.stream n).st = .valid →
    Runs (.streamTimeout n) s fun t => (t.stream n).st = .lost ∧ (t.stream n).prev = none ∧
      (t.stream n).expiry = none ∧ t.flag .SVX_STAT 3 = true ∧
      Tbl.get 0 (t.stream n).cnt 12 = satInc 32 (Tbl.get 0 (s.stream n).cnt 12) ∧ (t.stream n).widx = (s.stream n).widx) ∧
  (∀ n s e, n < 4096 → (s.stream n).expiry = some e → e ≤ s.frc → (s.stream n).st = .acquire →
    Runs (.streamTimeout n) s fun t => (t.stream n).st = .acquire ∧ (t.stream n).goodRun = 0 ∧ (t.stream n).prev = none ∧
      t.rf = s.rf) ∧
  (∀ n s e, (s.stream n).expiry = some e → s.frc < e → exec (.streamTimeout n) s = .next s) ∧
  (∀ s k,
    let n := s.fld .SVX_SSEL 11 0
    Runs .svxClearSel s fun t =>
      Tbl.get 0 (t.stream n).cnt k = Tbl.get 0 (s.stream n).cnt k - Tbl.get 0 (Tbl.get {} s.now.streams n).cnt k ∧
      (t.stream n).st = (s.stream n).st ∧ t.rf = s.rf ∧ ∀ m, m ≠ n → t.stream m = s.stream m) ∧
  (∀ s n k, Runs .svxClearAll s fun t =>
    Tbl.get 0 (t.stream n).cnt k = Tbl.get 0 (s.stream n).cnt k - Tbl.get 0 (Tbl.get {} s.now.streams n).cnt k ∧
    (t.stream n).st = (s.stream n).st ∧ t.rf = s.rf ∧ t.svx.queue = s.svx.queue) ∧
  (∀ s, exec .discoveryPop s = .next { s with svx := { s.svx with disc := s.svx.disc.tail } }) ∧
  (∀ q s, s.rg .SVX_UNKNOWN < 2 ^ 32 → Runs (.svxUnknownRead q) s fun t => t.rg .SVX_UNKNOWN = s.countedNow .SVX_UNKNOWN ∧
    (t.port q).data = BitVec.ofNat 32 (s.rg .SVX_UNKNOWN - s.countedNow .SVX_UNKNOWN) ∧ t.svx = s.svx) ∧
  (∀ q s, s.rg .SVX_PARSE < 2 ^ 32 → Runs (.svxParseRead q) s fun t => t.rg .SVX_PARSE = s.countedNow .SVX_PARSE ∧
    (t.port q).data = BitVec.ofNat 32 (s.rg .SVX_PARSE - s.countedNow .SVX_PARSE) ∧ t.svx = s.svx)

/-- FILTER_STEP of a configured stream with one descriptor that follows the last input takes it: the chain's last smpCnt is the descriptor's, no descriptor is left and its boundary-4 credit is back. With none nothing is taken, but the region of a removed stream whose outputs have all been given back is freed, with its counters kept. DC_FREEZE and DC_RELEASE of the selected stream become its pending command, an AT outside the stream's smpCnt range is ignored, DC_CANCEL removes it. The clears leave in the counters what the present FRC count has counted and change nothing else of the chain. -/
def Obligations.FilterTakesInputsInOrder : Prop :=
  (∀ n s sc tc d l, n < 4096 → s.streamCfg n = some sc → s.topo n = some tc → Tbl.get none s.flt.gone n = none → tc.taps = [] → 0 < sc.asdus → 0 < sc.wrap →
    Tbl.get [] s.svx.descs n = [d] → (s.chain n).last = some l → l < sc.wrap → d.smp = (l + 1) % sc.wrap →
    bit d.flags Sf.resync = false → (Tbl.get none (s.stream n).ring d.pos).isSome = true →
    Runs (.filterStep n) s fun t => (t.chain n).last = some d.smp ∧ Tbl.get [] t.svx.descs n = [] ∧
      (t.chain n).taken = (s.chain n).taken + 1 ∧
      Tbl.get 0 t.crd.used (crdKey 4 n) = Tbl.get 0 s.crd.used (crdKey 4 n) - 1) ∧
  (∀ n s, Tbl.get [] s.svx.descs n = [] → Tbl.get none s.flt.gone n = none → exec (.filterStep n) s = .next s) ∧
  (∀ n s g, s.streamCfg n = none → Tbl.get none s.flt.gone n = some g → Tbl.get [] s.svx.descs n = [] →
    (∀ e ∈ (s.chain n).outs, ∀ x, e.2 = some x → x.credit = false) → Runs (.filterStep n) s fun t =>
    Tbl.get none t.flt.gone n = none ∧ (t.chain n).outs = [] ∧ (t.stream n).st = .disabled ∧ (t.stream n).ring = [] ∧
    (t.chain n).cnt = (s.chain n).cnt ∧ (t.stream n).cnt = (s.stream n).cnt) ∧
  (∀ b a s sc, s.streamCfg (s.fld .FLT_SSEL 11 0) = some sc → (b = true ∨ a < sc.wrap) →
    let pend (r : Bool) (t : State) : Prop := (t.chain (s.fld .FLT_SSEL 11 0)).pend =
      some { release := r, at_ := if b then none else some a } ∧ t.rf = s.rf ∧ t.svx = s.svx
    Runs (.dcFreeze b a) s (pend false) ∧ Runs (.dcRelease b a) s (pend true)) ∧
  (∀ a s sc, s.streamCfg (s.fld .FLT_SSEL 11 0) = some sc → sc.wrap ≤ a →
    exec (.dcFreeze false a) s = .next s ∧ exec (.dcRelease false a) s = .next s) ∧
  (∀ s, Runs .dcCancel s fun t => (t.chain (s.fld .FLT_SSEL 11 0)).pend = none ∧ t.rf = s.rf) ∧
  (∀ s k,
    let n := s.fld .FLT_SSEL 11 0
    Runs .fltClearSel s fun t =>
      Tbl.get 0 (t.chain n).cnt k = Tbl.get 0 (s.chain n).cnt k - Tbl.get 0 (Tbl.get {} s.now.chains n).cnt k ∧
      t.chain n = { s.chain n with cnt := (t.chain n).cnt } ∧ t.rf = s.rf) ∧
  (∀ s n k, Runs .fltClearAll s fun t =>
    Tbl.get 0 (t.chain n).cnt k = Tbl.get 0 (s.chain n).cnt k - Tbl.get 0 (Tbl.get {} s.now.chains n).cnt k ∧
    t.chain n = { s.chain n with cnt := (t.chain n).cnt } ∧ t.rf = s.rf ∧ t.svx = s.svx)

/-- PNT READ copies the point of PNT_HANDLE into PNT_DATA and PNT_TIME, an unused point for a bad handle; PNT WRITE in lifecycle TEST writes the point with writer code 3, unless a write of a later place of its cycle stands, outside TEST does nothing, and counts a bad handle. POINT_WRITE with one write queued at boundary 6 or 9, its tenant with no scheme task that waits: of the current generation and with rights the point is as written, a type 0 as an unused point reads, an event goes to the tasks that watch it where its value or quality changed, and no other point changes, with the credit returned; without rights it counts in PNT_REFUSED, with a bad handle in PNT_BADHANDLE; of an old generation it counts in PNT_STALE and returns no credit. A loop's write needs its owner's generation and no rights. Reads of the counters return what they held before the present FRC count and clear that. -/
def Obligations.PointsAreWrittenUnderRights : Prop :=
  (∀ s, Runs .pntRead s fun t => t.rg .PNT_DATA = (s.point (s.rg .PNT_HANDLE)).word % 2 ^ 64 ∧
    t.rg .PNT_TIME = (s.point (s.rg .PNT_HANDLE)).time % 2 ^ 64 ∧ t.pts = s.pts) ∧
  (∀ s, s.lcTest = true → badHandle (s.rg .PNT_HANDLE) = false → s.pntQ = [] →
    (Tbl.get 0 s.now.pts (s.rg .PNT_HANDLE) ≤ 3 → Runs .pntWrite s fun t =>
      t.point (s.rg .PNT_HANDLE) = (pointOf (s.rg .PNT_DATA) (s.rg .PNT_TIME) 3).kept ∧
      ∀ h, h ≠ s.rg .PNT_HANDLE → t.point h = s.point h) ∧
    (3 < Tbl.get 0 s.now.pts (s.rg .PNT_HANDLE) → exec .pntWrite s = .next s)) ∧
  (∀ s, s.lcTest = true → badHandle (s.rg .PNT_HANDLE) = true → Runs .pntWrite s fun t =>
    t.pts = s.pts ∧ t.rg .PNT_BADHANDLE = satInc 32 (s.rg .PNT_BADHANDLE)) ∧
  (∀ s, s.lcTest = false → exec .pntWrite s = .next s) ∧
  (∀ s r, s.pntQ = [r] → r.bnd = 6 ∨ r.bnd = 9 → (s.schT r.tenant).tasks = [] →
    (r.gen = (s.tenant r.tenant).gen → badHandle r.handle = false → s.canPoint r.tenant r.handle true = true →
      r.at_ ≠ s.frc ∨ Tbl.get 0 s.now.pts r.handle ≤ r.cls → Runs .pointWrite s fun t =>
      t.point r.handle = r.point.kept ∧ t.pntQ = [] ∧ (∀ h, h ≠ r.handle → t.point h = s.point h) ∧
      t.evts = s.evts ++ (if (s.point r.handle).value = r.point.kept.value ∧ (s.point r.handle).quality = r.point.kept.quality
        then [] else (s.pointWatchers r.handle).map fun u => (u, { kind := 0, num := r.handle, stamp := r.point.kept.time * 256 })) ∧
      Tbl.get 0 t.crd.used (crdKey r.bnd r.tenant) = Tbl.get 0 s.crd.used (crdKey r.bnd r.tenant) - 1) ∧
    (r.gen = (s.tenant r.tenant).gen → badHandle r.handle = false → s.canPoint r.tenant r.handle true = false →
      Runs .pointWrite s fun t => t.pts = s.pts ∧ t.pntQ = [] ∧ t.rg .PNT_REFUSED = satInc 32 (s.rg .PNT_REFUSED)) ∧
    (r.gen = (s.tenant r.tenant).gen → badHandle r.handle = true → Runs .pointWrite s fun t =>
      t.pts = s.pts ∧ t.pntQ = [] ∧ t.rg .PNT_BADHANDLE = satInc 32 (s.rg .PNT_BADHANDLE)) ∧
    (r.gen ≠ (s.tenant r.tenant).gen → Runs .pointWrite s fun t =>
      t.pts = s.pts ∧ t.pntQ = [] ∧ t.crd = s.crd ∧ t.rg .PNT_STALE = satInc 32 (s.rg .PNT_STALE))) ∧
  (∀ s r, s.pntQ = [r] → r.bnd = Bnd.loopPort → (s.schT r.tenant).tasks = [] → badHandle r.handle = false → r.at_ ≠ s.frc →
    (r.tenant = noOwner ∨ r.gen = (s.tenant r.tenant).gen → Runs .pointWrite s fun t =>
      t.point r.handle = r.point.kept ∧ t.pntQ = [] ∧ t.crd = s.crd) ∧
    (r.tenant ≠ noOwner → r.gen ≠ (s.tenant r.tenant).gen → Runs .pointWrite s fun t =>
      t.pts = s.pts ∧ t.pntQ = [] ∧ t.rg .PNT_STALE = satInc 32 (s.rg .PNT_STALE))) ∧
  (∀ q s, s.rg .PNT_REFUSED < 2 ^ 32 → Runs (.pntRefusedRead q) s fun t => t.rg .PNT_REFUSED = s.countedNow .PNT_REFUSED ∧
    (t.port q).data = BitVec.ofNat 32 (s.rg .PNT_REFUSED - s.countedNow .PNT_REFUSED) ∧ t.pts = s.pts) ∧
  (∀ q s, s.rg .PNT_BADHANDLE < 2 ^ 32 → Runs (.pntBadhandleRead q) s fun t => t.rg .PNT_BADHANDLE = s.countedNow .PNT_BADHANDLE ∧
    (t.port q).data = BitVec.ofNat 32 (s.rg .PNT_BADHANDLE - s.countedNow .PNT_BADHANDLE) ∧ t.pts = s.pts) ∧
  (∀ q s, s.rg .PNT_STALE < 2 ^ 32 → Runs (.pntStaleRead q) s fun t => t.rg .PNT_STALE = s.countedNow .PNT_STALE ∧
    (t.port q).data = BitVec.ofNat 32 (s.rg .PNT_STALE - s.countedNow .PNT_STALE) ∧ t.pts = s.pts)

/-- The oldest edge of an enabled group is taken. With no start before it, or at least half a period after the start before it and not absorbed by a free-wheel start, it starts a cycle whose count is the armed preset or one more. An edge less than half a period after an ordinary start is counted as early and starts nothing; one within 2 µs of a free-wheel start is absorbed. With no edge for P + 2 µs the group free-wheels: it starts and counts in FREEWHEEL. ARM makes the preset the next count. A read of ELA_GRPEV returns what it held before the present FRC count and clears that. -/
def Obligations.GroupsStartAndCountCycles : Prop :=
  (∀ g s e rest, g < 4 → Tbl.get [] s.edges (5 + g) = e :: rest → s.groupOn g = true →
    (∀ p, (s.group g).start = some p → ((s.group g).free = false ∨ 2 * us < e.frc - p.frc) ∧
      sec ≤ 2 * (e.frc - p.frc) * s.groupHz g) →
    Runs (.groupCycleStart g) s fun t => (t.group g).start = some e ∧ (t.group g).armed = none ∧
      Tbl.get [] t.edges (5 + g) = rest ∧ t.frc = s.frc ∧
      t.rg .ELA_GRPCNT g = (match (s.group g).armed with | some p => p | none => s.rg .ELA_GRPCNT g + 1) % 2 ^ 64) ∧
  (∀ g s e rest p, g < 4 → Tbl.get [] s.edges (5 + g) = e :: rest → s.groupOn g = true → (s.group g).start = some p →
    (s.group g).free = false → 2 * (e.frc - p.frc) * s.groupHz g < sec →
    Runs (.groupCycleStart g) s fun t => t.group g = s.group g ∧ t.rg .ELA_GRPCNT g = s.rg .ELA_GRPCNT g ∧
      t.fld .ELA_GRPEV 15 0 g = satInc 16 (s.fld .ELA_GRPEV 15 0 g) ∧ t.flag .ELA_STAT 5 = true) ∧
  (∀ g s e rest p, g < 4 → Tbl.get [] s.edges (5 + g) = e :: rest → s.groupOn g = true → (s.group g).start = some p →
    (s.group g).free = true → e.frc - p.frc ≤ 2 * us →
    exec (.groupCycleStart g) s = .next { s with edges := Tbl.put [] s.edges (5 + g) rest }) ∧
  (∀ g s p, g < 4 → (s.group g).start = some p → Tbl.get [] s.edges (5 + g) = [] → s.groupOn g = true →
    sec ≤ (s.frc - p.frc - 2 * us) * s.groupHz g → (s.group g).armed = none →
    Runs (.freewheelStart g) s fun t => t.rg .ELA_GRPCNT g = (s.rg .ELA_GRPCNT g + 1) % 2 ^ 64 ∧ (t.group g).free = true ∧
      ((t.group g).start.map (·.frc)) = some s.frc ∧ t.fld .ELA_GRPEV 31 16 g = satInc 16 (s.fld .ELA_GRPEV 31 16 g) ∧ t.flag .ELA_STAT 4 = true) ∧
  (∀ g s, g < 4 → Runs (.armPreset g) s fun t => (t.group g).armed = some (s.rg .ELA_GRPPRE g) ∧
    (t.group g).start = (s.group g).start ∧ t.rf = s.rf) ∧
  (∀ q g s, g < 4 → s.rg .ELA_GRPEV g < 2 ^ 32 → Runs (.elaGrpevRead q g) s fun t => t.rg .ELA_GRPEV g = s.countedNow .ELA_GRPEV g ∧
    (t.port q).data = BitVec.ofNat 32 (s.rg .ELA_GRPEV g - s.countedNow .ELA_GRPEV g) ∧ t.groups = s.groups)

/-- FETCH from 1,000 ns to 200 ns before the opening of a slot in use snapshots the program's points; CORE_WAKE from WAKE before the opening up to it ungates the core. A due WINDOW_OPEN of a tenant in SEAT or RUN whose program has a binding opens its window at the present FRC in the present cycle, once per cycle. PROGRAM_COMMIT of a program that fits BUDGET, once its time has passed, ends its run and counts an execution; BUDGET_STOP of one that does not fit counts an overrun, raises the flag, and the third in a row asks for a block. WINDOW_CLOSE after the window's time applies a pending block, else a pending freeze, and ends the window. An uncorrectable error in slot memory of a tenant in SEAT or RUN blocks it, at the close of its window if one is open. -/
def Obligations.SlotsRunTheirPrograms : Prop :=
  (∀ tile slot s t o c p, tile < 128 → slot < 32 → s.slotInUse tile slot = some t →
    s.openAt (s.fld .ELA_TILECFG 17 16 tile) slot = some o → s.tileOn tile = true →
    (o ≤ s.frc + 1000 → s.frc + 200 ≤ o → s.tenCfg t = some c → c.elem = some p →
      Runs (.fetch tile slot) s fun u => (u.elaT t).fetched = p.ptins.map (fun h => (h, s.point h)) ∧
        (u.elaT t).st = (s.elaT t).st ∧ u.rf = s.rf) ∧
    (o ≤ s.frc + s.wake tile * 10 → s.frc ≤ o → Runs (.coreWake tile slot) s fun u => Tbl.get false u.awake tile = true ∧ u.rf = s.rf ∧
      u.ela = s.ela)) ∧
  (∀ tile slot s t bud p c pr, tile < 128 → slot < 32 → s.slotOf tile slot = some (t, bud) →
    (s.group (s.fld .ELA_TILECFG 17 16 tile)).start = some p → s.tileOn tile = true →
    p.frc + slot * s.groupWin (s.fld .ELA_TILECFG 17 16 tile) ≤ s.frc →
    s.frc < p.frc + (slot + 1) * s.groupWin (s.fld .ELA_TILECFG 17 16 tile) → (s.elaT t).openedAt ≠ some p.frc →
    (s.elaT t).window = none → (s.elaT t).st = .seat ∨ (s.elaT t).st = .run → s.tenCfg t = some c → c.elem = some pr →
    pr.bindings ≠ [] →
    Runs (.windowOpen tile slot) s fun u => (u.elaT t).openedAt = some p.frc ∧ Tbl.get false u.awake tile = true ∧
      ∃ w, (u.elaT t).window = some w ∧ w.openFrc = s.frc ∧ w.ended = !w.runs ∧
        w.cycle = s.rg .ELA_GRPCNT (s.fld .ELA_TILECFG 17 16 tile)) ∧
  (∀ tile slot st s t bud p w, tile < 128 → slot < 32 → s.running tile slot = some (t, bud, p, w) →
    let run := runNodes (s.envOf t p w) none p.nodes 0 { cycles := (s.elaT t).head st, nodes := (s.elaT t).nodes }
    let total := run.cycles + 16 + 2 * run.reqs.length
    (total ≤ bud → w.openFrc + tileNs total ≤ s.frc → Runs (.programCommit tile slot st) s fun u =>
      (u.elaT t).window = some { w with ended := true } ∧ (u.elaT t).consec = 0 ∧
      Tbl.get 0 (u.elaT t).cnt 0 = satAdd 32 (Tbl.get 0 (s.elaT t).cnt 0) 1) ∧
    (bud < total → w.openFrc + tileNs bud ≤ s.frc → Runs (.budgetStop tile slot st) s fun u =>
      (u.elaT t).window = some { w with ended := true } ∧ (u.elaT t).consec = min 2 ((s.elaT t).consec + 1) ∧
      (2 ≤ (s.elaT t).consec → (u.elaT t).pendBlock = true) ∧
      Tbl.get 0 (u.elaT t).cnt 1 = satAdd 32 (Tbl.get 0 (s.elaT t).cnt 1) 1)) ∧
  (∀ tile slot s t bud w, tile < 128 → slot < 32 → s.slotOf tile slot = some (t, bud) → (s.elaT t).window = some w →
    w.openFrc + s.groupWin (s.fld .ELA_TILECFG 17 16 tile) ≤ s.frc →
    ((s.elaT t).pendBlock = true → Runs (.windowClose tile slot) s fun u => (u.elaT t).st = .blocked ∧
      (u.elaT t).window = none) ∧
    ((s.elaT t).pendBlock = false → (s.elaT t).pendFreeze = true → Runs (.windowClose tile slot) s fun u =>
      (u.elaT t).st = .frozen ∧ (u.elaT t).window = none ∧ (u.elaT t).nodes = (s.elaT t).nodes) ∧
    ((s.elaT t).pendBlock = false → (s.elaT t).pendFreeze = false → Runs (.windowClose tile slot) s fun u =>
      (u.elaT t).window = none ∧ (u.elaT t).st = (s.elaT t).st ∧ (u.elaT t).nodes = (s.elaT t).nodes)) ∧
  (∀ t s, t < 4096 → (s.elaT t).st = .seat ∨ (s.elaT t).st = .run →
    (∀ w, (s.elaT t).window = some w → Runs (.slotEccError t) s fun u => (u.elaT t).pendBlock = true ∧
      (u.elaT t).window = some { w with ended := true }) ∧
    ((s.elaT t).window = none → Runs (.slotEccError t) s fun u => (u.elaT t).st = .blocked)) ∧
  (∀ t s, (s.elaT t).st = .out ∨ (s.elaT t).st = .blocked ∨ (s.elaT t).st = .frozen →
    exec (.slotEccError t) s = .next s)

/-- CLR_SEL leaves in the counters of the selected tenant what the present FRC count has counted and clears its peak, CLR_ALL does so for every tenant, and neither touches a program's state. ELA_TINJ sets the selected tenant's injection in lifecycle TEST; outside it only sets its flag. -/
def Obligations.ArrayClearsAndInjection : Prop :=
  (let cleared (s u : State) (t k : Nat) : Prop :=
      Tbl.get 0 (u.elaT t).cnt k = Tbl.get 0 (s.elaT t).cnt k - Tbl.get 0 (Tbl.get {} s.now.ela t).cnt k ∧
      u.elaT t = { s.elaT t with cnt := (u.elaT t).cnt, peak := 0 } ∧ u.rf = s.rf ∧ u.ten = s.ten
   (∀ s k, Runs .elaClearSel s fun u => cleared s u (s.fld .ELA_TSEL 11 0) k ∧
      ∀ t, t ≠ s.fld .ELA_TSEL 11 0 → u.elaT t = s.elaT t) ∧
   ∀ s t k, Runs .elaClearAll s fun u => cleared s u t k) ∧
  (∀ x c s, x < 65536 → c < 256 → s.lcTest = true → Runs (.tinjWrite x c) s fun u =>
    (u.elaT (s.fld .ELA_TSEL 11 0)).injExtra = x ∧ (u.elaT (s.fld .ELA_TSEL 11 0)).injCount = c ∧ u.rf = s.rf) ∧
  (∀ x c s, s.lcTest = false → exec (.tinjWrite x c) s = .next (s.setFlag .ELA_STAT 7))

/-- PUBLICATION_REQUEST takes the oldest request of boundary 7 or 10 and returns its credit; with its values different from the publication's newest state, the state number goes to the next one (after 2^32 - 1 comes 1) and the request is the current or pending state; with the same values it only counts as SAME; of an old generation it is discarded. PENDING_RELEASE of a pending state that its spacing allows and that stands first at the builder makes it the current one, as the frame of the present cycle with sqNum 0; one that does not stand first stays. A due RETRANSMISSION that stands first, with no state to be released before it, takes the next sqNum and doubles the interval up to its maximum; before its turn it stays due. The clears leave in the counters what the present FRC count has counted and change nothing else. The tenant has no scheme task that waits. -/
def Obligations.PublicationsFollowTheirStates : Prop :=
  (∀ s r i c b, s.goose.reqs = [r] → r.gen = (s.tenant r.tenant).gen → r.bnd = some b → b = 7 ∨ b = 10 →
    (s.schT r.tenant).tasks = [] → s.pubOf r.tenant r.pubno = some i → (s.pub i).cfg = some c → c.tenant = r.tenant →
    ((∀ x, (match (s.pub i).pending with | some x => some x | none => (s.pub i).cur) = some x →
        x.vals ≠ r.vals ∨ x.quals ≠ r.quals) →
      Runs .publicationRequest s fun t => t.goose.reqs = [] ∧ (t.pub i).stNum = nextNum (s.pub i).stNum ∧
        ∃ x, ((t.pub i).pending = some x ∨ (t.pub i).cur = some x) ∧ x.vals = r.vals ∧ x.quals = r.quals ∧
          x.stNum = nextNum (s.pub i).stNum) ∧
    (∀ x, (match (s.pub i).pending with | some x => some x | none => (s.pub i).cur) = some x → x.vals = r.vals →
        x.quals = r.quals →
      Runs .publicationRequest s fun t => t.goose.reqs = [] ∧
        t.pub i = { s.pub i with cnt := (t.pub i).cnt } ∧
        Tbl.get 0 (t.pub i).cnt 3 = satInc 32 (Tbl.get 0 (s.pub i).cnt 3) ∧
        Tbl.get 0 t.crd.used (crdKey b r.tenant) = Tbl.get 0 s.crd.used (crdKey b r.tenant) - 1)) ∧
  (∀ s r, s.goose.reqs = [r] → r.gen ≠ (s.tenant r.tenant).gen → (s.schT r.tenant).tasks = [] →
    exec .publicationRequest s = .next { s with goose := { s.goose with reqs := [] } }) ∧
  (∀ s i c st, (s.pub i).cfg = some c → (s.pub i).pending = some st →
    (s.pub i).mayState (s.fgOf c.tenant) (s.cycleOf c.tenant) = true →
    (s.pubFirst s.pubReady i = true → s.inForce c.tenant = false → Runs (.pendingRelease i) s fun t =>
      (t.pub i).pending = none ∧ (t.pub i).cur = some st ∧ (t.pub i).sq = 0 ∧
      (t.pub i).frameCycle = some (s.cycleOf c.tenant) ∧ (t.pub i).interval = c.mint) ∧
    (s.pubFirst s.pubReady i = false → exec (.pendingRelease i) s = .next s)) ∧
  (∀ s i c st d, (s.pub i).cfg = some c → (s.pub i).cur = some st → (s.pub i).due = some d → (s.pub i).silent = false →
    s.pubReady i = false → (s.pub i).frameCycle ≠ some (s.cycleOf c.tenant) → cyclesSince d (s.cycleOf c.tenant) < 2 ^ 63 →
    ((∀ e ∈ s.goose.pubs, s.pubReady e.1 = false) → s.pubFirst s.pubDue i = true → Runs (.retransmission i) s fun t =>
      (t.pub i).sq = nextNum (s.pub i).sq ∧ (t.pub i).interval = min (2 * (s.pub i).interval) c.maxt ∧
      (t.pub i).due = some ((s.cycleOf c.tenant + min (2 * (s.pub i).interval) c.maxt) % 2 ^ 64) ∧
      (t.pub i).stNum = (s.pub i).stNum ∧ (t.pub i).cur = some st) ∧
    ((∃ e ∈ s.goose.pubs, s.pubReady e.1 = true) ∨ s.pubFirst s.pubDue i = false →
      exec (.retransmission i) s = .next s)) ∧
  (let cleared (s t : State) (i k : Nat) : Prop :=
      Tbl.get 0 (t.pub i).cnt k = Tbl.get 0 (s.pub i).cnt k - Tbl.get 0 (Tbl.get {} s.now.pubs i).cnt k ∧
      t.pub i = { s.pub i with cnt := (t.pub i).cnt } ∧ t.rf = s.rf
   (∀ s k, Runs .gpbClearSel s fun t => cleared s t (s.fld .GPB_PSEL 12 0) k ∧
      ∀ i, i ≠ s.fld .GPB_PSEL 12 0 → t.pub i = s.pub i) ∧
   ∀ s i k, Runs .gpbClearAll s fun t => cleared s t i k)

/-- GOOSE_FRAME takes the oldest frame and returns its boundary-2 credit. A frame that no entry matches counts in UNKNOWN. For one matching entry without authentication: a frame of another confRev counts in CONFREV and leaves its state; the first good frame makes the entry VALID with the frame's stNum and data, and arms its timeout; where the delivery is not held for the partner, the mapped point has the frame's value. A retransmission of the current state keeps the data and arms the timeout again. SUBSCRIPTION_TIMEOUT of an expired VALID entry makes it STALE with its flag and counter. The clears leave in the counters what the present FRC count has counted and change nothing else; a read of GSB_UNKNOWN returns what it held before that and clears it. -/
def Obligations.SubscriptionsFollowFrames : Prop :=
  (∀ s rx rest g, s.goose.queue = rx :: rest → rx.port < 8 → rx.frame.payload = .goose g → s.subsFor g rx.frame.sa = [] →
    Runs .gooseFrame s fun t => t.goose.queue = rest ∧ t.rg .GSB_UNKNOWN = satInc 32 (s.rg .GSB_UNKNOWN) ∧
      t.goose.subs = s.goose.subs ∧ t.pts = s.pts ∧
      Tbl.get 0 t.crd.used (crdKey 2 rx.port) = Tbl.get 0 s.crd.used (crdKey 2 rx.port) - 1) ∧
  (∀ s rx rest g i c, s.goose.queue = rx :: rest → rx.port < 8 → rx.frame.payload = .goose g →
    s.subsFor g rx.frame.sa = [i] → (s.sub i).cfg = some c → c.auth = 0 → g.simulation = false →
    (g.confRev ≠ c.confRev → Runs .gooseFrame s fun t => t.goose.queue = rest ∧ (t.sub i).st = (s.sub i).st ∧
      (t.sub i).data = (s.sub i).data ∧ t.pts = s.pts ∧
      Tbl.get 0 (t.sub i).cnt 9 = satAdd 32 (Tbl.get 0 (s.sub i).cnt 9) 1) ∧
    (g.confRev = c.confRev → g.ndsCom = false → g.entries = c.nds → mapsOk c g.allData = true → (s.sub i).st = .none →
      0 < s.avail 11 c.tenant → Runs .gooseFrame s fun t => t.goose.queue = rest ∧ (t.sub i).st = .valid ∧
      (t.sub i).stNum = g.stNum ∧ (t.sub i).data = g.allData ∧ (t.sub i).redeliver = false ∧
      (t.sub i).expiry = some (rx.frc + c.timeout g.tal) ∧
      (s.classH c.tenant = false ∨ s.paired = false → ∀ h p, subPoints c g.allData rx.stamp = [(h, p)] →
        badHandle h = false → t.point h = p.kept)) ∧
    (g.confRev = c.confRev → g.ndsCom = false → g.entries = c.nds → mapsOk c g.allData = true → (s.sub i).st = .valid →
      (s.sub i).stNum = g.stNum → g.stNum < 2 ^ 32 - 1 → g.allData = (s.sub i).data → (s.sub i).redeliver = false →
      Runs .gooseFrame s fun t => (t.sub i).st = .valid ∧ (t.sub i).data = (s.sub i).data ∧
      (t.sub i).expiry = some (rx.frc + c.timeout g.tal) ∧ t.pts = s.pts ∧
      Tbl.get 0 (t.sub i).cnt 2 = satAdd 32 (Tbl.get 0 (s.sub i).cnt 2) 1)) ∧
  (∀ i s c e, (s.sub i).cfg = some c → (s.sub i).expiry = some e → e ≤ s.frc → (s.sub i).st = .valid →
    Runs (.subscriptionTimeout i) s fun t => (t.sub i).st = .stale ∧ (t.sub i).expiry = none ∧
      t.flag .GSB_STAT 5 = true ∧ (t.sub i).stNum = (s.sub i).stNum) ∧
  (let cleared (s t : State) (i k : Nat) : Prop :=
      Tbl.get 0 (t.sub i).cnt k = Tbl.get 0 (s.sub i).cnt k - Tbl.get 0 (Tbl.get {} s.now.subs i).cnt k ∧
      t.sub i = { s.sub i with cnt := (t.sub i).cnt } ∧ t.rf = s.rf
   (∀ s k, Runs .gsbClearSel s fun t => cleared s t (s.fld .GSB_SSEL 13 0) k ∧
      ∀ i, i ≠ s.fld .GSB_SSEL 13 0 → t.sub i = s.sub i) ∧
   ∀ s i k, Runs .gsbClearAll s fun t => cleared s t i k) ∧
  (∀ q s, s.rg .GSB_UNKNOWN < 2 ^ 32 → Runs (.gsbUnknownRead q) s fun t => t.rg .GSB_UNKNOWN = s.countedNow .GSB_UNKNOWN ∧
    (t.port q).data = BitVec.ofNat 32 (s.rg .GSB_UNKNOWN - s.countedNow .GSB_UNKNOWN) ∧ t.goose = s.goose)

/-- Sesame's and the filter chain's commands leave tenants, points, ports and time as they are; the array's commands leave streams, the filter chain and ports as they are, and a window's end also reaches what the end of a tenant's program reaches; the point commands change points, their queue, counters and events, and a write also what a scheme program waiting for the queue then issues; GOOSE commands change entries, points, credits, pairing and the switch buffer that the frames go through; the clears change their own block alone. Each completes in every state. No command of these blocks changes the FRC, the ports' link state, the boot state or a byte of memory. -/
def Obligations.DataPathCommandsFrame : Prop :=
  (let upd (s t : State) : State := { s with
     svx := t.svx, rf := t.rf, evr := t.evr, ltl := t.ltl, crd := t.crd, dcr := t.dcr, bus := t.bus }
   Leaves .svFrame [8, 30, 64] upd ∧ (∀ n, Leaves (.streamTimeout n) [8, 64] upd) ∧ Leaves .svxClearSel [] upd ∧
   Leaves .svxClearAll [] upd ∧ Leaves .discoveryPop [] upd ∧ (∀ q, Leaves (.svxUnknownRead q) [8] upd) ∧
   ∀ q, Leaves (.svxParseRead q) [8] upd) ∧
  (let upd (s t : State) : State := { s with
     flt := t.flt, svx := { s.svx with descs := t.svx.descs, streams := t.svx.streams }, rf := t.rf, evr := t.evr, crd := t.crd }
   (∀ n, Leaves (.filterStep n) [9, 64] upd) ∧ (∀ b a, Leaves (.dcFreeze b a) [] upd ∧ Leaves (.dcRelease b a) [] upd) ∧
   Leaves .dcCancel [] upd ∧ Leaves .fltClearSel [] upd ∧ Leaves .fltClearAll [] upd ∧
   ∀ n k, Leaves (.outputCreditExpiry n k) [] upd) ∧
  (let upd (s t : State) : State := { s with
     pts := t.pts, pntQ := t.pntQ, rf := t.rf, crd := t.crd, evr := t.evr, evts := t.evts, goose := t.goose, sch := t.sch
     bus := t.bus }
   Leaves .pntRead [11] upd ∧ Leaves .pntWrite [11, 20, 21, 22, 23, 64] upd ∧ (∀ q, Leaves (.pntRefusedRead q) [11] upd) ∧
   (∀ q, Leaves (.pntBadhandleRead q) [11] upd) ∧ ∀ q, Leaves (.pntStaleRead q) [11] upd) ∧
  (let upd (s t : State) : State := { s with ela := t.ela, awake := t.awake, groups := t.groups, rf := t.rf, bus := t.bus }
   (∀ x y, Leaves (.fetch x y) [] upd ∧ Leaves (.coreWake x y) [] upd) ∧ Leaves .elaClearSel [] upd ∧
   Leaves .elaClearAll [] upd ∧ (∀ x c, Leaves (.tinjWrite x c) [10] upd) ∧ (∀ g, Leaves (.armPreset g) [] upd) ∧
   ∀ q g, g < 4 → Leaves (.elaGrpevRead q g) [10] upd) ∧
  (let upd (s t : State) : State := { s with
     ela := t.ela, awake := t.awake, rf := t.rf, crd := t.crd, dcr := t.dcr, evr := t.evr, goose := t.goose, ltl := t.ltl
     par := t.par, pntQ := t.pntQ, sw := t.sw, ttuReqs := t.ttuReqs }
   ∀ x y st, Leaves (.windowOpen x y) [6, 10, 30, 64] upd ∧
     ∀ s, Runs (.programCommit x y st) s fun t => t = { upd s t with now := t.now }) ∧
  (let upd (s t : State) : State := { s with
     ela := t.ela, awake := t.awake, rf := t.rf, evr := t.evr, evts := t.evts, goose := t.goose, lop := t.lop, ltl := t.ltl
     mbx := t.mbx, out := t.out, pts := t.pts, sch := t.sch, ten := t.ten, ttu := t.ttu }
   ∀ x y st s, (Runs (.budgetStop x y st) s fun t => t = { upd s t with now := t.now }) ∧
     Runs (.windowClose x y) s fun t => t = { upd s t with now := t.now }) ∧
  (let upd (s t : State) : State := { s with goose := t.goose, rf := t.rf, bus := t.bus }
   Leaves .gpbClearSel [] upd ∧ Leaves .gpbClearAll [] upd ∧ Leaves .gsbClearSel [] upd ∧ Leaves .gsbClearAll [] upd ∧
   ∀ q, Leaves (.gsbUnknownRead q) [13] upd) ∧
  let upd (s t : State) : State := { s with
     crd := t.crd, rf := t.rf, evr := t.evr, evts := t.evts, goose := t.goose, ltl := t.ltl, par := t.par, pts := t.pts
     sge := t.sge, sw := t.sw }
  Leaves .gooseFrame [6, 13, 30, 64] upd ∧ ∀ i, Leaves (.subscriptionTimeout i) [6, 13, 30, 64] upd ∧
    Leaves (.pendingRelease i) [6, 12, 25, 30, 64] upd ∧ Leaves (.retransmission i) [6, 12, 30, 64] upd

/-- A partner frame whose tag fails, or, HELLO apart, whose counter is not above the last accepted one, is discarded: it counts in AUTH_FAIL or REPLAY and moves no timer. An accepted frame leaves the queue and restarts the silence timer; then HELLO in SEEK, ISOLATED or LOST leads to PAIRED, HANDSHAKE or MISMATCH by the checks and the alignment; HEARTBEAT gives PAR_POFS, PAR_PDLY and the tenants the partner runs; a beacon brings LOST to ISOLATED; a DIGEST within WINDOW of the own state counts AGREED, or DIVERGED and opens a disagreement, and one without own state is held; a SUMMARY equal to the own one closes a disagreement; a NOTICE fixes the delivery cycle, is kept, or comes too late and changes nothing; SEAT is kept as a proposal, or with another TEN_SEQ keeps the tenant out of agreement; a JOIN request fixes the join cycle two ahead, the pieces of a JOIN record are gathered in order and the last one gives the record; the last block of a snapshot replaces the kept one when it verifies, else sets SNAP_FAIL; HEALTH fills SGE_PREP; CAPFIRE fires an armed group at the converted stamp; the pieces of a SUPMSG reach the supervisor as one message. -/
def Obligations.PartnerMessagesTakeEffect : Prop :=
  let front (c : PairCfg) (rx : RxFrame) (f : PartnerFrame) (m : PartnerMsg) (rest : List RxFrame) (s : State) : Prop :=
    s.par.cfg = some c ∧ s.par.accepted = false ∧ s.par.rx = rx :: rest ∧ rx.frame.payload = .partner f ∧ f.msgs = [m]
  let good (c : PairCfg) (rx : RxFrame) (f : PartnerFrame) (m : PartnerMsg) (rest : List RxFrame) (s : State) : Prop :=
    front c rx f m rest s ∧ s.onPartner rx = true ∧ s.checkTag f.tag c.pairKey Use.pair none = some true ∧
    ∀ x, s.par.floor = some x → x < f.ctr
  let got (s : State) (rest : List RxFrame) (t : State) : Prop := t.par.rx = rest ∧ t.par.heard = some s.frc
  (∀ c rx f rest s a1 a2 a3 a4 a5 a6 hx hs hl hr dg sn sc sd sp na nb nc nd se sh sk st ji jn jr si sj sl hw cu ct su sv sw,
    ∀ i ∈ [(Instr.hello, PartnerMsg.hello a1 a2 a3 a4 a5 a6), (.heartbeat, .heartbeat hx hs hl hr), (.digest, .digest dg),
      (.summary, .summary sn sc sd sp hs), (.notice, .notice na nb nc nd), (.seat, .seat se sh sk st),
      (.joinMessage, .joinRec ji jn jr), (.snapshot, .snapshot si sj sl), (.health, .health hw), (.capfire, .capfire cu ct),
      (.supmsg, .supmsg su sv sw)],
    front c rx f i.2 rest s → s.onPartner rx = true →
    (s.checkTag f.tag c.pairKey Use.pair none ≠ some true → Runs i.1 s fun t => t.par.rx = rest ∧ t.par.st = s.par.st ∧
      t.par.heard = s.par.heard ∧ t.par.floor = s.par.floor ∧ t.rg .PAR_LCNT 2 = satAdd 64 (s.rg .PAR_LCNT 2) 1 ∧
      t.flag .PAR_STAT 7 = true ∧ t.par.ten = s.par.ten) ∧
    (∀ x, i.1 ≠ .hello → s.checkTag f.tag c.pairKey Use.pair none = some true → s.par.floor = some x → f.ctr ≤ x →
      Runs i.1 s fun t => t.par.rx = rest ∧ t.par.st = s.par.st ∧ t.par.heard = s.par.heard ∧
      t.rg .PAR_LCNT 3 = satAdd 64 (s.rg .PAR_LCNT 3) 1 ∧ t.flag .PAR_STAT 7 = true ∧ t.par.ten = s.par.ten)) ∧
  (∀ c rx f rest s side role lc im run addr, front c rx f (.hello side role lc im run addr) rest s → s.onPartner rx = true →
    s.checkTag f.tag c.pairKey Use.pair none = some true →
    (s.par.st = .seek ∨ s.par.st = .isolated ∨ s.par.st = .lost → Runs .hello s fun t => got s rest t ∧
      t.flag .PAR_STAT 0 = true ∧ t.par.partner = some (HelloInfo.mk side role lc im run addr) ∧
      t.par.st = (if s.helloOk (HelloInfo.mk side role lc im run addr) = false then .mismatch
        else if s.allAligned then .paired else .handshake)) ∧
    (s.par.st = .paired → Runs .hello s fun t => got s rest t ∧ t.par.st = .paired ∧ t.par.floor = some f.ctr)) ∧
  (∀ c rx f rest s t1 t2 t3 st starts run, good c rx f (.heartbeat (some (HbStamps.mk (some (t1, t2)) t3)) st starts run) rest s →
    Runs .heartbeat s fun t => got s rest t ∧ t.par.peerRun = run ∧ t.par.peerSt = st ∧ t.par.hbIn = some (t3, rx.stamp) ∧
      t.rg .PAR_POFS = unsigned 64 ((stampDiff t2 t1 - stampDiff rx.stamp t3) / 2) ∧
      t.rg .PAR_PDLY = unsigned 32 ((stampDiff rx.stamp t1 - stampDiff t3 t2) / 2)) ∧
  (∀ c rx f rest s st starts run, front c rx f (.heartbeat none st starts run) rest s → s.onPartner rx = false →
    s.checkTag f.tag c.pairKey Use.pair none = some true → (∀ x, s.par.floor = some x → x < f.ctr) → Runs .beacon s fun t =>
      t.par.rx = rest ∧ t.par.beacon = some s.frc ∧ t.par.heard = s.par.heard ∧
      t.par.st = if s.par.st = .lost then .isolated else s.par.st) ∧
  (∀ c rx f rest s d a, good c rx f (.digest d) rest s →
    (s.par.agree = [a] → a.tenant = d.tenant → a.pubno = d.pubno → a.cycle = d.cycle → s.frc ≤ a.tr + c.window * 1000 →
      (a.cdig = d.cdig → Runs .digest s fun t => got s rest t ∧ t.par.agree = [] ∧
        Tbl.get 0 (t.parTen a.tenant).cnt 0 = satInc 32 (Tbl.get 0 (s.parTen a.tenant).cnt 0)) ∧
      (a.cdig ≠ d.cdig → Runs .digest s fun t => got s rest t ∧ t.par.agree = [] ∧ (t.parTen a.tenant).open_ = true ∧
        t.flag .PAR_STAT 1 = true ∧
        Tbl.get 0 (t.parTen a.tenant).cnt 1 = satInc 32 (Tbl.get 0 (s.parTen a.tenant).cnt 1) ∧
        Tbl.get 0 t.ltl.cur (almondCounter 9) = satAdd 64 (Tbl.get 0 s.ltl.cur (almondCounter 9)) 1)) ∧
    (s.par.agree = [] → s.digestDone d = false → Runs .digest s fun t => got s rest t ∧
      (t.par.digs.map (·.rec_)) = s.par.digs.map (·.rec_) ++ [d])) ∧
  (∀ c rx f rest s n sil cy digs k own, good c rx f (.summary n sil cy digs k) rest s → (s.parTen n).open_ = true →
    (s.parTen n).own = some own →
    (own = (cy, digs) → Runs .summary s fun t => got s rest t ∧ (t.parTen n).open_ = false ∧ t.flag .PAR_STAT 3 = true ∧
      Tbl.get 0 (t.parTen n).cnt 5 = satInc 32 (Tbl.get 0 (s.parTen n).cnt 5)) ∧
    (own ≠ (cy, digs) → Runs .summary s fun t => got s rest t ∧ (t.parTen n).open_ = true ∧
      (t.parTen n).peer = some (cy, digs))) ∧
  (∀ c rx f rest s n no dd ar h, good c rx f (.notice n no dd ar) rest s →
    (s.par.notices = [h] → h.sub = n → h.stNum = no → h.ddig = dd → h.matched = false → Runs .notice s fun t => got s rest t ∧
      ∃ u, t.par.notices = [u] ∧ u.matched = true ∧ u.cycle = max h.arrival ar + c.dlag ∧ u.points = h.points) ∧
    (s.par.notices = [] → (∀ x ∈ s.par.lateNotes, noteKey x = (n, no, dd) → x.2.2.2 < ar) → Runs .notice s fun t =>
      got s rest t ∧ (n, no, dd, ar) ∈ t.par.peerNotes ∧ t.par.notices = []) ∧
    (s.par.notices = [] → (∃ x ∈ s.par.lateNotes, noteKey x = (n, no, dd) ∧ ar ≤ x.2.2.2) → Runs .notice s fun t =>
      got s rest t ∧ t.par.peerNotes = s.par.peerNotes ∧ t.par.notices = [])) ∧
  (∀ c rx f rest s n ph ac q, good c rx f (.seat n ph ac q) rest s → (s.parTen n).join = .none →
    (q = (s.tenant n).seq → Runs .seat s fun t => got s rest t ∧ (t.parTen n).seatPeer = some (ph, ac) ∧
      (t.parTen n).seqDiff = false) ∧
    (q ≠ (s.tenant n).seq → Runs .seat s fun t => got s rest t ∧ (t.parTen n).seqDiff = true ∧ t.inForce n = false ∧
      (t.parTen n).seatOwn = none ∧ (t.parTen n).seatPeer = none)) ∧
  (∀ c rx f rest s n, good c rx f (.joinAsk n) rest s → s.classH n = true → (s.elaT n).st = .run → Runs .joinMessage s fun t =>
    got s rest t ∧ (t.parTen n).donor = some (s.cycleOf n + 2)) ∧
  (∀ c rx f rest s i n r, good c rx f (.joinRec i n r) rest s →
    (s.parTen r.tenant).join = .requested ∨ (s.parTen r.tenant).join = .running →
    i = 0 ∨ i = (s.parTen r.tenant).joinRecv → Runs .joinMessage s fun t =>
    got s rest t ∧ (t.parTen r.tenant).join = .running ∧
    (i + 1 < n → (t.parTen r.tenant).joinRecv = i + 1 ∧ (t.parTen r.tenant).joinRec = (s.parTen r.tenant).joinRec) ∧
    (n ≤ i + 1 → (t.parTen r.tenant).joinRec = some r)) ∧
  (∀ c rx f rest s k n x, good c rx f (.snapshot k n x) rest s → k = 0 ∨ k = (s.parTen x.tenant).recv →
    (k + 1 < n → Runs .snapshot s fun t => got s rest t ∧ (t.parTen x.tenant).recv = k + 1 ∧
      (t.parTen x.tenant).kept = (s.parTen x.tenant).kept) ∧
    (n ≤ k + 1 → x.formatOk = true → x.intact = true → s.usableKey c.snapKey Use.snapshot none = some x.key →
      Runs .snapshot s fun t => got s rest t ∧ (t.parTen x.tenant).kept = some (x, s.frc)) ∧
    (n ≤ k + 1 → x.formatOk = false ∨ x.intact = false ∨ s.usableKey c.snapKey Use.snapshot none ≠ some x.key →
      Runs .snapshot s fun t => got s rest t ∧ (t.parTen x.tenant).kept = (s.parTen x.tenant).kept ∧ t.flag .PAR_STAT 6 = true)) ∧
  (∀ c rx f rest s w, good c rx f (.health w) rest s → Runs .health s fun t => got s rest t ∧ t.sge.prep = w ∧
    t.sge.peerAt = some s.frc ∧ t.flag .SGE_STAT 7 = true) ∧
  (∀ c rx f rest s u g x at_, good c rx f (.capfire u x) rest s → u < 16 → (s.cap u).cfg = some g → g.group = u → g.peer = true →
    s.par.st = .paired → Tbl.get none s.now.capFires u = none → (s.cap u).st = .armed → at_ = stampAdd x (-(signed 64 (s.rg .PAR_POFS))) →
    ((s.cap u).fireAt g at_ u true).remaining ≠ 0 → Runs .capfire s fun t => got s rest t ∧ (t.cap u).st = .recording ∧
      (t.cap u).cur.fireStamp = at_ ∧ (t.cap u).cur.partner = true) ∧
  (∀ c rx f rest s i n d l, good c rx f (.supmsg i n d) rest s →
    (i = 0 ∧ l = []) ∨ (0 < i ∧ s.par.supPart = some (i, l)) → Runs .supmsg s fun t => got s rest t ∧
    (i + 1 < n → t.par.sup = s.par.sup ∧ t.par.supPart = some (i + 1, l ++ d)) ∧
    (n ≤ i + 1 → t.par.sup = s.par.sup ++ [l ++ d] ∧ t.par.supPart = none))

/-- With a usable PAIRKEY and room in the buffer, HELLO is sent every 10 ms while not PAIRED and HEARTBEAT every 100 us, as one frame with the next counter on the partner port in class 6; a beacon goes out every millisecond while PAR_BADDR is enabled and a HELLO was heard. Nothing is sent before its time. PAIRED without frames for DETECT becomes ISOLATED, or LOST where beacons are silent too; ISOLATED without beacons becomes LOST; HANDSHAKE of one second returns to SEEK. A state without a DIGEST for WINDOW is released as ALONE and opens a disagreement; a DIGEST held past its time counts UNMATCHED and opens one. What the supervisor sends as a SUPMSG of one piece leaves so too, in class 1 (log entry 125). A held delivery whose cycle has come is applied and, without the partner's NOTICE, counts NOTICE_ALONE; a later one stays held. Agreed seat proposals seat the tenant with the PRIMARY's phase; JOINWAIT without a partner proposal lets it seat alone. -/
def Obligations.PairingSendsAndTimesOut : Prop :=
  let ready (c : PairCfg) (k : Nat) (s : State) : Prop :=
    s.par.cfg = some c ∧ s.usableKey c.pairKey Use.pair none = some k ∧ c.port < 8 ∧ (s.prt c.port).up = true ∧
    ∀ cl < 8, s.cellsUsed 14 cl + 36 ≤ s.fld .SWC_INBUF 17 0 14 cl ∧ Tbl.get [] s.sw.inWait (14 * 8 + cl) = []
  let sent (c : PairCfg) (k cl : Nat) (ms : List PartnerMsg) (s t : State) : Prop :=
    t.par.txCtr = s.par.txCtr + 1 ∧ t.rg .PAR_LCNT 0 = satAdd 64 (s.rg .PAR_LCNT 0) 1 ∧
    ∃ g f, Tbl.get none t.sw.frames s.sw.nextId = some g ∧ g.outs = [c.port] ∧ g.cls = cl ∧ g.frame.etherType = 0x88B5 ∧
      g.frame.payload = .partner f ∧ f.ctr = s.par.txCtr + 1 ∧ f.msgs = ms ∧ f.tag.key = k
  (∀ c k s, ready c k s →
    (s.paired = false → s.due s.par.helloAt 10000000 = true → Runs .helloSend s fun t => t.par.helloAt = some s.frc ∧
      sent c k 6 [.hello s.pwr.side s.role1 s.lifecycle s.boot.imageDigest s.boot.runDigest (s.fld .PAR_BADDR 47 0)] s t) ∧
    (s.due s.par.hbAt 100000 = true → Runs .heartbeatSend s fun t => t.par.hbAt = some s.frc ∧
      sent c k 6 [.heartbeat (some (HbStamps.mk s.par.hbIn s.dt)) (pairCode s.par.st) s.groupStarts s.hRunning] s t) ∧
    (∀ f d, s.pwr.supRuns = true → f.etherType = 0x88B5 → f.payload = .other d → d.length ≤ pieceLen →
      Runs (.supervisorFrameSend f false) s fun t => sent c k 1 [.supmsg 0 1 d] s t)) ∧
  (∀ s, (s.paired = true ∨ s.due s.par.helloAt 10000000 = false → exec .helloSend s = .next s) ∧
    (s.due s.par.hbAt 100000 = false → exec .heartbeatSend s = .next s) ∧
    (s.par.partner = none ∨ s.flag .PAR_BADDR 63 = false ∨ s.due s.par.beaconAt 1000000 = false →
      exec .beaconSend s = .next s)) ∧
  (∀ c h k s, s.par.cfg = some c → s.par.partner = some h → s.flag .PAR_BADDR 63 = true →
    s.due s.par.beaconAt 1000000 = true → s.usableKey c.pairKey Use.pair none = some k → Runs .beaconSend s fun t =>
      t.par.beaconAt = some s.frc ∧ t.par.txCtr = s.par.txCtr + 1 ∧ t.sge.beacon = false) ∧
  (∀ s, (s.par.st = .paired → s.due s.par.heard s.detect = true → Runs .silenceDetect s fun t => t.flag .PAR_STAT 0 = true ∧
      t.par.st = if s.due s.par.beacon s.detect then .lost else .isolated) ∧
    (s.par.st ≠ .paired ∨ s.due s.par.heard s.detect = false → exec .silenceDetect s = .next s) ∧
    (s.par.st = .isolated → s.due s.par.beacon s.detect = true → Runs .beaconSilenceDetect s fun t => t.par.st = .lost ∧
      Tbl.get 0 t.ltl.cur (almondCounter 10) = satAdd 64 (Tbl.get 0 s.ltl.cur (almondCounter 10)) 1) ∧
    (s.par.st = .handshake → s.par.since + 1000000000 ≤ s.frc → Runs .handshakeTimeout s fun t => t.par.st = .seek ∧
      t.rg .PAR_LCNT 5 = satAdd 64 (s.rg .PAR_LCNT 5) 1)) ∧
  (∀ c a s, s.par.cfg = some c → s.par.agree = [a] → a.tr + c.window * 1000 ≤ s.frc →
    Runs (.agreementWindowExpiry a.tenant a.pubno) s fun t => t.par.agree = [] ∧ (t.parTen a.tenant).open_ = true ∧
      t.flag .PAR_STAT 10 = true ∧
      Tbl.get 0 (t.parTen a.tenant).cnt 2 = satInc 32 (Tbl.get 0 (s.parTen a.tenant).cnt 2)) ∧
  (∀ i h s, s.par.digs[i]? = some h → h.until_ ≤ s.frc → Runs (.digestHoldExpiry i) s fun t => t.par.digs = s.par.digs.eraseIdx i ∧
    (t.parTen h.rec_.tenant).open_ = true ∧
    Tbl.get 0 (t.parTen h.rec_.tenant).cnt 3 = satInc 32 (Tbl.get 0 (s.parTen h.rec_.tenant).cnt 3)) ∧
  (∀ c n h s x, s.par.cfg = some c → s.tenCfg n = some x → s.par.notices = [h] → h.tenant = n →
    (h.cycle ≤ s.cycleOf n + (if x.slot = 0 then 1 else 0) → Runs (.noticeDeliveryApply n) s fun t => t.par.notices = [] ∧
      Tbl.get 0 (t.parTen n).cnt 10 = (if h.matched then Tbl.get 0 (s.parTen n).cnt 10 else
        satInc 32 (Tbl.get 0 (s.parTen n).cnt 10)) ∧
      (∀ sc p v, (s.sub h.sub).cfg = some sc → 0 < s.avail 11 sc.tenant → h.stale = false → h.points = [(p, v)] →
        badHandle p = false → t.point p = v.kept)) ∧
    (s.cycleOf n + (if x.slot = 0 then 1 else 0) < h.cycle → Runs (.noticeDeliveryApply n) s fun t =>
      t.par.notices = [h] ∧ t.pts = s.pts)) ∧
  (∀ n a m b k s, (s.elaT n).st = .seat → (s.parTen n).seatOwn = some (a, m) → (s.parTen n).seatPeer = some (b, k) →
    max m k ≤ s.cycleOf n → Runs (.seatActivation n) s fun t =>
      (t.elaT n).seatTo = some (if s.fld .PAR_CFG 0 0 = 0 then a else b) ∧ (t.parTen n).seatOwn = none ∧
      (t.parTen n).seatPeer = none ∧ Tbl.get 0 (t.parTen n).cnt 9 = satInc 32 (Tbl.get 0 (s.parTen n).cnt 9)) ∧
  (∀ c n p s, s.par.cfg = some c → (s.elaT n).st = .seat → (s.parTen n).seatOwn = some p → (s.parTen n).seatPeer = none →
    (s.parTen n).seatFrom + c.joinWait * 1000000 ≤ s.frc → Runs (.joinwaitExpiry n) s fun t =>
      (t.parTen n).alone = true ∧ (t.parTen n).seatOwn = none ∧ t.ela = s.ela)

/-- SILENCE and UNSILENCE change SILENCED of a class H tenant and nothing of another. JOIN of a class H tenant in SEAT or RUN while PAIRED sets it REQUESTED and drops its proposals. After the join cycle the donor's pending capture ends and takes a credit for each piece of the record. The joiner that holds a timely record with its own TEN_SEQ runs with the donor's cursor, its silence ends and JOINS counts; with a late or foreign record, or none by the fetch instant, the join fails. SHIP, and a snapshot whose period has passed at a task boundary, take one credit of boundary 15; without one the block is refused, and while one is in transit the snapshot is skipped, both with SNAP_FAIL. TAKEOVER of a standby tenant with a kept snapshot of its program makes it active and its publications restart; another program is refused. RELEASE makes an active tenant standby and stops its element program. The clears leave what the present FRC count has counted. A failed test sets its SGE_STAT bit (BIST its tile's bit as well), scrubs add their corrections and stop or block the tenant whose memory is lost, THERM and REG faults show from their checks, and low VIN_SERDES takes every port DOWN. A report leaves 64 bytes in SGE_LREP every 100 ms; 300 ms without a partner report set PREP_LOST. -/
def Obligations.PairCommandsAndSelfTests : Prop :=
  (∀ n s, n = s.parSel →
    (s.classH n = true → Runs .silence s (fun t => (t.parTen n).silenced = true ∧ t.ela = s.ela ∧ t.rf = s.rf) ∧
      Runs .unsilence s (fun t => (t.parTen n).silenced = false ∧ t.ela = s.ela ∧ t.rf = s.rf)) ∧
    (s.classH n = false → exec .silence s = .next s ∧ exec .unsilence s = .next s ∧ exec .join s = .next s) ∧
    (s.classH n = true → s.par.st = .paired → (s.elaT n).st = .seat ∨ (s.elaT n).st = .run → Runs .join s fun t =>
      (t.parTen n).join = .requested ∧ (t.parTen n).seatOwn = none ∧ (t.parTen n).seatPeer = none ∧ t.ela = s.ela) ∧
    (s.shipping n = true → (s.parTen n).ship.isSome = true → Runs .ship s fun t => t.flag .PAR_STAT 6 = true ∧
      t.parTen n = { s.parTen n with snapAt := s.frc } ∧ t.crd = s.crd) ∧
    (∀ c k, s.par.cfg = some c → s.usableKey c.snapKey Use.snapshot none = some k → s.shipping n = true →
      (s.parTen n).ship = none → Runs .ship s fun t => (t.parTen n).snapAt = s.frc ∧ t.sch = s.sch ∧
        (0 < s.avail 15 n → Tbl.get 0 t.crd.used (crdKey 15 n) = Tbl.get 0 s.crd.used (crdKey 15 n) + 1) ∧
        (s.avail 15 n = 0 → (t.parTen n).ship = none ∧ t.flag .PAR_STAT 6 = true ∧
          Tbl.get 0 t.crd.drops (crdKey 15 n) = satInc 32 (Tbl.get 0 s.crd.drops (crdKey 15 n)))) ∧
    (∀ x f, (s.parTen n).kept = some (x, f) → s.classC n = true → (s.parTen n).cst = 2 →
      (x.sch = s.schDigest n → Runs .takeover s fun t => (t.parTen n).cst = 1 ∧
        ∀ i ∈ t.pubsOf n, (t.pub i).stNum = 0 ∧ (t.pub i).cur = none) ∧
      (x.sch ≠ s.schDigest n → exec .takeover s = .next (s.setFlag .SCH_STAT 7))) ∧
    (s.classC n = true → (s.parTen n).cst = 1 → Runs .pairRelease s fun t => (t.parTen n).cst = 2 ∧ (t.parTen n).ship = none ∧
      (t.elaT n).st = .out ∧ ((s.schT n).st = .run → (t.schT n).releasing = true))) ∧
  (∀ n c k s, s.par.cfg = some c → s.usableKey c.snapKey Use.snapshot none = some k → s.shipping n = true →
    (s.parTen n).ship = none → 0 < s.avail 15 n → (s.schT n).atBoundary = true →
    ((s.parTen n).snapAt + c.snap * 1000000 ≤ s.frc → Runs (.snapshotTake n) s fun t => (t.parTen n).snapAt = s.frc ∧
      Tbl.get 0 t.crd.used (crdKey 15 n) = Tbl.get 0 s.crd.used (crdKey 15 n) + 1 ∧ t.sch = s.sch) ∧
    (s.frc < (s.parTen n).snapAt + c.snap * 1000000 → exec (.snapshotTake n) s = .next s)) ∧
  (∀ n j s, (s.parTen n).donor = some j → (s.elaT n).st = .run → s.pairAligned n = true →
    (s.cycleOf n < j → exec (.joinCapture n) s = .next s) ∧
    (j < s.cycleOf n → Runs (.joinCapture n) s fun t => (t.parTen n).donor = none ∧ t.ela = s.ela ∧
      ∃ k, 1 ≤ k ∧ k ≤ 11 ∧ (k ≤ s.avail 15 n →
        Tbl.get 0 t.crd.used (crdKey 15 n) = Tbl.get 0 s.crd.used (crdKey 15 n) + k))) ∧
  (∀ n s, (s.parTen n).join = .requested ∨ (s.parTen n).join = .running →
    (∀ r, (s.parTen n).joinRec = some r → s.fetchPast n (r.cycle + 1) = false → r.seq = (s.tenant n).seq →
      s.pairAligned n = true → r.cycle < s.cycleOf n ∨ (r.cycle = s.cycleOf n ∧ (s.elaT n).window = none ∧
        (s.elaT n).openedAt = (s.group (s.groupOf n)).start.map (·.frc)) →
      Runs (.joinApply n) s fun t => (t.elaT n).st = .run ∧ (t.elaT n).cnt = (s.elaT n).cnt ∧
        (t.elaT n).cursor = (r.cycle + r.phase) % s.groupHz (s.groupOf n) ∧ (t.parTen n).join = .none ∧
        (t.parTen n).silenced = false ∧ t.flag .PAR_STAT 4 = true ∧
        Tbl.get 0 (t.parTen n).cnt 7 = satInc 32 (Tbl.get 0 (s.parTen n).cnt 7)) ∧
    ((∃ r, (s.parTen n).joinRec = some r ∧
        (s.fetchPast n (r.cycle + 1) = true ∨ r.seq ≠ (s.tenant n).seq ∨ s.pairAligned n = false)) ∨
      ((s.parTen n).joinRec = none ∧ s.fetchPast n ((s.parTen n).askedAt + 3) = true) → Runs (.joinApply n) s fun t =>
      (t.parTen n).join = .failed ∧ t.ela = s.ela ∧ t.flag .PAR_STAT 5 = true ∧
      Tbl.get 0 (t.parTen n).cnt 8 = satInc 32 (Tbl.get 0 (s.parTen n).cnt 8)) ∧
    ((s.parTen n).joinRec = none → s.fetchPast n ((s.parTen n).askedAt + 3) = false → exec (.joinApply n) s = .next s)) ∧
  (let cleared (s t : State) (n k : Nat) : Prop :=
      Tbl.get 0 (t.parTen n).cnt k = Tbl.get 0 (s.parTen n).cnt k - Tbl.get 0 (Tbl.get {} s.now.par n).cnt k ∧
      t.parTen n = { s.parTen n with cnt := (t.parTen n).cnt } ∧ t.rf = s.rf
   (∀ k s, k < 6 → Runs .parClearLink s fun t => t.rg .PAR_LCNT k = s.countedNow .PAR_LCNT k ∧ t.par = s.par) ∧
   (∀ k n s, Runs .parClearAll s fun t => cleared s t n k) ∧
   ∀ k s, Runs .parClearSel s fun t => cleared s t s.parSel k ∧ ∀ n, n ≠ s.parSel → t.parTen n = s.parTen n) ∧
  (∀ n fail s, s.bistable n = true → Runs (.tileBist n fail) s fun t => Tbl.get none t.sge.tested n = some s.frc ∧ t.ela = s.ela ∧
    (fail = true → t.flag .SGE_TILEFAIL (n % 32) (n / 32) = true ∧ t.flag .SGE_STAT 0 = true ∧
      Tbl.get 0 t.ltl.cur (almondCounter 21) = satAdd 64 (Tbl.get 0 s.ltl.cur (almondCounter 21)) 1)) ∧
  (∀ n s, s.flag .SGE_CTL 1 = true →
    Runs (.sramScrub n false none) s (fun t => t.sge.sramCorr = satAdd 32 s.sge.sramCorr n ∧ t.rf = s.rf) ∧
    Runs (.sramScrub n true none) s (fun t => t.flag .SGE_STAT 1 = true ∧ t.sge.sramCorr = satAdd 32 s.sge.sramCorr n) ∧
    Runs (.dramScrub n none) s (fun t => t.sge.dramCorr = satAdd 32 s.sge.dramCorr n ∧ t.rf = s.rf) ∧
    Runs (.dramScrub n (some .other)) s (fun t => t.flag .SGE_STAT 2 = true ∧ t.sge.dramCorr = satAdd 32 s.sge.dramCorr n ∧
      t.sch = s.sch) ∧
    (∀ m, (s.schT m).st = .run →
      let halted (t : State) : Prop := (t.schT m).st = .stop ∧ (t.schT m).cause = 3 ∧ t.flag .SCH_STAT 3 = true
      Runs (.sramScrub n true (some (.part m))) s halted ∧ Runs (.dramScrub n (some (.data m))) s halted) ∧
    ∀ m, (s.elaT m).st = .seat ∨ (s.elaT m).st = .run → (s.elaT m).window = none →
      Runs (.sramScrub n true (some (.slot m))) s fun t => (t.elaT m).st = .blocked ∧ t.flag .SGE_STAT 1 = true) ∧
  (∀ n s, n < 8 → s.flag .SGE_CTL 3 = true →
    (s.role n = Role.off ∨ s.role n = Role.spare → (s.prt n).up = false → Runs (.portLoopback n true) s fun t =>
      t.flag .SGE_STAT 3 = true ∧ t.ports = s.ports) ∧ exec (.portLoopback n false) s = .next s) ∧
  (∀ r (x : Int) s, s.flag .SGE_CTL 2 = true → r < 64 →
    (r ≠ 0 → Runs (.regulatorCheck r false) s fun t => t.flag .SGE_STAT 4 = true ∧ t.flag .PWR_STAT 1 = true ∧
      t.sge.regFault = railDomains r ∧ t.ports = s.ports) ∧
    Runs (.regulatorCheck 0 false) s (fun t => t.sge.regFault = 0 ∧ t.pwr.regOut = 0) ∧
    (s.pwr.serdesLow = false → Runs (.regulatorCheck r true) s fun t => t.flag .PWR_STAT 3 = true ∧ t.pwr.serdesLow = true ∧
      ∀ n < 8, (t.prt n).up = false) ∧
    (1050 < x → Runs (.temperatureCheck x) s fun t => t.flag .SGE_STAT 5 = true ∧ t.sge.temp = x ∧ t.pwr.hot = true) ∧
    (x ≤ 1050 → Runs (.temperatureCheck x) s fun t => t.flag .SGE_STAT 5 = s.flag .SGE_STAT 5 ∧ t.sge.temp = x)) ∧
  (∀ s, s.pwr.main = true →
    (s.sge.reportAt + 100000000 ≤ s.frc → Runs .healthReport s fun t => t.sge.lrep = bytesToWords 16 s.healthBytes ∧
      t.sge.seq = (s.sge.seq + 1) % 2 ^ 32 ∧ t.sge.reportAt = s.frc ∧ t.sge.sramCorr = 0 ∧ t.sge.dramCorr = 0 ∧
      t.sge.beacon = true ∧ t.flag .SGE_STAT 6 = true) ∧
    (s.frc < s.sge.reportAt + 100000000 → exec .healthReport s = .next s) ∧
    (s.healthBytes.length = 64) ∧
    (∀ f, s.sge.peerAt = some f → s.sge.peerLost = false → f + 300000000 ≤ s.frc → Runs .partnerReportLost s fun t =>
      t.flag .SGE_STAT 8 = true ∧ t.sge.peerLost = true))

/-- A tick that is not absorbed adds 1 to SCH_TICK; one within 2 µs after a tick that the cores made is absorbed; without one for 252 µs the cores make it, counted. For one running program p of tenant t, alone on its powered core, with one cyclic task: at a tick of its grid an idle task is activated, counted, starts at once and reads its input image; one whose activation still runs is skipped, counted, its MISSRUN grows, and at 3 the program stops with cause MISS. An event activates the event task bound to it, or is lost and counted when 4 are queued. The end of an activation's code stores its variables and issues its point write with a boundary-9 credit, or the task waits where there is none. An event activation that still runs WDOG ticks after its start is aborted and counted; the third in a row stops the program with cause WDOG. -/
def Obligations.SchemeTicksAndActivations : Prop :=
  let solo (s : State) (t : Nat) (c : SchTen) (p : SchProg) : Prop :=
    s.sch.ten = [(t, c)] ∧ c.prog = some p ∧ c.st = .run ∧ c.core < 16 ∧ s.domOn (9 + c.core / 8) = true
  (∀ s e rest, Tbl.get [] s.edges 4 = e :: rest →
    (s.sch.free = false → Runs .runtimeTick s fun t => t.rg .SCH_TICK = (s.rg .SCH_TICK + 1) % 2 ^ 64 ∧
      t.sch.last = some s.frc ∧ Tbl.get [] t.edges 4 = rest) ∧
    (∀ f, s.sch.free = true → s.sch.last = some f → e.frc ≤ f + 2000 → Runs .runtimeTick s fun t =>
      t.rg .SCH_TICK = s.rg .SCH_TICK ∧ t.sch.ten = s.sch.ten ∧ t.sch.free = false ∧ Tbl.get [] t.edges 4 = rest)) ∧
  (∀ s f, s.sch.last = some f → Tbl.get [] s.edges 4 = [] → f + 252000 ≤ s.frc → Runs .freewheelTick s fun t =>
    t.rg .SCH_TICK = (s.rg .SCH_TICK + 1) % 2 ^ 64 ∧ t.rg .SCH_TICKEV = satInc 32 (s.rg .SCH_TICKEV) ∧
    t.flag .SCH_STAT 6 = true ∧ t.sch.free = true) ∧
  (∀ s t c p e rest y x, solo s t c p → Tbl.get [] s.edges 4 = e :: rest → s.sch.free = false → c.chg.st ≠ .waiting →
    c.releasing = false → (s.tenant t).freezing = none → p.cyc = [y] →
    c.tasks = [(0, x)] ∨ (c.tasks = [] ∧ x = {}) → x.queue = [] →
    x.grid ≤ (s.tick + 1) % 2 ^ 64 → ((s.tick + 1) % 2 ^ 64 - x.grid) % y.period = y.phase →
    (x.cur = none → Runs .runtimeTick s fun u => ∃ a, ((u.schT t).task 0).cur = some a ∧ a.tick = (s.tick + 1) % 2 ^ 64 ∧
      a.startTick = some a.tick ∧ a.image = (p.inputs 0).map (fun h => (h, s.schReads c h)) ∧
      ((u.schT t).task 0).missrun = 0 ∧ Tbl.get 0 (u.schT t).cnt 0 = satAdd 32 (Tbl.get 0 c.cnt 0) 1) ∧
    (∀ a, x.cur = some a → a.startTick ≠ none → Runs .runtimeTick s fun u =>
      Tbl.get 0 (u.schT t).cnt 1 = satAdd 32 (Tbl.get 0 c.cnt 1) 1 ∧ u.flag .SCH_STAT 0 = true ∧
      (x.missrun < 2 → (u.schT t).st = .run ∧ ((u.schT t).task 0).missrun = x.missrun + 1) ∧
      (x.missrun = 2 → (u.schT t).st = .stop ∧ (u.schT t).cause = 1 ∧ u.flag .SCH_STAT 3 = true ∧
        ((u.schT t).task 0).cur = none))) ∧
  (∀ s t c p ev src rest, solo s t c p → p.evt = [ev] → ev.bound src = true → s.evts = (t, src) :: rest →
    ((c.task 8).queue.length < 4 → Runs .eventActivation s fun u =>
      Tbl.get 0 (u.schT t).cnt 0 = satAdd 32 (Tbl.get 0 c.cnt 0) 1 ∧ u.evts = rest) ∧
    (4 ≤ (c.task 8).queue.length → Runs .eventActivation s fun u =>
      Tbl.get 0 (u.schT t).cnt 3 = satAdd 32 (Tbl.get 0 c.cnt 3) 1 ∧ u.flag .SCH_STAT 1 = true ∧ u.evts = rest)) ∧
  (∀ s t c p k x a h v q y i w, solo s t c p → c.tasks = [(k, x)] → x.queue = [] → x.cur = some a → a.waitFrom = none →
    p.outputs k = [] → c.forces = [] →
    (0 < s.avail 9 t → Runs (.activationEnd t k { acts := [.point h v q y], vals := [(i, w)] }) s fun u =>
      Tbl.get 0 (u.schT t).vals i = w ∧ ((u.schT t).task k).cur = none ∧ ((u.schT t).task k).aborts = 0 ∧
      Tbl.get 0 u.crd.used (crdKey 9 t) = Tbl.get 0 s.crd.used (crdKey 9 t) + 1 ∧
      ∃ r, u.pntQ = pntInsert r s.pntQ ∧ r.at_ = s.frc ∧ r.cls = 1 ∧ r.handle = h ∧ r.point.value = v ∧ r.point.quality = q ∧ r.tenant = t ∧
        r.gen = (s.tenant t).gen) ∧
    (s.avail 9 t = 0 → Runs (.activationEnd t k { acts := [.point h v q y], vals := [(i, w)] }) s fun u =>
      u.pntQ = s.pntQ ∧ u.crd = s.crd ∧ ((u.schT t).task k).cur.isSome = true ∧
      ((u.schT t).task k).cur.bind (·.waitFrom) = some s.frc)) ∧
  (∀ s t c p k x a ev b, solo s t c p → c.tasks = [(8 + k, x)] → x.queue = [] → x.cur = some a → p.evt[k]? = some ev →
    a.startTick = some b → b + ev.wdog ≤ s.tick → Runs (.wdogAbort t (8 + k)) s fun u =>
    Tbl.get 0 (u.schT t).cnt 2 = satAdd 32 (Tbl.get 0 c.cnt 2) 1 ∧ u.flag .SCH_STAT 2 = true ∧
    ((u.schT t).task (8 + k)).cur = none ∧
    (x.aborts < 2 → (u.schT t).st = .run ∧ ((u.schT t).task (8 + k)).aborts = x.aborts + 1) ∧
    (2 ≤ x.aborts → (u.schT t).st = .stop ∧ (u.schT t).cause = 2))

/-- For the tenant that SCH_TSEL selects: START_WARM of a stopped program runs it with its retained variables kept and all others initialised, START_COLD with every variable initialised and no force; STOP of a running one stops it with cause 0; a command that does not fit sets CMD_REFUSED. CHG_STAGE starts the checks of a package; they end STAGED, or failed with the first result of Table 11-3 that applies. CHG_COMMIT of a staged change in RUN or STOP waits for the boundary (without journal room it is refused, the model's choice); CHG_DISCARD drops it. At one of the WAIT ticks with no task active or queued a waiting change switches: the new program, variables of the same name and type with their old values, forces whose point stands with its TYPE, the report written, the running structure digest extended; after WAIT ticks it fails with TIMEOUT. A WAIT outside 40 to 240,000 fails with LIMIT, the model's choice. Clears and a read of SCH_TICKEV leave what events of their own FRC count have counted; PEAK becomes 0. -/
def Obligations.SchemeCommandsAndChanges : Prop :=
  (∀ s p, let c := s.schT s.schTsel
    (c.prog = some p → c.st = .stop →
      (c.noWarm = false → Runs .startWarm s fun t => (t.schT s.schTsel).st = .run ∧ (t.schT s.schTsel).forces = c.forces ∧
        (∀ i, i < p.vars.length → Tbl.get 0 (t.schT s.schTsel).vals i =
          if (p.vars.getD i { name := 0, type := 0 }).retained then Tbl.get 0 (if c.curB then c.keepB else c.keepA) i
          else (p.vars.getD i { name := 0, type := 0 }).init) ∧ t.rf = s.rf) ∧
      Runs .startCold s fun t => (t.schT s.schTsel).st = .run ∧ (t.schT s.schTsel).forces = [] ∧
        ∀ i, i < p.vars.length → Tbl.get 0 (t.schT s.schTsel).vals i = (p.vars.getD i { name := 0, type := 0 }).init) ∧
    (c.st ≠ .stop → exec .startWarm s = .next (s.setFlag .SCH_STAT 7) ∧ exec .startCold s = .next (s.setFlag .SCH_STAT 7)) ∧
    (c.noWarm = true → exec .startWarm s = .next (s.setFlag .SCH_STAT 7)) ∧
    (c.st = .run → Runs .schStop s fun t => (t.schT s.schTsel).st = .stop ∧ (t.schT s.schTsel).cause = 0 ∧
      t.flag .SCH_STAT 3 = true ∧ t.pts = s.pts ∧
      Tbl.get 0 (t.schT s.schTsel).cnt 4 = satAdd 32 (Tbl.get 0 c.cnt 4) 1) ∧
    (c.st ≠ .run → exec .schStop s = .next (s.setFlag .SCH_STAT 7)) ∧
    (∀ g, c.prog = some p → c.chg.st = .empty ∨ c.chg.st = .done ∨ c.chg.st = .failed → Runs (.chgStage g) s fun t =>
      (t.schT s.schTsel).chg.st = .verifying ∧ (t.schT s.schTsel).chg.pkg = g ∧ t.rf = s.rf) ∧
    (∀ g, c.chg.st = .staged → s.pwr.supRuns = true → c.chg.pkg = some g →
      if s.jrnlRoom g.size = false then exec .chgCommit s = .next (s.setFlag .SCH_STAT 7) else
      (c.st = .run ∨ c.st = .stop → Runs .chgCommit s fun t => (t.schT s.schTsel).chg.st = .waiting ∧
        (t.schT s.schTsel).chg.from_ = s.tick ∧ t.rf = s.rf) ∧
      (c.st ≠ .run → c.st ≠ .stop → Runs .chgCommit s fun t => (t.schT s.schTsel).chg.st = .staged ∧
        (t.schT s.schTsel).chg.result = 0x25 ∧ t.flag .SCH_STAT 7 = true)) ∧
    (c.chg.st = .staged ∨ c.chg.st = .verifying → Runs .chgDiscard s fun t => (t.schT s.schTsel).chg = {} ∧ t.rf = s.rf)) ∧
  (∀ s t g old, (s.schT t).chg.st = .verifying → s.pwr.supRuns = true → (s.schT t).chg.pkg = some g →
    (s.schT t).prog = some old → (s.schT t).chg.mbx = false →
    let signed := s.signedOk g.sig && s.signedOk g.progSig && g.progMagic &&
      decide (g.prog.digest = g.progSig.msg ∧ g.progKind = 2 ∧ g.progTenant = t)
    let fits := g.prog.limitOk && s.schCrossOk t g.prog && decide (40 ≤ g.wait ∧ g.wait ≤ 240000)
    let ends (st : ChgSt) (r : Nat) : Prop := Runs (.changeStaged t) s fun u => (u.schT t).chg.st = st ∧
      (u.schT t).chg.result = r ∧ (u.schT t).prog = some old
    (signed = false → ends .failed 0x20) ∧
    (signed = true → g.base ≠ old.digest → ends .failed 0x21) ∧
    (signed = true → g.base = old.digest → fits = false → ends .failed 0x22) ∧
    (signed = true → g.base = old.digest → fits = true →
      if 2 ^ 21 < old.data + g.prog.data ∨ 2 ^ 21 < old.code + g.prog.code then ends .failed 0x23 else ends .staged 0)) ∧
  (∀ s t g old, (s.schT t).chg.st = .waiting → (s.schT t).chg.pkg = some g → (s.schT t).chg.mbx = false →
    (s.schT t).prog = some old →
    (s.tickComes = false ∨ (s.schT t).atBoundary = false ∨ (s.schT t).chg.from_ + g.wait ≤ s.tick ∨ s.jrnlRoom g.size = false →
      exec (.changeSwitch t) s = .next s) ∧
    (s.pwr.supRuns = true → (s.schT t).st = .run ∨ (s.schT t).st = .stop → (s.schT t).tasks = [] → s.tickComes = true →
      s.tick < (s.schT t).chg.from_ + g.wait → s.jrnlRoom g.size = true → (s.tenant t).freezing = none → Runs (.changeSwitch t) s fun u =>
      (u.schT t).prog = some g.prog ∧ (u.schT t).st = (s.schT t).st ∧ (u.schT t).chg.st = .done ∧ u.flag .SCH_STAT 4 = true ∧
      u.out = s.out ++ [.changeReport t g.report (s.schT t).chg.report (u.schT t).dropped (u.schT t).uncarried (u.schT t).lostEvts] ∧
      u.boot.runDigest = Config.sha384 (digestBytes s.boot.runDigest ++ digestBytes g.sig.msg) ∧
      (∀ f, f ∈ (u.schT t).forces ↔ f ∈ (s.schT t).forces ∧ (f.handle, f.type) ∈ g.prog.points) ∧
      (∀ i v, g.prog.vars[i]? = some v → Tbl.get 0 (u.schT t).vals i =
        match old.findVar v with | some j => Tbl.get 0 (s.schT t).vals j | none => v.init)) ∧
    ((s.schT t).chg.from_ + g.wait ≤ s.tick → Runs (.changeTimeout t) s fun u => (u.schT t).prog = some old ∧
      (u.schT t).chg.st = .failed ∧ (u.schT t).chg.result = 0x24 ∧ u.flag .SCH_STAT 5 = true)) ∧
  (∀ s k, let now (n : Nat) : Nat := Tbl.get 0 (Tbl.get {} s.now.sch n).cnt k
    Runs .schClearSel s (fun t =>
      Tbl.get 0 (t.schT s.schTsel).cnt k = Tbl.get 0 (s.schT s.schTsel).cnt k - now s.schTsel ∧
    ((t.schT s.schTsel).task k).peak = 0 ∧
    (Tbl.rising (s.schT s.schTsel).tasks = true → ((t.schT s.schTsel).task k).last = ((s.schT s.schTsel).task k).last) ∧
    t.rf = s.rf ∧ ∀ n, n ≠ s.schTsel → t.schT n = s.schT n) ∧
    Runs .schClearAll s fun t => t.rf = s.rf ∧ ∀ n,
      Tbl.get 0 (t.schT n).cnt k = Tbl.get 0 (s.schT n).cnt k - now n ∧ ((t.schT n).task k).peak = 0) ∧
  (∀ q s, s.rg .SCH_TICKEV < 2 ^ 32 → Runs (.schTickevRead q) s fun t => t.rg .SCH_TICKEV = s.countedNow .SCH_TICKEV ∧ t.sch = s.sch ∧
    (t.port q).data = BitVec.ofNat 32 (s.rg .SCH_TICKEV - s.countedNow .SCH_TICKEV))

/-- A start edge starts a pass of the first NLOOP loops of the order, counted in LOP_PASSCNT, unless a pass runs (OVERRUN) or the last start lies less than Ts/2 back (EARLY); without an edge the engine starts the pass itself, counted in FREEWHEEL. Nothing is read before t0 + 0.5 µs and loop q has its turn at t0 + 0.5 + 0.16 q µs. At the turn of a loop n with a fixed set-point, no feed-forward and no command waiting: in RUN with a fresh converter input the write to the output point, of the owner's generation and after every other write of its cycle, is clamp(p + integ + 0, OMIN, OMAX) with good quality, where integ moves by KI × e unless the output winds up at a limit; a feedback missed for LOSSN passes leads to FHOLD with cause LOSS, its counter, the FAULT flag and the held output with questionable quality; RAMP above SAFE writes the larger of OUT_H − m × RAMP and SAFE; SAFE writes SAFE. The first evaluation after RUN is entered gives the last output. A command that Table 12-5 lists for the state waits for the next evaluation, any other sets CMD_REFUSED. A coefficient or gain write that R290 allows replaces its word, any other sets COEF_REFUSED. A pulse edge with levels of at least 100 ns counts and ends the loss of its input, any other is ignored. Reads that clear leave what events of their own FRC count have counted. (Which values the free pass length takes does not matter here.) -/
def Obligations.LoopPassesRunLoops : Prop :=
  (∀ s e rest, Tbl.get [] s.edges 3 = e :: rest → s.domOn 11 = true →
    (s.lop.last = none → Runs .loopPass s fun t => t.rg .LOP_PASSCNT = (s.rg .LOP_PASSCNT + 1) % 2 ^ 64 ∧
      t.lop.last = some s.frc ∧ Tbl.get [] t.edges 3 = rest ∧ t.pts = s.pts ∧ t.pntQ = s.pntQ ∧ t.lop.loops = s.lop.loops ∧
      t.lop.pass = some { stamp := e.stamp, from_ := s.frc, rest := s.lop.order.take (min 64 (s.fld .LOP_CFG 22 16)) }) ∧
    (∀ f, s.lop.last = some f → s.lop.free = false → e.frc < s.lop.busyTo → Runs .loopPass s fun t =>
      t.fld .LOP_EV 15 8 = satInc 8 (s.fld .LOP_EV 15 8) ∧ t.flag .LOP_STAT 3 = true ∧ t.lop = s.lop ∧ t.pts = s.pts) ∧
    (∀ f, s.lop.last = some f → s.lop.free = false → s.lop.busyTo ≤ e.frc →
      (e.frc - f) * 2 * rateHz (s.fld .LOP_CFG 1 0) < sec → Runs .loopPass s fun t =>
      t.fld .LOP_EV 7 0 = satInc 8 (s.fld .LOP_EV 7 0) ∧ t.flag .LOP_STAT 4 = true ∧ t.lop = s.lop)) ∧
  (∀ s f, s.lop.last = some f → s.domOn 11 = true → Tbl.get [] s.edges 3 = [] → f + 2000 ≤ s.frc →
    sec ≤ (s.frc - f - 2000) * rateHz (s.fld .LOP_CFG 1 0) → Runs .loopFreewheel s fun t =>
    t.fld .LOP_EV 31 16 = satInc 16 (s.fld .LOP_EV 31 16) ∧ t.flag .LOP_STAT 5 = true ∧
    t.rg .LOP_PASSCNT = (s.rg .LOP_PASSCNT + 1) % 2 ^ 64 ∧ t.lop.last = some s.frc ∧
    t.lop.pass = some { stamp := s.dt, from_ := s.frc, rest := s.lop.order.take (min 64 (s.fld .LOP_CFG 22 16)) }) ∧
  (∀ (s : State) p, s.lop.pass = some p → s.frc < p.from_ + 500 → s.passTick = s) ∧
  (∀ (s : State) p n rest, s.lop.pass = some p → p.rest = n :: rest → p.latched = true → s.frc < p.from_ + 500 + 160 * p.q → s.passTick = s) ∧
  (∀ (s : State) n p, n < 64 → s.lop.pass = some p → p.rest = [n] → p.q = 0 → p.latched = false → p.from_ + 500 ≤ s.frc →
    (s.loop n).cmd = none → (s.loop n).ownerHit = false →
    s.rg .LOP_SPSRC n = 0 → s.rg .LOP_FFSRC n = 0 → badHandle (s.rg .LOP_OUTH n) = false →
    let l := s.loop n
    let owner := if s.flag .LOP_OWN 31 n then s.fld .LOP_OWN 11 0 n else noOwner
    let written (v q : Nat) (t : State) : Prop := t.lop.pass = none ∧ t.pts = s.pts ∧ t.pntQ = pntInsert
      { tenant := owner, gen := (s.tenant owner).gen, bnd := Bnd.loopPort, handle := s.rg .LOP_OUTH n, cls := 4, at_ := s.frc
        point := { value := v, quality := q, type := 3, info := 13, time := stampNs p.stamp } } s.pntQ
    (∀ i, i < 16 → l.st = .run → l.entering = false → s.rg .LOP_FBSRC n = 2 ^ 31 + i → s.fld .LOP_DET 23 16 n = 0 →
      fIsZero (s.coef n Coef.plim).w = true → l.implausible = 0 → Tbl.get 0 s.adc.count i ≠ Tbl.get 0 s.lop.seen i →
      s.flag .ADC_RES 29 i = false →
      let lim := s.coef n Coef.spslew
      let sp := fvAdd (fv l.sp) (fClamp (fvSub (fv (s.coef n Coef.spfix).w) (fv l.sp)) (fvNeg lim) lim)
      let err := fvSub (fv sp.w) (fv (fInt (signed 16 (s.fld .ADC_RES 15 0 i))).w)
      let ff := fvMul (s.coef n Coef.kff) f0
      let u0 := fvAdd (fvAdd (s.loopP n err) (fv l.integ)) ff
      let wind := (fLe (s.coef n Coef.omax).w u0.w && fLt 0 err.w) || (fLe u0.w (s.coef n Coef.omin).w && fLt err.w 0)
      let integ := if wind then fv l.integ else fvAdd (fv l.integ) (fvMul (s.coef n Coef.ki) err)
      let v := fClamp (fvAdd (fvAdd (s.loopP n err) integ) ff) (s.coef n Coef.omin) (s.coef n Coef.omax)
      let t := s.passTick
      written v.w 0 t ∧ (t.loop n).st = .run ∧ (t.loop n).integ = integ.w) ∧
    (∀ i, i < 16 → l.st = .run ∨ l.st = .hold → s.rg .LOP_FBSRC n = 2 ^ 31 + i →
      Tbl.get 0 s.adc.count i = Tbl.get 0 s.lop.seen i → l.fb.miss < 255 → s.lossN n ≤ l.fb.miss + 1 →
      let t := s.passTick
      written (s.loopOut n l).w 131 t ∧ (t.loop n).st = .fhold ∧ (t.loop n).cause = 1 ∧
        t.fld .LOP_FCNT 31 24 n = satInc 8 (s.fld .LOP_FCNT 31 24 n) ∧ t.flag .LOP_STAT 0 = true) ∧
    (l.st = .ramp → fLt (s.coef n Coef.safe).w l.outH = true →
      let v := fvMax (fvSub (fv l.outH) (fvMul (fInt (l.m + 1 : Nat)) (s.coef n Coef.ramp))) (s.coef n Coef.safe)
      (fLe v.w (s.coef n Coef.safe).w = false → let t := s.passTick
        written v.w 131 t ∧ (t.loop n).st = .ramp ∧ (t.loop n).m = l.m + 1)) ∧
    (l.st = .safe → let t := s.passTick
      written (s.coef n Coef.safe).w 131 t ∧ (t.loop n).st = .safe)) ∧
  (∀ (s : State) n (l : Loop), l.entering = true → (s.loopLaw n l).out = some (s.loopOut n l).w ∧ (s.loopLaw n l).entering = false) ∧
  (∀ n s, n < 64 →
    let waits (c : Nat) (t : State) : Prop := (t.loop n).cmd = some c ∧ (t.loop n).st = (s.loop n).st ∧ t.pts = s.pts ∧ t.rf = s.rf
    ((s.loop n).st ≠ .run → Runs (.loopRun n) s (waits 1)) ∧
    ((s.loop n).st = .run → exec (.loopRun n) s = .next (s.setFlag .LOP_STAT 6) ∧ Runs (.loopHold n) s (waits 2)) ∧
    ((s.loop n).st ≠ .run → exec (.loopHold n) s = .next (s.setFlag .LOP_STAT 6)) ∧
    ((s.loop n).st = .run ∨ (s.loop n).st = .hold ∨ (s.loop n).st = .fhold → Runs (.loopSafe n) s (waits 3)) ∧
    ((s.loop n).st = .safe → exec (.loopSafe n) s = .next (s.setFlag .LOP_STAT 6)) ∧
    ((s.loop n).st ≠ .off → Runs (.loopOff n) s (waits 4)) ∧
    ((s.loop n).st = .off → exec (.loopOff n) s = .next (s.setFlag .LOP_STAT 6))) ∧
  (∀ n w v s, n < 64 → w < 14 → v < 2 ^ 32 →
    (coefOk (fun i => s.rg .LOP_COEF n i) w v = true → Runs (.coefWrite n w v) s fun t => t.rg .LOP_COEF n w = v ∧
      t.lop = s.lop ∧ ∀ j, j < 14 → j ≠ w → t.rg .LOP_COEF n j = s.rg .LOP_COEF n j) ∧
    (coefOk (fun i => s.rg .LOP_COEF n i) w v = false → exec (.coefWrite n w v) s = .next (s.setFlag .LOP_STAT 7))) ∧
  (∀ g i v s, g < 64 → i < 256 → v < 2 ^ 32 →
    (fSpecial v = false → Runs (.gainWrite g i v) s fun t => t.rg .LOP_GAIN g i = v ∧ t.lop = s.lop) ∧
    (fSpecial v = true → exec (.gainWrite g i v) s = .next (s.setFlag .LOP_STAT 7))) ∧
  (∀ (p : PulseEdge) s, p.input < 4 → s.domOn 11 = true →
    (100 ≤ p.low → 100 ≤ p.high → Runs (.pulseInEdge p) s fun t => t.flag .LOP_PSTAT p.input = false ∧
      (Tbl.get {} t.lop.pulses p.input).edges = (Tbl.get {} s.lop.pulses p.input).edges + 1) ∧
    (p.low < 100 ∨ p.high < 100 → exec (.pulseInEdge p) s = .next s)) ∧
  (∀ q s, s.rg .LOP_EV < 2 ^ 32 → Runs (.lopEvRead q) s fun t => t.rg .LOP_EV = s.countedNow .LOP_EV ∧ t.lop = s.lop ∧
    (t.port q).data = BitVec.ofNat 32 (s.rg .LOP_EV - s.countedNow .LOP_EV)) ∧
  (∀ q n s, n < 64 → s.rg .LOP_FCNT n < 2 ^ 32 → Runs (.lopFcntRead q n) s fun t => t.rg .LOP_FCNT n = s.countedNow .LOP_FCNT n ∧
    t.lop = s.lop ∧ (t.port q).data = BitVec.ofNat 32 (s.rg .LOP_FCNT n - s.countedNow .LOP_FCNT n))

/-- On a converter that works: a scan request starts the scan of an idle converter with the least input of SCANMASK, is ignored and counted in SCAN_OVR during a scan, and pends otherwise. An injection request starts on an idle converter with slot 0; during a scan it aborts the running conversion, counts it and starts, with the aborted input to repeat, but at the end of a scan conversion it aborts nothing; during an injection it is ignored and counted; during a calibration it pends, and of both requested in one count it runs first. A calibration is refused while the reference is not settled, starts on an idle converter and pends behind a scan or an injection. STOP ends a running scan with its conversion and discards a pending scan. A Thyme fire does what TGT selects. A converter that is disabled ignores all of them; clearing EN ends every activity; ADC_REF.EN settles 2 ms after it is set, and clearing it clears SETTLED. -/
def Obligations.ConverterRequestsFollowTable : Prop :=
  (∀ k s, s.convOn k = true →
    (∀ i rest, (s.conv k).act = .idle → s.scanList k = i :: rest → Runs (.adcScan k) s fun t =>
      (t.conv k).act = .scan ∧ (t.conv k).cur = i ∧ (t.conv k).scan = rest ∧ (t.conv k).from_ = s.frc ∧ t.rf = s.rf) ∧
    ((s.conv k).act = .scan → Runs (.adcScan k) s fun t => t.conv k = s.conv k ∧
      t.fld .ADC_EV 15 8 k = satInc 8 (s.fld .ADC_EV 15 8 k) ∧ t.flag .ADC_KSTAT 5 k = true) ∧
    ((s.conv k).act = .inj ∨ (s.conv k).act = .cal → (s.conv k).scanPend = false → Runs (.adcScan k) s fun t =>
      t.conv k = { s.conv k with scanPend := true } ∧ t.rf = s.rf) ∧
    ((s.conv k).act = .idle → Runs (.adcInject k) s fun t => (t.conv k).act = .inj ∧
      (t.conv k).cur = s.fld .ADC_INJ 2 0 k ∧ (t.conv k).inj.length = s.fld .ADC_INJ 17 16 k ∧
      (t.conv k).from_ = s.frc ∧ t.rf = s.rf) ∧
    ((s.conv k).act = .scan → (s.conv k).from_ + 1000 ≤ s.frc → (s.conv k).injPend = false → Runs (.adcInject k) s fun t =>
      t.conv k = { s.conv k with injPend := true } ∧ t.rf = s.rf) ∧
    ((s.conv k).act = .scan → (s.conv k).from_ = s.frc → (s.conv k).doneAt = some s.frc → Runs (.adcInject k) s fun t =>
      (t.conv k).act = .inj ∧ (t.conv k).restart = some (s.conv k).cur ∧ t.rf = s.rf) ∧
    ((s.conv k).act = .scan → s.frc < (s.conv k).from_ + 1000 → (s.conv k).doneAt ≠ some s.frc → Runs (.adcInject k) s fun t =>
      (t.conv k).act = .inj ∧
      (t.conv k).cur = s.fld .ADC_INJ 2 0 k ∧ (t.conv k).restart = some (s.conv k).cur ∧
      (t.conv k).scan = (s.conv k).scan ∧ t.fld .ADC_EV 31 16 k = satInc 16 (s.fld .ADC_EV 31 16 k) ∧
      t.flag .ADC_KSTAT 4 k = true) ∧
    ((s.conv k).act = .inj → Runs (.adcInject k) s fun t => t.conv k = s.conv k ∧
      t.fld .ADC_EV 7 0 k = satInc 8 (s.fld .ADC_EV 7 0 k) ∧ t.flag .ADC_KSTAT 6 k = true) ∧
    ((s.conv k).act = .cal → (s.conv k).injPend = false → Runs (.adcInject k) s fun t => t.rf = s.rf ∧
      if (s.conv k).from_ = s.frc then (t.conv k).act = .inj ∧ (t.conv k).calPend = true
      else t.conv k = { s.conv k with injPend := true }) ∧
    (s.refSettledAt s.frc = false → Runs (.adcCal k) s fun t => t.flag .ADC_KSTAT 8 k = true ∧ t.adc = s.adc ∧
      t.rg .ADC_SELFCAL k = s.rg .ADC_SELFCAL k) ∧
    (s.refSettledAt s.frc = true → (s.conv k).act = .idle → Runs (.adcCal k) s fun t =>
      (t.conv k).act = .cal ∧ (t.conv k).from_ = s.frc ∧ t.rf = s.rf) ∧
    (s.refSettledAt s.frc = true → (s.conv k).act = .scan ∨ (s.conv k).act = .inj → Runs (.adcCal k) s fun t =>
      t.conv k = { s.conv k with calPend := true } ∧ t.rf = s.rf) ∧
    ((s.conv k).act = .scan → Runs (.adcStop k) s fun t => (t.conv k).scan = [] ∧ (t.conv k).restart = none ∧
      (t.conv k).act = .scan ∧ (t.conv k).scanPend = false ∧ t.rf = s.rf) ∧
    ((s.conv k).act = .inj ∨ (s.conv k).act = .cal → Runs (.adcStop k) s fun t =>
      t.conv k = { s.conv k with scanPend := false } ∧ t.rf = s.rf) ∧
    (∀ e rest i more, Tbl.get [] s.edges (1 + k) = e :: rest → (s.conv k).act = .idle → s.scanList k = i :: more →
      Runs (.converterFire k) s fun t => Tbl.get [] t.edges (1 + k) = rest ∧
        if s.flag .ADC_CFG 30 k then (t.conv k).act = .inj ∧ (t.conv k).cur = s.fld .ADC_INJ 2 0 k
        else (t.conv k).act = .scan ∧ (t.conv k).cur = i)) ∧
  (∀ k s, s.convOn k = false → exec (.adcScan k) s = .next s ∧ exec (.adcInject k) s = .next s ∧
    exec (.adcCal k) s = .next s ∧ exec (.adcStop k) s = .next s) ∧
  (∀ k s, k < 2 → Runs (.converterDisable k) s fun t => t.conv k = {} ∧ t.flag .ADC_CFG 31 k = false ∧
    ∀ i, t.rg .ADC_RES i = s.rg .ADC_RES i) ∧
  (∀ s, s.flag .ADC_REF 0 = false → s.domOn 14 = true → Runs (.referenceEnable true) s fun t =>
    t.adc.refFrom = some s.frc ∧ t.flag .ADC_REF 0 = true) ∧
  (∀ s, Runs (.referenceEnable false) s fun t => t.adc.refFrom = none ∧ t.rg .ADC_REF = 0) ∧
  (∀ s f, s.adc.refFrom = some f →
    (f + 2000000 ≤ s.frc → exec .referenceSettled s = .next (s.setFlag .ADC_REF 31)) ∧
    (s.frc < f + 2000000 → exec .referenceSettled s = .next s))

/-- Not before 1,000 ns after its acquisition began, a conversion of input i = 8k + CUR ends: ADC_RES(i) takes (raw − OFS) × GAIN + 0x4000 shifted right by 15 and saturated, NEW, CLIP, OUTWIN and INJ as they hold, and OVW if NEW stood; ADC_RAW(i) takes the raw code and ADC_RESTS(i) the sampling instant. The last result of an injection sets INJ_DONE and a pending calibration follows; within an injection the next slot follows at once; the last result of a scan of which STOP cut no conversion sets SCAN_DONE. A calibration ends 40 µs after its start: ADC_SELFCAL is replaced and CAL_DONE set, or CAL_REFUSED set if the reference was disabled. A read of ADC_RES(i) returns it and clears NEW and OVW, one of ADC_EV returns and clears what events of earlier FRC counts have counted. (A self-calibrated code outside 16 bits is a free value of the model, so the first clause names codes within.) -/
def Obligations.ConversionsWriteResults : Prop :=
  (∀ k code s, s.convOn k = true → (s.conv k).act = .scan ∨ (s.conv k).act = .inj → (s.conv k).from_ + 1000 ≤ s.frc →
    (s.conv k).cur < 8 → -32768 ≤ code → code ≤ 32767 →
    -32768 ≤ code - signed 16 (s.fld .ADC_SELFCAL 15 0 k) → code - signed 16 (s.fld .ADC_SELFCAL 15 0 k) ≤ 32767 →
    let i := 8 * k + (s.conv k).cur
    let raw := code - signed 16 (s.fld .ADC_SELFCAL 15 0 k)
    let sum := ((raw - signed 16 (s.fld .ADC_CORR 15 0 i)) * (s.fld .ADC_CORR 31 16 i : Nat) + 0x4000) / 0x8000
    let v := if 32767 < sum then 32767 else if sum < -32768 then -32768 else sum
    let result (t : State) : Prop := signed 16 (t.fld .ADC_RES 15 0 i) = v ∧ t.flag .ADC_RES 31 i = true ∧
      t.flag .ADC_RES 30 i = s.flag .ADC_RES 31 i ∧ t.flag .ADC_RES 26 i = decide (v ≠ sum) ∧
      t.flag .ADC_RES 28 i = decide ((s.conv k).act = .inj) ∧
      (s.refSettledAt ((s.conv k).from_ + 250) = true → t.flag .ADC_RES 29 i = false) ∧
      t.flag .ADC_RES 27 i = (decide (v < signed 16 (s.fld .ADC_WIN 15 0 i)) || decide (signed 16 (s.fld .ADC_WIN 31 16 i) < v)) ∧
      signed 16 (t.fld .ADC_RAW 15 0 i) = raw ∧
      t.rg .ADC_RESTS i = stampNs (s.dtAt ((s.conv k).from_ + 250) 0) % 2 ^ 64
    Runs (.conversionDone k code) s fun t => result t ∧
      (∀ a rest, (s.conv k).act = .inj → (s.conv k).inj = a :: rest →
        (t.conv k).act = .inj ∧ (t.conv k).cur = a ∧ (t.conv k).inj = rest ∧ (t.conv k).from_ = s.frc) ∧
      ((s.conv k).act = .inj → (s.conv k).inj = [] → (s.conv k).injPend = false → t.flag .ADC_KSTAT 1 k = true ∧
        ((s.conv k).calPend = true → (t.conv k).act = .cal ∧ (t.conv k).from_ = s.frc) ∧
        (∀ j, (s.conv k).calPend = false → (s.conv k).restart = some j → (t.conv k).act = .scan ∧ (t.conv k).cur = j)) ∧
      ((s.conv k).act = .scan → (s.conv k).scan = [] → (s.conv k).restart = none →
        ((s.conv k).stopped = false → t.flag .ADC_KSTAT 0 k = true) ∧
        ((s.conv k).injPend = false → (s.conv k).calPend = false → (s.conv k).scanPend = false → (t.conv k).act = .idle)) ∧
      (∀ a rest, (s.conv k).act = .scan → (s.conv k).scan = a :: rest → (s.conv k).restart = none →
        (s.conv k).injPend = false → (s.conv k).calPend = false → (t.conv k).act = .scan ∧ (t.conv k).cur = a ∧
        (t.conv k).scan = rest)) ∧
  (∀ k code s, s.frc < (s.conv k).from_ + 1000 → exec (.conversionDone k code) s = .next s) ∧
  (∀ k g o s, s.convOn k = true → (s.conv k).act = .cal → (s.conv k).from_ + 40000 ≤ s.frc →
    (s.refSettledAt (s.conv k).from_ = true → Runs (.calibrationDone k g o) s fun t =>
      t.rg .ADC_SELFCAL k = g % 65536 * 65536 + o % 65536 ∧ t.flag .ADC_KSTAT 7 k = true) ∧
    (s.refSettledAt (s.conv k).from_ = false → Runs (.calibrationDone k g o) s fun t =>
      t.rg .ADC_SELFCAL k = s.rg .ADC_SELFCAL k ∧ t.flag .ADC_KSTAT 8 k = true)) ∧
  (∀ q i s, i < 16 → Runs (.adcResRead q i) s fun t => (t.port q).data = BitVec.ofNat 32 (s.rg .ADC_RES i) ∧
    t.flag .ADC_RES 31 i = false ∧ t.flag .ADC_RES 30 i = false ∧ t.fld .ADC_RES 29 0 i = s.fld .ADC_RES 29 0 i ∧
    t.adc = s.adc) ∧
  (∀ q k s, k < 2 → s.rg .ADC_EV k < 2 ^ 32 → Runs (.adcEvRead q k) s fun t =>
    (t.port q).data = BitVec.ofNat 32 (s.rg .ADC_EV k - s.countedNow .ADC_EV k) ∧
    t.rg .ADC_EV k = s.countedNow .ADC_EV k ∧ t.adc = s.adc)

/-- A frame from another node, received by a controller in NORMAL with REC 0 and not waiting for 11 recessive bits, is written with its data, identifier and DLC at entry RWR mod 256, RWR counts on, and a boundary-12 credit is taken; with 256 unread entries it is an ingest drop, OVF is set, memory stays, and the next entry will carry LOSS. It is acknowledged and meets every enabled watch whose ID agrees under MASK. A detected error writes an ERROR entry with its LEC, and in LISTEN and RESTRICTED the controller then waits. RRD moves up to RWR at most and returns a credit an entry; any other write is ignored with RRD_REFUSED. An enabled watch that is not met for TMO ms sets its bit and NODE_LOST. A read of CAN_CNT clears what events of earlier FRC counts have counted. (A CAN FD frame with FDEN clear is not received, the model's choice.) -/
def Obligations.CanFramesFillTheRing : Prop :=
  (∀ k f sof s, s.canOn k = true → (s.canC k).waits11 = false → s.canMode k = 0 → (s.canC k).rec_ = 0 →
    bit f.flags 1 = false ∨ s.flag .CAN_CFG 4 k = true → Tbl.get false s.now.cans k = false →
    (s.canUnread k < 256 → 0 < s.avail 12 k → Runs (.canFrameRx k f sof) s fun t =>
      t.rg .CAN_RWR k = (s.rg .CAN_RWR k + 1) % 2 ^ 32 ∧ t.flag .CAN_STAT 0 k = true ∧
      memGet t.mem (canRing k (s.rg .CAN_RWR k % 256)) 64 =
        (f.data.take (canLen f.flags f.dlc) ++ List.replicate 64 0).take 64 ∧ t.out = s.out ++ [.canAck k] ∧
      ofLe (memGet t.mem (canRing k (s.rg .CAN_RWR k % 256) + 76) 4) = f.idw % 2 ^ 32 ∧
      memByte t.mem (canRing k (s.rg .CAN_RWR k % 256) + 81) = BitVec.ofNat 8 f.dlc ∧
      Tbl.get 0 t.crd.used (crdKey 12 k) = Tbl.get 0 s.crd.used (crdKey 12 k) + 1) ∧
    (256 ≤ s.canUnread k → Runs (.canFrameRx k f sof) s fun t => t.mem = s.mem ∧ t.rg .CAN_RWR k = s.rg .CAN_RWR k ∧
      t.flag .CAN_STAT 6 k = true ∧ t.flag .QCR_EXH 12 = true ∧ (t.canC k).loss = true ∧
      Tbl.get 0 t.crd.drops (crdKey 12 k) = satInc 32 (Tbl.get 0 s.crd.drops (crdKey 12 k))) ∧
    (∀ m, m < 16 → s.flag .CAN_NODE 63 k m = true →
      (∀ b, b < 29 → s.flag .CAN_NODE (32 + b) k m = true → s.flag .CAN_NODE b k m = bit f.idw b) →
      Runs (.canFrameRx k f sof) s fun t => Tbl.get 0 (t.canC k).watch m = s.frc ∧ t.flag .CAN_NODESTAT m k = false)) ∧
  (∀ k l own b s, s.canOn k = true → (s.canC k).waits11 = false → s.canUnread k < 256 → 0 < s.avail 12 k → s.canMode k ≠ 0 → l < 8 →
    Runs (.canError k l own b) s fun t => t.rg .CAN_RWR k = (s.rg .CAN_RWR k + 1) % 2 ^ 32 ∧
      t.flag .CAN_STAT 1 k = true ∧ (t.canC k).waits11 = true ∧ (t.canC k).tec = (s.canC k).tec ∧
      (t.canC k).rec_ = (s.canC k).rec_ ∧
      bit (memByte t.mem (canRing k (s.rg .CAN_RWR k % 256) + 80)).toNat 6 = true ∧
      memByte t.mem (canRing k (s.rg .CAN_RWR k % 256) + 81) = BitVec.ofNat 8 l) ∧
  (∀ k v s, k < 4 → v < 2 ^ 32 →
    let n := (v + 2 ^ 32 - s.rg .CAN_RRD k) % 2 ^ 32
    (n ≤ s.canUnread k → n ≤ 256 → Runs (.rrdWrite k v) s fun t => t.rg .CAN_RRD k = v ∧ t.mem = s.mem ∧
      Tbl.get 0 t.crd.used (crdKey 12 k) = Tbl.get 0 s.crd.used (crdKey 12 k) - n) ∧
    (s.canUnread k < n → exec (.rrdWrite k v) s = .next (s.setFlag .CAN_STAT 7 k))) ∧
  (∀ k m s, k < 4 → m < 16 → s.flag .CAN_NODE 63 k m = true → s.flag .CAN_NODESTAT m k = false → s.domOn 11 = true →
    Tbl.get 0 (s.canC k).watch m + max 1 (s.fld .CAN_NODETMO 15 0 k m) * 1000000 < s.frc →
    Runs (.nodeWatchTimeout k m) s fun t => t.flag .CAN_NODESTAT m k = true ∧ t.flag .CAN_STAT 8 k = true ∧
      t.can = s.can) ∧
  (∀ q k j s, k < 4 → j < 5 → s.rg .CAN_CNT k j < 2 ^ 32 → Runs (.canCntRead q k j) s fun t =>
    (t.port q).data = BitVec.ofNat 32 (s.rg .CAN_CNT k j - s.countedNow .CAN_CNT k j) ∧
    t.rg .CAN_CNT k j = s.countedNow .CAN_CNT k j ∧ t.can = s.can)

/-- A request on a free buffer pends, is ignored on a pending one and refused with TX_REFUSED in LISTEN. A cancel of a pending buffer that is not on the bus completes it CANCELLED; one of the frame on the bus is held. The frame offered at a start of arbitration leaves as its buffer holds it and ends SENT, with CANCEL_LATE if a cancel was held; a lost arbitration completes a one-shot frame LOST, a cancelled one CANCELLED, and leaves any other pending; an error other than an acknowledgement error adds 8 to TEC and completes a one-shot frame ERROR; one whose TEC exceeds 255 takes the controller off the bus. An acknowledgement error of an error-passive controller leaves TEC, as does a stuff error in arbitration (ISO 11898-1). INIT set with no frame on the bus acts at once, during a frame at its end; the controller leaves INIT only with valid timing, else CFG_REFUSED is set. A stuck bus stops transmission until 11 recessive bits. Bus-off recovery that has begun clears both counters. -/
def Obligations.CanTransmitsAndRecovers : Prop :=
  (∀ k b s, k < 4 → b < 8 →
    (((s.canC k).buf b).pend = none → s.canMode k ≠ 1 → Runs (.canTxReq k (2 ^ b)) s fun t =>
      ((t.canC k).buf b).pend = some s.frc ∧ t.rg .CAN_TXSTAT k b = 1 ∧ t.mem = s.mem ∧
      ∀ b', b' ≠ b → (t.canC k).buf b' = (s.canC k).buf b') ∧
    (((s.canC k).buf b).pend = none → s.canMode k = 1 → exec (.canTxReq k (2 ^ b)) s = .next (s.setFlag .CAN_STAT 5 k)) ∧
    (((s.canC k).buf b).pend ≠ none → exec (.canTxReq k (2 ^ b)) s = .next s) ∧
    (((s.canC k).buf b).pend ≠ none → ((s.canC k).buf b).owner = none → Runs (.canTxCancel k (2 ^ b) none) s fun t =>
      t.rg .CAN_TXSTAT k b = 3 ∧ (t.canC k).buf b = {} ∧ t.flag .CAN_STAT 4 k = true) ∧
    (∀ f, s.canOffer k f = some b → ((s.canC k).buf b).pend ≠ none → Runs (.canTxCancel k (2 ^ b) (some f)) s fun t =>
      (t.canC k).buf b = { (s.canC k).buf b with cancel := true } ∧ t.rf = s.rf)) ∧
  (∀ k sof tdc s b, s.canSends k = true → s.canOffer k sof = some b →
    (((s.canC k).buf b).owner = none → Runs (.canTxComplete k sof false tdc) s fun t =>
      t.rg .CAN_TXSTAT k b = 2 + 256 * b2n ((s.canC k).buf b).cancel ∧ (t.canC k).buf b = {} ∧
      t.flag .CAN_STAT 4 k = true ∧ (t.canC k).tec = (s.canC k).tec - 1 ∧
      t.out = s.out ++ [.canFrame k
        { idw := s.canBufIdw k b, flags := s.canSendFlags k b % 16, dlc := s.canBufDlc k b
          data := memGet s.mem (canBuffer k b) (canLen (s.canSendFlags k b) (s.canBufDlc k b)) }]) ∧
    (((s.canC k).buf b).owner = none → ((s.canC k).buf b).cancel = true → Runs (.canTxComplete k sof true tdc) s fun t =>
      t.rg .CAN_TXSTAT k b = 3 ∧ (t.canC k).buf b = {}) ∧
    (((s.canC k).buf b).owner = none → ((s.canC k).buf b).cancel = false → bit (s.canSendFlags k b) 7 = true →
      Runs (.canTxComplete k sof true tdc) s fun t => t.rg .CAN_TXSTAT k b = 4 ∧ (t.canC k).buf b = {}) ∧
    (((s.canC k).buf b).cancel = false → bit (s.canSendFlags k b) 7 = false →
      exec (.canTxComplete k sof true tdc) s = .next s) ∧
    (∀ l m, l < 8 → l ≠ 3 → ((s.canC k).buf b).owner = none → Runs (.canError k l (some { sof := sof }) m) s fun t =>
      t.out = s.out ++ [.canErrorFrame k (s.canC k).passive] ∧
      (t.canC k).tec = (s.canC k).tec + 8 ∧ (247 < (s.canC k).tec → (t.canC k).busOff = true) ∧
      (((s.canC k).buf b).cancel = false → bit (s.canBufFlags k b) 7 = true → t.rg .CAN_TXSTAT k b = 5 + 32 * l) ∧
      (((s.canC k).buf b).cancel = false → bit (s.canBufFlags k b) 7 = false →
        ((t.canC k).buf b).pend = ((s.canC k).buf b).pend)) ∧
    (∀ m, 127 < (s.canC k).tec → (s.canC k).tec ≤ 255 → ((s.canC k).buf b).owner = none → 
      Runs (.canError k 3 (some { sof := sof }) m) s fun t =>
      (t.canC k).tec = (s.canC k).tec ∧ (t.canC k).busOff = false ∧
      t.rg .CAN_CNT k 2 = satInc 32 (s.rg .CAN_CNT k 2)) ∧
    (∀ m, (s.canC k).tec ≤ 255 → ((s.canC k).buf b).owner = none → Runs (.canError k 1 (some { sof := sof, arb := true }) m) s fun t =>
      (t.canC k).tec = (s.canC k).tec ∧ (t.canC k).busOff = false)) ∧
  (∀ k s, k < 4 →
    (Runs (.initSet k false) s fun t => (t.canC k).init = true ∧ t.flag .CAN_CFG 0 k = true) ∧
    (s.canOn k = true → Runs (.initSet k true) s fun t => (t.canC k).init = false ∧ (t.canC k).initWaits = true ∧
      t.flag .CAN_CFG 0 k = true) ∧
    (s.canTimingOk k = true → Runs (.initClear k) s fun t => (t.canC k).init = false ∧ t.flag .CAN_CFG 0 k = false) ∧
    (s.canTimingOk k = false → exec (.initClear k) s = .next (s.setFlag .CAN_STAT 2 k)) ∧
    (s.flag .CAN_CFG 1 k = true → s.domOn 11 = true → Runs (.stuckDominant k) s fun t =>
      t.flag .CAN_STAT 9 k = true ∧ t.canSends k = false) ∧
    (Runs (.stuckDominantRelease k) s fun t => (t.canC k).stuck = false ∧ (t.canC k).waits11 = false ∧ t.rf = s.rf)) ∧
  (∀ k s, (s.canC k).busOff = true → (s.canC k).recovers = true → (s.canC k).init = false →
    Runs (.busOffRecovery k) s fun t => (t.canC k).busOff = false ∧ (t.canC k).tec = 0 ∧ (t.canC k).rec_ = 0 ∧
      t.flag .CAN_STAT 3 k = true)

/-- Converter commands change the converters, the ADC block of registers, what a reader holds, Walnut (its queue and block) and, at a fire, the waiting edges, and nothing else. CAN commands change the controllers, their block of registers, credits and their flags, what is sent, Walnut and Almond; a received frame or an error writes only the bytes of its ring entry, a completed own frame those of its entry and the stamp of its buffer; the others write no byte. No other register, tenant or memory byte changes, save the mailbox that a tenant's own request completes to. -/
def Obligations.ConverterAndCanFrame : Prop :=
  (let upd (s t : State) : State := { s with
     adc := t.adc, rf := t.rf, evr := t.evr, bus := t.bus, edges := t.edges, freeN := t.freeN }
   ∀ k c g o q i, k < 2 → i < 16 → Leaves (.adcScan k) [18] upd ∧ Leaves (.adcInject k) [18] upd ∧ Leaves (.adcCal k) [18, 64] upd ∧
     Leaves (.adcStop k) [18] upd ∧ Leaves (.converterFire k) [18] upd ∧ Leaves (.conversionDone k c) [18] upd ∧
     Leaves (.calibrationDone k g o) [18] upd ∧ Leaves (.converterDisable k) [18] upd ∧ Leaves (.adcResRead q i) [18] upd ∧
     Leaves (.adcEvRead q k) [18] upd ∧ Leaves .referenceSettled [18] upd ∧ ∀ b, Leaves (.referenceEnable b) [18] upd) ∧
  (let upd (s t : State) : State := { s with
     can := t.can, rf := t.rf, mem := t.mem, crd := t.crd, evr := t.evr, bus := t.bus, freeN := t.freeN, out := t.out }
   (∀ k f sof w, k < 4 → ∀ s, s.rg .CAN_RWR k = w → Runs (.canFrameRx k f sof) s fun t =>
     t = { upd s t with now := t.now } ∧ RegsKept [20, 21, 22, 23, 30, 64] s t ∧
     ∀ a, a < canRing k (w % 256) ∨ canRing k (w % 256) + 96 ≤ a → memByte t.mem a = memByte s.mem a) ∧
   (∀ k q j v m, k < 4 → j < 5 → m < 16 → Leaves (.rrdWrite k v) [20, 21, 22, 23] upd ∧
     Leaves (.nodeWatchTimeout k m) [20, 21, 22, 23, 64] upd ∧ Leaves (.canTxReq k v) [20, 21, 22, 23] upd ∧
     Leaves (.stuckDominant k) [20, 21, 22, 23] upd ∧ Leaves (.stuckDominantRelease k) [] upd ∧
     Leaves (.busOffRecovery k) [20, 21, 22, 23] upd ∧ Leaves (.initClear k) [20, 21, 22, 23] upd ∧
     Leaves (.canCntRead q k j) [20, 21, 22, 23] upd ∧ ∀ b, Leaves (.initSet k b) [20, 21, 22, 23] upd) ∧
   ∀ k sof tdc w b, ∀ s, s.canOffer k sof = some b → ((s.canC k).buf b).owner = none → s.rg .CAN_RWR k = w → k < 4 →
     Runs (.canTxComplete k sof false tdc) s fun t =>
     t = { upd s t with now := t.now } ∧ RegsKept [20, 21, 22, 23, 30, 64] s t ∧
     ∀ a, (a < canRing k (w % 256) ∨ canRing k (w % 256) + 96 ≤ a) → (a < canBuffer k b + 64 ∨ canBuffer k b + 73 ≤ a) →
       memByte t.mem a = memByte s.mem a)

/-- For an enabled tenant with no command in progress or held, given by the supervisor or through its own link: START in OUT ends IN with OK; FREEZE in IN of a tenant whose element sits or runs begins a freeze; BLOCKED where the element is BLOCKED; a freeze that lasts 1 s ends with TIMEOUT, still IN (one that waits for an online change is not applied yet); RESUME in FROZEN ends IN; SAVE in FROZEN begins, or ends with SIZE or KEY; RESTORE begins in OUT and FROZEN; RELEASE of a host ends OK while the element is BLOCKED, waits in a window and ends with STATE elsewhere (of the supervisor too, the model's choice); RESET of a tenant not OUT takes it to DRAIN under the next generation, which steps from 0xFFFF to 1, and changes no other tenant. A command during another ends BUSY and changes no service state; a START during a commit or drain is held. Once drained a tenant without a waiting commit or held command is OUT with its credits restored. SAVE_DONE hands out the snapshot; RESTORE_DONE ends IN where the checks of R347 pass, else with their first result and nothing restored. -/
def Obligations.TenantCommandsFollowServiceStates : Prop :=
  let ends (n code result : Nat) (t : State) : Prop :=
    (t.tenant n).lastCmd = code ∧ (t.tenant n).result = result ∧ t.flag .TEN_ALERT 5 n = true
  (∀ n via s, n < 4096 → s.viaOk n via = true → (s.tenant n).cfg ≠ none →
    ((s.tenant n).cmd = none → (s.tenant n).held = none → (s.tenant n).commit = false →
      ((s.tenant n).svc = .out → Runs (.start n via) s fun t => ends n 1 0 t ∧ (t.tenant n).svc = .in_ ∧
        (t.tenant n).gen = (s.tenant n).gen ∧ (t.tenant n).cmd = none) ∧
      ((s.tenant n).svc = .in_ ∨ (s.tenant n).svc = .frozen → Runs (.start n via) s fun t => ends n 1 2 t ∧
        (t.tenant n).svc = (s.tenant n).svc) ∧
      ((s.tenant n).svc = .out ∨ (s.tenant n).svc = .frozen → Runs (.restore n via) s fun t =>
        ((t.tenant n).cmd.map (·.code)) = some 6 ∧ (t.tenant n).svc = (s.tenant n).svc ∧ t.rf = s.rf)) ∧
    ((s.tenant n).cmd = none → (s.tenant n).held = none → (s.elaT n).pendBlock = false →
      ((s.tenant n).svc = .in_ → (s.elaT n).st = .seat ∨ (s.elaT n).st = .run → Runs (.freeze n via) s fun t =>
        (t.tenant n).freezing = some s.frc ∧ (t.tenant n).svc = .in_ ∧
        (t.elaT n).pendFreeze = ((s.elaT n).pendFreeze || !s.chgWaits n) ∧ ((t.tenant n).cmd.map (·.code)) = some 3) ∧
      ((s.elaT n).st = .blocked → Runs (.freeze n via) s (ends n 3 3)) ∧
      (via ≠ none → (s.elaT n).st = .blocked → Runs (.release n via) s fun t => ends n 7 0 t ∧ (t.elaT n).st = .seat) ∧
      (via ≠ none → (s.elaT n).st ≠ .blocked → (s.elaT n).window ≠ none → Runs (.release n via) s fun t =>
        (t.elaT n).pendRelease = true ∧ ((t.tenant n).cmd.map (·.code)) = some 7) ∧
      (via = none ∨ (s.elaT n).st ≠ .blocked ∧ (s.elaT n).window = none → Runs (.release n via) s fun t =>
        ends n 7 2 t ∧ t.ela = s.ela) ∧
      ((s.tenant n).svc = .frozen → Runs (.resume n via) s fun t => ends n 4 0 t ∧ (t.tenant n).svc = .in_ ∧
        (t.tenant n).gen = (s.tenant n).gen) ∧
      ((s.tenant n).svc ≠ .frozen → Runs (.resume n via) s (ends n 4 2) ∧ Runs (.save n via) s (ends n 5 2)) ∧
      ((s.tenant n).svc = .frozen →
        let len := (s.snapOf n (s.snapSlot n) 0 false (s.tenant n).saved (s.tenant n).savedCycle).1.length
        (s.snapLen n < len → Runs (.save n via) s (ends n 5 10)) ∧
        (len ≤ s.snapLen n → s.snapKey (s.snapSlot n) n = none → Runs (.save n via) s (ends n 5 11)) ∧
        (len ≤ s.snapLen n → s.snapKey (s.snapSlot n) n ≠ none → Runs (.save n via) s fun t =>
          ((t.tenant n).cmd.map (·.code)) = some 5 ∧ (t.tenant n).svc = .frozen))) ∧
    ((s.tenant n).cmd = none → (s.tenant n).held = none → (s.tenant n).freezing = none → (s.tenant n).svc ≠ .out → Runs (.reset n via) s fun t =>
      (t.tenant n).svc = .drain ∧ (t.tenant n).drained = false ∧
      (t.tenant n).gen = (if (s.tenant n).gen = 0xFFFF then 1 else (s.tenant n).gen + 1) ∧
      (t.elaT n).st = .out ∧ (t.schT n).st = .idle ∧ (t.schT n).forces = [] ∧ t.pts = s.pts ∧
      t.mailbox n = {} ∧ ((t.tenant n).cmd.map (·.code)) = some 2 ∧
      ∀ m, m ≠ n → t.tenant m = s.tenant m ∧ t.elaT m = s.elaT m ∧
        ((s.schT m).core ≠ (s.schT n).core → t.schT m = s.schT m)) ∧
    ((s.tenant n).cmd ≠ none → (s.tenant n).svc ≠ .drain → (s.tenant n).commit = false →
      ∀ c ∈ [(Instr.start n via, 1), (.freeze n via, 3), (.resume n via, 4), (.save n via, 5), (.restore n via, 6), (.release n via, 7)],
        Runs c.1 s fun t => ends n c.2 1 t ∧ (t.tenant n).svc = (s.tenant n).svc ∧ (t.tenant n).cmd = (s.tenant n).cmd) ∧
    ((s.tenant n).svc = .drain ∨ (s.tenant n).commit = true → (s.tenant n).held = none →
      Runs (.start n via) s fun t => ((t.tenant n).held.map (·.code)) = some 1 ∧ (t.tenant n).svc = (s.tenant n).svc ∧
        t.rf = s.rf)) ∧
  (∀ n s f, n < 4096 → (s.tenant n).freezing = some f → f + 1000000000 ≤ s.frc → s.chgWaits n = false → Runs (.freezeTimeout n) s fun t =>
    ends n 3 4 t ∧ (t.tenant n).freezing = none ∧ (t.tenant n).svc = (s.tenant n).svc) ∧
  (∀ n s, n < 4096 → (s.tenant n).svc = .drain → (s.tenant n).held = none → (∀ k, k < 4 → (s.amdSlot k).waits = false) →
    Runs (.tenantDrainComplete n) s fun t => (t.tenant n).svc = .out ∧ (t.tenant n).drained = true ∧
      (t.tenant n).gen = (s.tenant n).gen ∧
      ∀ b ∈ [6, 7, 8, 9, 10, 11, 14, 15], Tbl.get 0 t.crd.used (crdKey b n) = 0) ∧
  (∀ n s k, n < 4096 → s.running_ n 5 = true → s.snapKey (s.snapSlot n) n = some k →
    (Runs (.saveDone n true) s fun t => ends n 5 0 t ∧ t.rg .TEN_CNT n 11 = satInc 32 (s.rg .TEN_CNT n 11) ∧
      ∃ x, x.key = k ∧ x.tenant = n ∧ Out.snapshot (s.cmdFn n).1 (s.cmdFn n).2 n (s.rg .TEN_SNAPADDR n / 64 * 64) x.header x ∈ t.out) ∧
    Runs (.saveDone n false) s fun t => ends n 5 5 t ∧ t.rg .TEN_CNT n 6 = satInc 32 (s.rg .TEN_CNT n 6)) ∧
  (∀ n s x, n < 4096 → s.running_ n 6 = true →
    (s.restoreCheck n x = 0 → Runs (.restoreDone n (some x)) s fun t => ends n 6 0 t ∧ (t.tenant n).svc = .in_ ∧
      (t.tenant n).gen = (s.tenant n).gen) ∧
    (s.restoreCheck n x ≠ 0 → Runs (.restoreDone n (some x)) s fun t => ends n 6 (s.restoreCheck n x) t ∧
      (t.tenant n).svc = (s.tenant n).svc ∧ t.pts = s.pts ∧ t.sch = s.sch ∧ t.ela = s.ela ∧ t.goose = s.goose) ∧
    (Runs (.restoreDone n none) s fun t => ends n 6 5 t ∧ t.pts = s.pts ∧ t.sch = s.sch ∧ t.ela = s.ela)) ∧
  (∀ q n k s, n < 4096 → k < 16 → s.rg .TEN_CNT n k < 2 ^ 32 → Runs (.tenCntRead q n k) s fun t =>
    t.rg .TEN_CNT n k = s.countedNow .TEN_CNT n k ∧ t.ten = s.ten ∧
    (t.port q).data = BitVec.ofNat 32 (s.rg .TEN_CNT n k - s.countedNow .TEN_CNT n k)) ∧
  (∀ n via s, n < 4096 → s.viaOk n via = true → badHandle (s.rg .TEN_PTHANDLE n) = false →
    (s.canPoint n (s.rg .TEN_PTHANDLE n) false = true → Runs (.tenPtRead n via) s fun t =>
      t.rg .TEN_PTDATA n = (s.point (s.rg .TEN_PTHANDLE n)).word % 2 ^ 64 ∧ t.pts = s.pts) ∧
    (s.canPoint n (s.rg .TEN_PTHANDLE n) false = false → Runs (.tenPtRead n via) s fun t =>
      t.rg .TEN_PTDATA n = ({} : Point).word ∧ t.flag .TEN_PTSTAT 0 n = true ∧ t.rg .TEN_CNT n 8 = satInc 32 (s.rg .TEN_CNT n 8)) ∧
    (s.canPoint n (s.rg .TEN_PTHANDLE n) true = true → s.pntQ = [] → Tbl.get 0 s.now.pts (s.rg .TEN_PTHANDLE n) ≤ 2 →
      Runs (.tenPtWrite n via) s fun t => t.point (s.rg .TEN_PTHANDLE n) =
        Point.kept { pointOf (s.rg .TEN_PTDATA n) (s.rg .TEN_PTTIME n) 0 with info := if via.isSome then 10 else 13 }) ∧
    (s.canPoint n (s.rg .TEN_PTHANDLE n) true = false → s.pntQ = [] → Runs (.tenPtWrite n via) s fun t => t.pts = s.pts ∧
      t.flag .TEN_PTSTAT 0 n = true ∧ t.rg .TEN_CNT n 8 = satInc 32 (s.rg .TEN_CNT n 8)))

/-- A doorbell in the cycle of its tenant's reset is not read; any other takes its slot's message while held items and unanswered requests number fewer than 16, else the slot stays full. A held reply goes to the lowest free device-to-host slot, sets its bit and raises vector 0; freeing a slot clears its bit. A request that has waited 450 ms is answered TIMEOUT. While the firmware runs, the oldest request gets its reply: STALE under another generation and no effect; BADOP for an unknown OP; INFO its bytes; FORCE_SET binds a value (STATE where the type differs, RIGHTS for another tenant's point); FORCE_CLEAR of 0xFFFF_FFFF removes all forces; FORCE_LIST returns up to four; SCH_CMD STOP stops a running program, START_WARM and START_COLD run a stopped one; CHG_STAGE and CHG_COMMIT are ACCEPTED, CHG_DISCARD drops a staged change; CAN_SEND requests a free buffer, or answers RIGHTS; TIME answers; ATTEST queues a request, BUSY at four; AMD_STAGE takes a free slot for a tenant of the link, else RIGHTS; AMD_COMMIT answers STATE unless the slot is STAGED; AMD_DISCARD empties a staged slot. -/
def Obligations.MailboxesServeMessages : Prop :=
  let asks (w op len : Nat) (s : State) (r : MbxReq) (rest : List MbxReq) : Prop :=
    s.pwr.supRuns = true ∧ (s.mailbox w).late = [] ∧ (s.mailbox w).taken = r :: rest ∧ r.msg.op = op ∧
    r.msg.gen = s.windowGen w ∧ r.msg.len = len
  let replied (w : Nat) (s : State) (r : MbxReq) (rest : List MbxReq) (status : Nat) (payload : List Byte) (t : State) : Prop :=
    (t.mailbox w).taken = rest ∧ ∃ i ∈ (t.mailbox w).held, i.reply = true ∧ i.msg.op = r.msg.op ∧ i.msg.status = status ∧
      i.msg.tag = r.msg.tag ∧ i.msg.gen = s.windowGen w ∧ i.msg.len = payload.length ∧ i.msg.payload = payload
  (∀ w k s, w < 4160 → k < 8 → s.flag .MBX_H2D_DB k w = false → (s.mailbox w).order = [] →
    (Tbl.get false s.now.resets w = true → exec (.doorbell w (2 ^ k)) s = .next s) ∧
    (Tbl.get false s.now.resets w = false → s.mbxHeld w + (s.mailbox w).taken.length < 16 → Runs (.doorbell w (2 ^ k)) s fun t =>
      (t.mailbox w).taken = (s.mailbox w).taken ++ [{ msg := mbxParse (memGet s.mem (h2dSlot w k) 64), at_ := s.frc }] ∧
      t.flag .MBX_H2D_DB k w = false ∧ t.mem = s.mem) ∧
    (Tbl.get false s.now.resets w = false → 16 ≤ s.mbxHeld w + (s.mailbox w).taken.length → Runs (.doorbell w (2 ^ k)) s fun t =>
      (t.mailbox w).taken = (s.mailbox w).taken ∧ (t.mailbox w).order = [(k, s.frc)] ∧ t.flag .MBX_H2D_DB k w = true)) ∧
  (∀ w k i s, w < 4160 → k < 8 → (s.mailbox w).held = [i] → (s.mailbox w).taken = [] → (s.mailbox w).late = [] →
    (s.mailbox w).order = [] → s.flag .MBX_D2H_DB k w = false → (∀ j, j < k → s.flag .MBX_D2H_DB j w = true) →
    Runs (.mailboxReply w) s fun t => (t.mailbox w).held = [] ∧ t.flag .MBX_D2H_DB k w = true ∧
      memGet t.mem (d2hSlot w k) 64 = i.msg.slotBytes ∧ Out.msix (s.windowFn w).1 (s.windowFn w).2 0 ∈ t.out) ∧
  (∀ w m b s, w < 4160 → b < 8 → (s.mailbox w).held = [] → (s.mailbox w).order = [] → Runs (.d2hSlotFree w m) s fun t =>
    t.flag .MBX_D2H_DB b w = (s.flag .MBX_D2H_DB b w && !bit m b) ∧ t.mailbox w = s.mailbox w) ∧
  (∀ w r rest s, w < 4160 → (s.mailbox w).taken = r :: rest → r.at_ + 450000000 ≤ s.frc → Runs (.mailboxTimeout w) s fun t =>
    replied w s r rest 8 [] t ∧ (t.mailbox w).late = (s.mailbox w).late ++ [r] ∧ t.flag .MBX_STAT 0 w = true) ∧
  (∀ n r rest s, n < 4096 → s.pwr.supRuns = true → (s.mailbox n).late = [] → (s.mailbox n).taken = r :: rest →
    r.msg.gen ≠ (s.tenant n).gen → ∀ c ∈ [(Instr.info n, 0x01), (.forceSet n, 0x10), (.forceClear n, 0x11),
      (.forceList n, 0x12), (.schCmd n, 0x14), (.mbxChgCommit n, 0x19), (.mbxChgDiscard n, 0x1A), (.canSend n, 0x20), (.time n, 0x24)],
    r.msg.op = c.2 → Runs c.1 s fun t => replied n s r rest 4 [] t ∧ t.sch = s.sch ∧ t.can = s.can ∧
      t.rg .TEN_CNT n 1 = satInc 32 (s.rg .TEN_CNT n 1)) ∧
  (∀ n r rest s, n < 4096 → asks n r.msg.op r.msg.len s r rest → r.msg.op ∉ mbxOps n → (s.mailbox n).held = [] →
    (s.mailbox n).order = [] → (∀ k, k < 8 → s.flag .MBX_D2H_DB k n = true) → Runs (.mailboxReply n) s (replied n s r rest 2 [])) ∧
  (∀ n r rest s, n < 4096 → asks n 0x01 0 s r rest → Runs (.info n) s fun t => replied n s r rest 0 (s.infoBytes n) t ∧
    t.sch = s.sch ∧ t.pts = s.pts) ∧
  (∀ n r rest s h ty v, n < 4096 → asks n 0x10 12 s r rest → h = fieldAt (r.msg.payload.take 12) 0 4 →
    ty = fieldAt (r.msg.payload.take 12) 4 4 → v = fieldAt (r.msg.payload.take 12) 8 4 →
    (h / 8192 = n → (s.schT n).prog ≠ none → (s.point h).type = ty → (s.schT n).forces.length < 256 →
      Runs (.forceSet n) s fun t => replied n s r rest 0 [] t ∧ { handle := h, type := ty, value := v } ∈ (t.schT n).forces) ∧
    (h / 8192 = n → (s.point h).type ≠ ty → Runs (.forceSet n) s fun t => replied n s r rest 6 [] t ∧ t.sch = s.sch) ∧
    (h / 8192 ≠ n → Runs (.forceSet n) s fun t => replied n s r rest 5 [] t ∧ t.sch = s.sch)) ∧
  (∀ n r rest s, n < 4096 → asks n 0x11 4 s r rest → fieldAt (r.msg.payload.take 4) 0 4 = 2 ^ 32 - 1 →
    Runs (.forceClear n) s fun t => replied n s r rest 0 [] t ∧ (t.schT n).forces = []) ∧
  (∀ n r rest s, n < 4096 → asks n 0x12 4 s r rest → Runs (.forceList n) s fun t =>
    replied n s r rest 0 ((((s.schT n).forces.drop (fieldAt (r.msg.payload.take 4) 0 4)).take 4).flatMap
      fun (f : Force) => leBytes 4 f.handle ++ leBytes 4 f.type ++ leBytes 4 f.value) t ∧ t.sch = s.sch) ∧
  (∀ n r rest s, n < 4096 → asks n 0x14 4 s r rest →
    (fieldAt (r.msg.payload.take 4) 0 4 = 3 → (s.schT n).st = .run → Runs (.schCmd n) s fun t =>
      replied n s r rest 0 [] t ∧ (t.schT n).st = .stop) ∧
    (fieldAt (r.msg.payload.take 4) 0 4 = 2 → (s.schT n).st = .stop → (s.schT n).prog ≠ none → Runs (.schCmd n) s fun t =>
      replied n s r rest 0 [] t ∧ (t.schT n).st = .run) ∧
    (fieldAt (r.msg.payload.take 4) 0 4 = 1 → (s.schT n).st ≠ .stop → Runs (.schCmd n) s fun t =>
      replied n s r rest 6 [] t ∧ t.sch = s.sch)) ∧
  (∀ n r rest s g, n < 4096 → asks n 0x18 20 s r rest → (s.schT n).prog ≠ none → (s.schT n).chg.st = .empty →
    Runs (.mbxChgStage n (some g)) s fun t => replied n s r rest 1 [] t ∧ (t.schT n).chg.st = .verifying ∧
      (t.schT n).chg.pkg = some g) ∧
  (∀ n r rest s, n < 4096 → asks n 0x19 0 s r rest → (s.schT n).chg.st = .staged → (s.schT n).st = .run →
    (∀ g, (s.schT n).chg.pkg = some g → s.jrnlRoom g.size = true) →
    Runs (.mbxChgCommit n) s fun t => replied n s r rest 1 [] t ∧ (t.schT n).chg.st = .waiting) ∧
  (∀ n r rest s, n < 4096 → asks n 0x1A 0 s r rest → (s.schT n).chg.st = .staged →
    Runs (.mbxChgDiscard n) s fun t => replied n s r rest 1 [] t ∧ (t.schT n).chg = {}) ∧
  (∀ n r rest s c k b, n < 4096 → asks n 0x20 32 s r rest → s.tenCfg n = some c →
    k = fieldAt (r.msg.payload.take 32) 0 1 → k < 4 →
    (bit c.canRights k = false → Runs (.canSend n) s fun t => replied n s r rest 5 [] t ∧ t.can = s.can) ∧
    (bit c.canRights k = true → s.canFree k = some b → s.canMode k ≠ 1 → Runs (.canSend n) s fun t =>
      replied n s r rest 1 [] t ∧ ((t.canC k).buf b).pend = some s.frc)) ∧
  (∀ n r rest s, n < 4096 → asks n 0x24 0 s r rest → Runs (.time n) s fun t => replied n s r rest 0
    (leBytes 4 (syncCode s.tb.sync) ++ leBytes 4 (s.rg .GPB_UTCOFS) ++ leBytes 8 (s.rg .TMB_LASTSTEP)) t ∧ t.tb = s.tb) ∧
  (∀ h r rest s, h < 4 → asks (linkWindow h) 0x44 40 s r rest →
    (s.att.queue.length < 4 → Runs (.attest h) s fun t => replied (linkWindow h) s r rest 1 [] t ∧
      (t.att.queue.map (·.nonce)) = s.att.queue.map (·.nonce) ++ [(r.msg.payload.take 40).take 32]) ∧
    (4 ≤ s.att.queue.length → Runs (.attest h) s fun t => replied (linkWindow h) s r rest 7 [] t ∧ t.att = s.att)) ∧
  (∀ h r rest s x, h < 4 → asks (linkWindow h) 0x40 12 s r rest → s.linkHas h (amdTenant x.obj.bytes) = false →
    Runs (.amdStage h (some x)) s fun t => replied (linkWindow h) s r rest 5 [] t ∧ t.amd = s.amd) ∧
  (∀ h r rest s x k, h < 4 → asks (linkWindow h) 0x40 12 s r rest → s.linkHas h (amdTenant x.obj.bytes) = true →
    ((List.range 4).find? fun k => (s.amdSlot k).free) = some k → Runs (.amdStage h (some x)) s fun t =>
    replied (linkWindow h) s r rest 1 [] t ∧ (t.amdSlot k).st = .verifying) ∧
  (∀ h r rest s k, h < 4 → k < 4 → asks (linkWindow h) 0x41 8 s r rest → fieldAt (r.msg.payload.take 8) 0 4 = k →
    ((s.amdSlot k).st ≠ .staged → Runs (.amdCommit h) s fun t => replied (linkWindow h) s r rest 6 [] t ∧ t.amd = s.amd) ∧
    ((s.amdSlot k).st = .staged → s.linkHas h (s.amdSlot k).tenant = true → (s.amdSlot k).tenant < 4096 →
      Runs (.amdCommit h) s (replied (linkWindow h) s r rest 1 []))) ∧
  (∀ h r rest s k, h < 4 → k < 4 → asks (linkWindow h) 0x42 4 s r rest → fieldAt (r.msg.payload.take 4) 0 4 = k →
    (s.amdSlot k).st = .staged → s.linkHas h (s.amdSlot k).tenant = true → Runs (.amdDiscard h) s fun t =>
    replied (linkWindow h) s r rest 0 [] t ∧ (t.amdSlot k).st = .empty)

/-- A tail write on an enabled queue pair posts within the ring's capacity while the tenant holds a boundary-14 credit or held one as the FRC count began, else it only counts in POST_REFUSED; a head write frees entries; clearing EN clears ERROR. A fetch takes a credit and moves SQHEAD. With room in the completion ring the oldest fetched descriptor is carried out and completes under its TAG, the generation at its fetch and the present phase, returning its credit: PT_READ of one readable point writes its record to the host, an unreadable one completes RIGHTS with an unused point; PT_WRITE writes a point under the rights; RING_READ of a stream that is not consumed, CAP_READ of another tenant's unit and CAN_SEND without rights complete RIGHTS; NOP completes OK, an unknown OP BADOP. One of an older generation is discarded, counted in STALE_CPL, and returns no credit. RX_BUF posts its buffer, a frame of its class is delivered into it, tagged for its virtual port; TX_FRAME of a source address that is not its link's counts in SA_DROP. A DMA error completes with DMA and stops the pair. A Function Level Reset clears the window's queue pairs and mailbox, ends a SAVE or RESTORE with DMA and changes nothing else of the tenant; a link loss does so for every function. -/
def Obligations.QueuePairsServeDescriptors : Prop :=
  let front (w q n : Nat) (s : State) (f : Fetched) (rest : List Fetched) : Prop :=
    (s.qp w q).fetched = f :: rest ∧ f.gen = s.windowGen w ∧ s.qpSize w q = some n ∧ (s.qp w q).error = false ∧
    s.cqRoom w q n = true
  let completes (w q : Nat) (s : State) (f : Fetched) (rest : List Fetched) (status did : Nat) (t : State) : Prop :=
    (t.qp w q).fetched = rest ∧ Out.completion w q (Completion.mk f.desc.tag f.head status (s.qp w q).phase did f.gen) ∈ t.out ∧
    (w < 4096 → Tbl.get 0 t.crd.used (crdKey 14 w) = Tbl.get 0 s.crd.used (crdKey 14 w) - 1)
  (∀ n q v k s, n < 4096 → q < 8 → s.qpSize n q = some k → v < k → s.rg .QP_SQTAIL n q < k → s.rg .QP_SQHEAD n q < k →
    let posted := (v + k - s.rg .QP_SQTAIL n q) % k
    let used := (s.rg .QP_SQTAIL n q + k - s.rg .QP_SQHEAD n q) % k
    (s.qpShut n = false → posted + used < k → Runs (.sqTailWrite n q v) s fun t => t.rg .QP_SQTAIL n q = v ∧
      t.rg .TEN_CNT n 4 = satAdd 32 (s.rg .TEN_CNT n 4) posted) ∧
    (s.qpShut n = true ∨ k ≤ posted + used → Runs (.sqTailWrite n q v) s fun t =>
      t.rg .QP_SQTAIL n q = s.rg .QP_SQTAIL n q ∧ t.rg .TEN_CNT n 7 = satInc 32 (s.rg .TEN_CNT n 7)) ∧
    (Runs (.cqHeadWrite n q v) s fun t => t.rg .QP_CQHEAD n q = v ∧ t.qps = s.qps) ∧
    (∀ d, s.rg .QP_SQHEAD n q ≠ s.rg .QP_SQTAIL n q → (s.qp n q).error = false → 0 < s.avail 14 n → s.domOn 13 = true →
      Runs (.descriptorFetch n q d) s fun t => t.rg .QP_SQHEAD n q = (s.rg .QP_SQHEAD n q + 1) % k ∧
        (t.qp n q).fetched = (s.qp n q).fetched ++ [Fetched.mk d (s.tenant n).gen ((s.rg .QP_SQHEAD n q + 1) % k)] ∧
        Tbl.get 0 t.crd.used (crdKey 14 n) = Tbl.get 0 s.crd.used (crdKey 14 n) + 1)) ∧
  (∀ n q v s, n < 4096 → q < 8 → bit v 31 = false → Runs (.qpEnable n q v) s fun t => (t.qp n q).error = false ∧
    t.flag .QP_CFG 31 n q = false ∧ (t.qp n q).fetched = (s.qp n q).fetched) ∧
  (∀ n q k f rest s, n < 4096 → q < 8 → front n q k s f rest →
    (∀ h, f.desc.op = 1 → f.desc.count = 1 → 16 ≤ f.desc.len → badHandle h = false →
      (s.canPoint n h false = true → Runs (.ptRead n q [h]) s fun t => completes n q s f rest 0 1 t ∧
        Out.dma (s.ringFn n q).1 (s.ringFn n q).2 f.desc.addr (s.point h).bytes ∈ t.out ∧ t.pts = s.pts) ∧
      (s.canPoint n h false = false → Runs (.ptRead n q [h]) s fun t => completes n q s f rest 5 0 t ∧
        Out.dma (s.ringFn n q).1 (s.ringFn n q).2 f.desc.addr ({} : Point).bytes ∈ t.out)) ∧
    (∀ h d ti, f.desc.op = 2 → f.desc.count = 1 → 16 ≤ f.desc.len → badHandle h = false →
      (s.canPoint n h true = true → s.pntQ = [] → Tbl.get 0 s.now.pts h ≤ 2 → Runs (.ptWrite n q [(h, d, ti)]) s fun t =>
        completes n q s f rest 0 1 t ∧ t.point h = Point.kept { pointOf d ti 0 with info := 10 }) ∧
      (s.canPoint n h true = false → s.pntQ = [] → Runs (.ptWrite n q [(h, d, ti)]) s fun t => completes n q s f rest 5 0 t ∧ t.pts = s.pts)) ∧
    (f.desc.op = 3 → 1 ≤ f.desc.count → f.desc.count ≤ 64 → s.consumes n (bits f.desc.arg0 27 16) = false →
      Runs (.ringRead n q) s (completes n q s f rest 5 0)) ∧
    (∀ b, f.desc.op = 3 → f.desc.count = 1 → 64 ≤ f.desc.len → bit f.desc.arg0 13 = true →
      s.consumes n (bits f.desc.arg0 27 16) = true → s.rawRecord (bits f.desc.arg0 27 16) f.desc.arg1 = some b → b ≠ [] →
      Runs (.ringRead n q) s fun t => completes n q s f rest 0 1 t ∧
        Out.dma (s.ringFn n q).1 (s.ringFn n q).2 f.desc.addr b ∈ t.out) ∧
    (f.desc.op = 4 → (∀ g, (s.cap f.desc.arg0).cfg = some g → g.owner ≠ n) → Runs (.capRead n q) s (completes n q s f rest 5 0)) ∧
    (∀ b, f.desc.op = 5 → (∀ c, s.tenCfg n = some c → bit c.canRights f.desc.arg0 = false) →
      Runs (.qpCanSend n q b) s fun t => completes n q s f rest 5 0 t ∧ t.can = s.can) ∧
    (f.desc.op = 6 → Runs (.nop n q) s fun t => completes n q s f rest 0 0 t ∧ t.pts = s.pts) ∧
    (8 < f.desc.op → Runs (.nop n q) s (completes n q s f rest 2 0)) ∧
    (Runs (.dmaTimeout n (some q)) s fun t => completes n q s f rest 9 0 t ∧ (t.qp n q).error = true ∧
      t.flag .TEN_ALERT 3 n = true)) ∧
  (∀ n q f rest s, n < 4096 → q < 8 → (s.qp n q).fetched = f :: rest → f.gen ≠ (s.tenant n).gen →
    ∀ i ∈ [Instr.nop n q, .dmaTimeout n (some q)], Runs i s fun t =>
    (t.qp n q).fetched = rest ∧ t.rg .TEN_CNT n 5 = satInc 32 (s.rg .TEN_CNT n 5) ∧ t.flag .TEN_ALERT 4 n = true ∧
    t.crd = s.crd) ∧
  (∀ h c f rest s, h < 4 → c < 8 → (s.qp (linkWindow h) (60 + c)).fetched = f :: rest → f.desc.op = 7 →
    Runs (.rxBuf h c) s fun t => (t.qp (linkWindow h) (60 + c)).fetched = rest ∧
      (t.qp (linkWindow h) (60 + c)).bufs = (s.qp (linkWindow h) (60 + c)).bufs ++ [f] ∧ t.out = s.out) ∧
  (∀ h c f rest b bufs n s, h < 4 → c < 8 → Tbl.get [] s.sw.hostQ (h * 8 + c) = f :: rest →
    (s.qp (linkWindow h) (60 + c)).bufs = b :: bufs → s.qpSize (linkWindow h) (60 + c) = some n →
    s.cqRoom (linkWindow h) (60 + c) n = true → s.domOn 13 = true → (s.qp (linkWindow h) (60 + c)).error = false →
    Runs (.hostRxDelivery h c) s fun t => Tbl.get [] t.sw.hostQ (h * 8 + c) = rest ∧
      (t.qp (linkWindow h) (60 + c)).bufs = bufs ∧
      Tbl.get 0 t.crd.used (crdKey 3 (h * 8 + c)) = Tbl.get 0 s.crd.used (crdKey 3 (h * 8 + c)) - 1 ∧
      (f.origin ≠ .thyme → let g := f.tagged (8 + h)
        Out.hostFrame h c b.desc.addr { f with frame := g } f.info (if f.oversize then s.maxFrame f.inPort else g.len - 4)
          (s.qp (linkWindow h) (60 + c)).phase ∈ t.out)) ∧
  (∀ h n f rest x s, h < 4 → front (linkWindow h) 68 n s f rest → f.desc.op = 8 →
    (∀ k, k < 4 → s.flag .SWC_HSA 63 h k = true → s.fld .SWC_HSA 47 0 h k ≠ x.sa) → Runs (.txFrame h x) s fun t =>
    completes (linkWindow h) 68 s f rest 0 (x.len - 4) t ∧ t.rg .SWC_PCNT h 16 = satAdd 64 (s.rg .SWC_PCNT h 16) 1 ∧ t.sw = s.sw) ∧
  (∀ h v n c s, h < 4 → n < 4096 → s.tenantOfVf h v = some n → (s.tenant n).cmd = none → s.tenCfg n = some c →
    Runs (.functionLevelReset h v) s fun t => (∀ q, q < 8 → t.qp n q = {} ∧ t.rg .QP_CFG n q = 0) ∧ t.mailbox n = {} ∧
      t.rg .TEN_CNT n 14 = satInc 32 (s.rg .TEN_CNT n 14) ∧ t.tenant n = s.tenant n ∧ t.pts = s.pts ∧ t.elaT n = s.elaT n) ∧
  (∀ h v n x s, h < 4 → n < 4096 → s.tenantOfVf h v = some n → (s.tenant n).cmd = some x → x.code = 5 ∨ x.code = 6 →
    Runs (.functionLevelReset h v) s fun t => (t.tenant n).cmd = none ∧ (t.tenant n).lastCmd = x.code ∧ (t.tenant n).result = 5 ∧
      (t.tenant n).svc = (s.tenant n).svc ∧ t.pts = s.pts) ∧
  (∀ h s, h < 4 → s.linkTenants h = [] → (s.link h).up = true → Runs (.hostLinkReset h true) s fun t =>
    (t.link h).up = false ∧ (t.link h).vfen = 0 ∧ t.mailbox (linkWindow h) = {} ∧ t.ten = s.ten)

/-- A command while one runs ends BUSY and changes no slot or staging; while a tamper source is asserted or the vault is not READY, the loading commands run to TAMPER or VAULT without effect. On an idle READY vault and a slot n above 2 with attributes: GENERATE stages fresh material; DERIVE stages what the parent's key gives, or ends PARENT; IMPORT stages the blob's material that opens under the parent, or ends PARENT, DMA, TYPE or AUTH (in this order, the model's choice); VERIFY marks the staging verified if its check value is KVS_KCV, else drops it with KCV; COMMIT, not during a supervisor restart (R14), puts a verified staging of a slot that is EMPTY or ACTIVE in force, or ends NOSTAGE; DISCARD drops the staging; INVALIDATE empties the slot and orphans its ACTIVE children for KVS_GRACE seconds. Completion shows CMD and RESULT and sets DONE; VAULT_INIT completes with slots 1 and 3 new and the vault READY. While locked, a key past NOTAFTER expires, otherwise EXP_HELD is set; an orphan expires at its grace end. Tamper on an enabled source, or ZEROISE with its key, empties every slot and the vault; another key does nothing; slot 2 is derived again once no enabled source is asserted. (What KDF, check value and random bits are is left open by constants without a value.) -/
def Obligations.KeySlotsFollowHazel : Prop :=
  (∀ s, s.pwr.warm = true → exec .keyCommit s = .next s) ∧
  (∀ s b, s.kvs.run ≠ none → s.pwr.warm = false → ∀ c ∈ [(Instr.derive, 1), (.importKey b, 2), (.generate, 3), (.verify, 4), (.keyCommit, 5),
      (.keyDiscard, 6), (.invalidate, 7), (.vaultInit, 8)],
    Runs c.1 s fun t => t.kvs = s.kvs ∧ t.rg .KVS_RESULT = 2 ^ 31 + c.2 * 16 + 1 ∧ t.flag .KVS_STAT 1 = true) ∧
  (∀ s b, s.kvs.run = none → s.pwr.warm = false → ∀ c ∈ [(Instr.derive, 1), (.importKey b, 2), (.generate, 3), (.verify, 4), (.keyCommit, 5)],
    (s.tamperActive = true → Runs c.1 s fun t => (t.kvs.run.map (·.result)) = some 8 ∧ t.kvs.slots = s.kvs.slots ∧ t.kvs.stg = s.kvs.stg) ∧
    (s.tamperActive = false → s.kvs.vault ≠ .ready → Runs c.1 s fun t => (t.kvs.run.map (·.result)) = some 9 ∧
      t.kvs.slots = s.kvs.slots ∧ t.kvs.stg = s.kvs.stg)) ∧
  (∀ s n a, s.kvs.run = none → s.tamperActive = false → s.kvs.vault = .ready → s.pwr.warm = false → n = s.fld .KVS_SEL 13 0 → 2 < n →
    s.slotAttr n = some a →
    let ends (r : Nat) (t : State) : Prop := (t.kvs.run.map (·.result)) = some r ∧ t.flag .KVS_RESULT 31 = true
    (Runs .generate s fun t => ends 0 t ∧ t.kvs.slots = s.kvs.slots ∧ Tbl.get none t.kvs.stg n =
      some (KeyStaging.mk (Config.randomBits s.freeN) none (s.rg .KVS_NOTAFTER) false)) ∧
    (a.kind ≠ 4 →
      (∀ m, s.parentKey a 1 5 = some m → Runs .derive s fun t => ends 0 t ∧ t.kvs.slots = s.kvs.slots ∧
        Tbl.get none t.kvs.stg n = some (KeyStaging.mk (Config.kdf m (s.rg .KVS_LABEL) n a.kind)
          (some (s.fld .KVS_PARENT 13 0)) (s.rg .KVS_NOTAFTER) false)) ∧
      (s.parentKey a 1 5 = none → Runs .derive s fun t => ends 3 t ∧ t.kvs.stg = s.kvs.stg)) ∧
    (∀ m b, s.parentKey a 3 6 = some m → Runs (.importKey (some b)) s fun t =>
      if b.kind ≠ a.kind ∨ b.use ≠ a.use then ends 4 t ∧ t.kvs.stg = s.kvs.stg
      else if b.formatOk = true ∧ b.intact = true ∧ b.under = m then ends 0 t ∧ Tbl.get none t.kvs.stg n =
        some (KeyStaging.mk b.mat (some (s.fld .KVS_PARENT 13 0)) b.notAfter false)
      else ends 5 t ∧ t.kvs.stg = s.kvs.stg) ∧
    (∀ b, s.parentKey a 3 6 = none → Runs (.importKey b) s fun t => ends 3 t ∧ t.kvs.stg = s.kvs.stg) ∧
    (∀ m, s.parentKey a 3 6 = some m → Runs (.importKey none) s fun t => ends 10 t ∧ t.kvs.stg = s.kvs.stg) ∧
    (∀ g, Tbl.get none s.kvs.stg n = some g →
      (Config.keyCheck a.kind g.mat = s.kcv → Runs .verify s fun t => ends 0 t ∧
        Tbl.get none t.kvs.stg n = some { g with verified := true }) ∧
      (Config.keyCheck a.kind g.mat ≠ s.kcv → Runs .verify s fun t => ends 6 t ∧ Tbl.get none t.kvs.stg n = none) ∧
      (g.verified = true → (s.slot n).st = .empty ∨ (s.slot n).st = .active → Runs .keyCommit s fun t => ends 0 t ∧
        (t.slot n).st = .active ∧ (t.slot n).mat = g.mat ∧ (t.slot n).parent = g.parent ∧
        Tbl.get none t.kvs.stg n = none ∧ ∀ k, k ≠ n → t.slot k = s.slot k) ∧
      (g.verified = false → Runs .keyCommit s fun t => ends 7 t ∧ t.kvs.slots = s.kvs.slots)) ∧
    (Runs .keyDiscard s fun t => ends 0 t ∧ Tbl.get none t.kvs.stg n = none ∧ t.kvs.slots = s.kvs.slots) ∧
    ((s.slot n).st ≠ .empty → Runs .invalidate s fun t => ends 0 t ∧ t.slot n = {} ∧
      ∀ m, m ≠ n → (s.slot m).st = .active → (s.slot m).parent = some n → (t.slot m).st = .orphan ∧
        (t.slot m).mat = (s.slot m).mat ∧ (t.slot m).graceEnd = s.frc + s.grace * 1000000000)) ∧
  (∀ s r, s.kvs.run = some r → s.att.applyWaits = none → Runs .keyCommandDone s fun t => t.kvs.run = none ∧
    t.rg .KVS_RESULT = (r.cmd * 16 + r.result) % 2 ^ 64 ∧ t.flag .KVS_STAT 0 = true ∧
    (r.cmd = 8 → r.result = 0 → t.kvs.vault = .ready ∧ (t.slot 1).st = .active ∧ (t.slot 3).st = .active ∧
      t.kvs.tampered = false) ∧ (r.cmd ≠ 8 → t.kvs.slots = s.kvs.slots)) ∧
  (∀ s, s.kvs.run = none → s.tamperActive = false → s.kvs.identity = true → s.fld .ATT_LC 2 0 ≤ 2 → Runs .vaultInit s fun t =>
    (∀ n, t.slot n = {}) ∧ t.kvs.stg = [] ∧ t.kvs.vault = .none ∧ (t.kvs.run.map (·.cmd)) = some 8) ∧
  (∀ s, s.pwr.main = true → s.kvs.checkAt + 1000000000 ≤ s.frc →
    (s.locked = true → Runs .expiryCheck s fun t => ∀ n, (s.slot n).st = .active ∨ (s.slot n).st = .orphan →
      (s.slot n).notAfter ≠ 0 → (s.slot n).notAfter < s.dtSec → (t.slot n).st = .expired) ∧
    (s.locked = false → Runs .expiryCheck s fun t => t.flag .KVS_STAT 6 = true ∧ ∀ n, (t.slot n).st = (s.slot n).st)) ∧
  (∀ s n, (s.slot n).st = .orphan → (s.slot n).graceEnd ≤ s.frc → Runs (.graceEnd n) s fun t =>
    (t.slot n).st = .expired ∧ t.flag .KVS_STAT 4 = true ∧ ∀ m, m ≠ n → t.slot m = s.slot m) ∧
  (∀ s n src, s.pwr.main = true →
    (src ≤ 5 → s.flag .TMP_CFG src = true → Runs (.tamper src) s fun t => t.slot n = {} ∧ t.kvs.vault = .none ∧
      t.kvs.identity = false ∧ t.kvs.tampered = true ∧ t.flag .TMP_STAT src = true ∧ t.flag .KVS_STAT 2 = true) ∧
    (src ≤ 5 → s.flag .TMP_CFG src = false → exec (.tamper src) s = .next s) ∧
    (s.flag .TMP_CFG 6 = true → Runs (.zeroise 0xA5) s fun t => t.slot n = {} ∧ t.kvs.vault = .none ∧
      t.kvs.tampered = true ∧ t.flag .TMP_STAT 6 = true)) ∧
  (∀ s k, k ≠ 0xA5 → exec (.zeroise k) s = .next s) ∧
  (∀ s l, s.pwr.main = true → l < 64 → l &&& s.fld .TMP_CFG 6 0 = 0 → Runs (.identityRederive l) s fun t =>
    t.kvs.identity = true ∧ t.kvs.asserted = l ∧ t.kvs.slots = s.kvs.slots ∧ t.rf = s.rf)

/-- A token that fails a check leaves only its result in ATT_LCSTAT. One that passes moves ATT_LC to its TO state at once when no Hazel command runs, else it waits; except into OPERATIONAL an erasure begins and ERASE_PEND is set. The erasure of RMA and DECOMMISSIONED leaves every slot empty, no vault root and no amendment journal, and clears ERASE_PEND. A request joins the queue of four, or sets RESULT to FULL. While slot 2 is present, the oldest request leaves the queue with a statement that carries its nonce, the lifecycle, the digests and the enabled tenants, signed by slot 3 while that is usable and by slot 2 with AK_ABSENT otherwise. -/
def Obligations.LifecycleAndAttestation : Prop :=
  (∀ s k, s.att.erase = none → s.att.applyWaits = none →
    (s.kvs.run = none → s.lcCheck k ≠ 0 → exec (.apply (some k)) s = .next (s.setRg .ATT_LCSTAT (s.lcCheck k))) ∧
    (s.kvs.run = none → s.lcCheck k = 0 → Runs (.apply (some k)) s fun t => t.fld .ATT_LC 2 0 = k.dst ∧
      (k.dst ≠ 2 → t.att.erase = some (k.src, k.dst) ∧ t.flag .ATT_LC 8 = true) ∧
      (k.dst = 2 → t.att.erase = none ∧ t.rg .ATT_LCSTAT = 0) ∧ t.kvs = s.kvs) ∧
    (s.kvs.run ≠ none → Runs (.apply (some k)) s fun t => t.att.applyWaits = some k ∧ t.rg .ATT_LC = s.rg .ATT_LC) ∧
    (exec (.apply none) s = .next (s.setRg .ATT_LCSTAT 1))) ∧
  (∀ s a d n, s.pwr.main = true → s.att.erase = some (a, d) → d = 3 ∨ d = 4 → Runs .erasureDone s fun t =>
    t.slot n = {} ∧ t.kvs.vault = .none ∧ t.jrnl = {} ∧ t.att.erase = none ∧ t.flag .ATT_LC 8 = false ∧
    t.rg .ATT_LCSTAT = 0 ∧ (∀ m, (t.schT m).forces = [] ∧ (t.schT m).keepA = []) ∧ t.ltl = s.ltl) ∧
  (∀ s, (s.att.queue.length < 4 → Runs .request s fun t => ∃ r, t.att.queue = s.att.queue ++ [r] ∧ r.link = none ∧
      r.addr = s.rg .ATT_ADDR / 64 * 64 ∧ r.nonce = (List.range 8).flatMap fun w => leBytes 4 (s.rg .ATT_NONCE w)) ∧
    (4 ≤ s.att.queue.length → Runs .request s fun t => t.att.queue = s.att.queue ∧ t.att.result = 1)) ∧
  (∀ s r rest, s.att.queue = r :: rest → s.kvs.identity = true → s.pwr.main = true →
    (Runs (.statementBuild true) s fun t => t.att.queue = rest ∧ t.att.result = 0 ∧ ∃ x, Out.statement r.link r.addr x.head x ∈ t.out ∧
      x.nonce = r.nonce ∧ x.lifecycle = s.fld .ATT_LC 2 0 ∧ x.run = s.boot.runDigest ∧ x.image = s.boot.imageDigest ∧
      x.signer = (if s.akUsable then 3 else 2) ∧ x.akAbsent = !s.akUsable ∧
      (x.tenants.map (·.tenant)) = s.enabledTenants.map (·.1)) ∧
    (Runs (.statementBuild false) s fun t => t.att.queue = rest ∧ t.att.result = 2)) ∧
  (∀ s b, s.kvs.identity = false → exec (.statementBuild b) s = .next s)

/-- A software trigger of source 48 + SRC is accepted while its source is enabled, its minimum interval has passed and the queue holds fewer than 64 entries: the entry, before those of the same cycle with a higher source, carries the source, the written value, the device time and the snapshot of its set; within the interval it counts as SUPPRESSED only, at a full queue as LOST, and a disabled source does nothing. RECORD_WRITE writes the oldest fire as 256 bytes with their CRC at SEQ mod 8,192 and advances EVR_NEXTSEQ. A read of EVR_CNT clears what events of earlier FRC counts have counted. LTL_INC and LTL_HADD add to firmware counters and bins and set REFUSED for hardware ones. A hardware histogram takes its sample at its period, a second of main power counts in ON_SECONDS and, above 100 degrees, in HOT_SECONDS; a flush brings MRAM up to date. -/
def Obligations.WalnutAndAlmondRecord : Prop :=
  (∀ src arg s, src < 16 → arg < 2 ^ 28 →
    (s.flag .EVR_SRCCFG 31 (48 + src) = false → exec (.swtrig src arg) s = .next s) ∧
    (s.flag .EVR_SRCCFG 31 (48 + src) = true →
      let quiet := s.fld .EVR_SRCCFG 7 0 (48 + src) * 1000000
      (∀ f, Tbl.get none s.evr.last (48 + src) = some f → s.frc < f + quiet → Runs (.swtrig src arg) s fun t =>
        t.evr = s.evr ∧ t.rg .EVR_CNT 1 = satInc 32 (s.rg .EVR_CNT 1)) ∧
      ((∀ f, Tbl.get none s.evr.last (48 + src) = some f → f + quiet ≤ s.frc) → s.evr.queue.length = 64 →
        (∀ x ∈ s.evr.queue, x.frc = s.frc → x.source ≤ 48 + src) →
        Runs (.swtrig src arg) s fun t => t.evr.queue = s.evr.queue ∧ t.evr.lostSince = s.evr.lostSince + 1 ∧
          t.rg .EVR_CNT 0 = satInc 32 (s.rg .EVR_CNT 0) ∧ t.flag .EVR_STAT 1 = true) ∧
      ((∀ f, Tbl.get none s.evr.last (48 + src) = some f → f + quiet ≤ s.frc) → s.evr.queue.length < 64 →
        Runs (.swtrig src arg) s fun t => t.rf = s.rf ∧ Tbl.get none t.evr.last (48 + src) = some s.frc ∧
          ∃ f, t.evr.queue = fireInsert f s.evr.queue ∧ f.frc = s.frc ∧ f.source = 48 + src ∧ f.arg = arg ∧ f.stamp = s.dt ∧ f.stampSrc = 1 ∧
            f.supDown = !s.pwr.supRuns ∧ f.set = s.fld .EVR_SRCCFG 10 8 (48 + src) ∧
            f.words = (s.snapSet f.set).map (busPeek s)))) ∧
  (∀ f rest s, s.pwr.main = true → s.evr.queue = f :: rest → s.evr.nextWrite ≤ s.frc → Runs .recordWrite s fun t =>
    let b := memGet t.mem (evrRecord (s.rg .EVR_NEXTSEQ)) 256
    t.evr.queue = rest ∧ t.rg .EVR_NEXTSEQ = (s.rg .EVR_NEXTSEQ + 1) % 2 ^ 32 ∧ t.flag .EVR_STAT 0 = true ∧
    b = recordBytes (s.rg .EVR_NEXTSEQ) s.evr.lostSince f ∧ ofLe (b.drop 252) = crc32c (b.take 252) ∧
    t.evr.nextWrite = s.frc + 2000 ∧
    Tbl.get 0 t.ltl.cur (almondCounter 20) = satAdd 64 (Tbl.get 0 s.ltl.cur (almondCounter 20)) 1) ∧
  (∀ q k s, k < 3 → s.rg .EVR_CNT k < 2 ^ 32 → Runs (.evrCntRead q k) s fun t =>
    (t.port q).data = BitVec.ofNat 32 (s.rg .EVR_CNT k - s.countedNow .EVR_CNT k) ∧
    t.rg .EVR_CNT k = s.countedNow .EVR_CNT k ∧ t.evr = s.evr) ∧
  (∀ c n s, c < 256 → n < 65536 →
    (32 ≤ c → Runs (.ltlInc c n) s fun t => t.rf = s.rf ∧ t.ltl.mram = s.ltl.mram ∧
      Tbl.get 0 t.ltl.cur (almondCounter c) = satAdd 64 (Tbl.get 0 s.ltl.cur (almondCounter c)) n ∧
      ∀ k, k ≠ almondCounter c → Tbl.get 0 t.ltl.cur k = Tbl.get 0 s.ltl.cur k) ∧
    (c < 32 → exec (.ltlInc c n) s = .next (s.setFlag .LTL_STAT 0))) ∧
  (∀ h b n s, h < 32 → b < 64 → n < 65536 →
    (4 ≤ h → Runs (.ltlHadd h b n) s fun t => t.rf = s.rf ∧ t.ltl.mram = s.ltl.mram ∧
      Tbl.get 0 t.ltl.cur (almondBin h b) = satAdd 64 (Tbl.get 0 s.ltl.cur (almondBin h b)) n ∧
      ∀ k, k ≠ almondBin h b → Tbl.get 0 t.ltl.cur k = Tbl.get 0 s.ltl.cur k) ∧
    (h < 4 → exec (.ltlHadd h b n) s = .next (s.setFlag .LTL_STAT 0))) ∧
  (∀ s, s.pwr.main = true →
    (∀ h, h < 4 → Tbl.get 0 s.ltl.sampleAt h + (if h = 2 then 1000000000 else 10000000000) ≤ s.frc →
      Runs (.histogramSample h) s fun t => Tbl.get 0 t.ltl.sampleAt h = s.frc ∧ t.rf = s.rf ∧
        ∃ b, b < 64 ∧ Tbl.get 0 t.ltl.cur (almondBin h b) =
          satAdd 64 (Tbl.get 0 s.ltl.cur (almondBin h b)) (if h = 2 then 1 else 10)) ∧
    (Tbl.get 0 s.ltl.sampleAt 0 + 10000000000 ≤ s.frc → ∀ b : Nat, b < 64 → -400 + 25 * (b : Int) ≤ s.sge.temp →
      s.sge.temp < -375 + 25 * (b : Int) → Runs (.histogramSample 0) s fun t =>
        Tbl.get 0 t.ltl.cur (almondBin 0 b) = satAdd 64 (Tbl.get 0 s.ltl.cur (almondBin 0 b)) 10) ∧
    (s.ltl.secAt + 1000000000 ≤ s.frc → Runs .onSecondsTick s fun t => t.ltl.secAt = s.frc ∧ t.rf = s.rf ∧
      Tbl.get 0 t.ltl.cur (almondCounter 4) = satAdd 64 (Tbl.get 0 s.ltl.cur (almondCounter 4)) 1 ∧
      Tbl.get 0 t.ltl.cur (almondCounter 5) =
        if 1000 < s.sge.temp then satAdd 64 (Tbl.get 0 s.ltl.cur (almondCounter 5)) 1 else Tbl.get 0 s.ltl.cur (almondCounter 5)) ∧
    Runs .almondFlush s fun t => t.ltl.mram = s.ltl.cur ∧ t.ltl.cur = s.ltl.cur ∧ t.rf = s.rf)

/-- ARM and DISARM of a unit that is no master set CMD_REFUSED. ARM by its master puts every IDLE unit of the group that has a free slot into ARMING there; DISARM puts every unit of the group into IDLE, a recording one with one more record, marked ENDED. FIRE of a group that no fire has reached in this FRC count and whose unit is ARMED starts its recording at the device time of the write; a unit in ARMING counts EARLY and IGNORED, in IDLE IGNORED. A row that is neither complete nor due stays open; one that is takes a credit of boundary 13: in ARMING it counts towards PRE, in ARMED it joins the rows held, in RECORDING a row before the fire stamp stays one of the PRE rows while the trigger row is awaited, and the last row completes the record (DONE, hold-off); without a credit an armed unit starts again and a recording one completes with OVERFLOW. The end of a hold-off makes the unit IDLE, or with REARM and a free slot ARMING. FREE drops the oldest record; a read of DCR_UCNT clears what events of earlier FRC counts have counted. -/
def Obligations.CaptureUnitsFollowTheirStates : Prop :=
  (∀ s, (s.cap s.capSel).isMaster = false →
    exec .dcrArm s = .next (s.setFlag .DCR_STAT 4) ∧ exec .dcrDisarm s = .next (s.setFlag .DCR_STAT 4)) ∧
  (∀ s u g k, (s.cap s.capSel).isMaster = true → s.domOn 15 = true → u ∈ s.capGroup s.capSel → (s.cap u).cfg = some g →
    (s.cap u).st = .idle → (s.cap u).freeSlot g = some k → Runs .dcrArm s fun t => (t.cap u).st = .arming ∧
      (t.cap u).slot = some k ∧ (t.cap u).preCount = 0 ∧ (t.cap u).records = (s.cap u).records ∧
      ∀ v, v ∉ s.capGroup s.capSel → t.cap v = s.cap v) ∧
  (∀ s u, (s.cap s.capSel).isMaster = true → u ∈ s.capGroup s.capSel → Runs .dcrDisarm s fun t =>
    (t.cap u).st = .idle ∧ (t.cap u).slot = none ∧
    ((s.cap u).st = .recording → ∃ r, (t.cap u).records = (s.cap u).records ++ [r] ∧ r.ended = true ∧
      r.rows = (s.cap u).rows.reverse) ∧
    ((s.cap u).st ≠ .recording → (t.cap u).records = (s.cap u).records)) ∧
  (∀ s u g m, (s.cap s.capSel).cfg = some m → s.domOn 15 = true → Tbl.get none s.now.capFires m.group = none → u ∈ s.capGroup m.group → (s.cap u).cfg = some g →
    ((s.cap u).st = .armed → ((s.cap u).fireAt g s.dt 0xFF false).remaining ≠ 0 → Runs .dcrFire s fun t =>
      (t.cap u).st = .recording ∧ (t.cap u).cur.fireStamp = s.dt ∧ (t.cap u).cur.fireUnit = 0xFF ∧
      (t.cap u).cur.trigRow = g.pre + 1) ∧
    ((s.cap u).st = .arming → Runs .dcrFire s fun t => t.cap u = ((s.cap u).inc 1).inc 2) ∧
    ((s.cap u).st = .idle → Runs .dcrFire s fun t => t.cap u = (s.cap u).inc 2)) ∧
  (∀ s u g o rest, (s.cap u).cfg = some g → (s.cap u).opens = o :: rest →
    (s.capReady g o = false → s.frc < o.close → exec (.rowClose u) s = .next s) ∧
    (s.capReady g o = true ∨ o.close ≤ s.frc →
      (0 < s.avail 13 u →
        ((s.cap u).st = .arming → Tbl.get none s.now.capFires g.group = none → Runs (.rowClose u) s fun t => (t.cap u).opens = rest ∧
          (t.cap u).preCount = (s.cap u).preCount + 1 ∧
          (t.cap u).st = (if g.pre ≤ (s.cap u).preCount + 1 then .armed else .arming) ∧
          Tbl.get 0 t.crd.used (crdKey 13 u) = Tbl.get 0 s.crd.used (crdKey 13 u) + 1) ∧
        ((s.cap u).st = .armed → Runs (.rowClose u) s fun t => (t.cap u).opens = rest ∧ (t.cap u).st = .armed ∧
          (t.cap u).rows = ((s.capRow g o).1 :: (s.cap u).rows).take (g.pre + 16)) ∧
        ((s.cap u).st = .recording → (s.cap u).awaiting = true → o.stamp < (s.cap u).cur.fireStamp →
          Runs (.rowClose u) s fun t => (t.cap u).st = .recording ∧ (t.cap u).remaining = (s.cap u).remaining ∧
            (t.cap u).rows = ((s.capRow g o).1 :: (s.cap u).rows).take g.pre) ∧
        ((s.cap u).st = .recording → (s.cap u).awaiting = false ∨ (s.cap u).cur.fireStamp ≤ o.stamp →
          1 < (s.cap u).remaining → Runs (.rowClose u) s fun t => (t.cap u).st = .recording ∧
          (t.cap u).rows = (s.capRow g o).1 :: (s.cap u).rows ∧ (t.cap u).remaining = (s.cap u).remaining - 1) ∧
        ((s.cap u).st = .recording → (s.cap u).awaiting = false ∨ (s.cap u).cur.fireStamp ≤ o.stamp →
          (s.cap u).remaining ≤ 1 → Runs (.rowClose u) s fun t => (t.cap u).st = .holdoff ∧
          t.flag .DCR_STAT 0 = true ∧ ∃ r, (t.cap u).records = (s.cap u).records ++ [r] ∧
            r.rows = (s.cap u).rows.reverse ++ [(s.capRow g o).1] ∧ r.overflow = (s.cap u).cur.overflow)) ∧
      (s.avail 13 u = 0 →
        ((s.cap u).st = .armed ∨ (s.cap u).st = .arming → Runs (.rowClose u) s fun t => (t.cap u).st = .arming ∧
          (t.cap u).preCount = 0 ∧ Tbl.get 0 (t.cap u).cnt 3 = satInc 32 (Tbl.get 0 (s.cap u).cnt 3) ∧ t.flag .DCR_STAT 2 = true) ∧
        ((s.cap u).st = .recording → Runs (.rowClose u) s fun t => (t.cap u).st = .holdoff ∧ t.flag .DCR_STAT 2 = true ∧
          ∃ r, (t.cap u).records = (s.cap u).records ++ [r] ∧ r.overflow = true ∧ r.rows = (s.cap u).rows.reverse)))) ∧
  (∀ s u g, (s.cap u).cfg = some g → (s.cap u).st = .holdoff →
    (if g.countMode then (s.cap u).holdEnd = 0 else (s.cap u).holdEnd ≤ s.frc) →
    (g.rearm = false → Runs (.holdoffEnd u) s fun t => (t.cap u).st = .idle ∧ (t.cap u).records = (s.cap u).records) ∧
    (∀ k, g.rearm = true → (s.cap u).freeSlot g = some k → Runs (.holdoffEnd u) s fun t => (t.cap u).st = .arming ∧
      (t.cap u).slot = some k)) ∧
  (∀ s, Runs .dcrFree s fun t => (t.cap s.capSel).records = (s.cap s.capSel).records.drop 1 ∧ t.rf = s.rf ∧
    ∀ v, v ≠ s.capSel → t.cap v = s.cap v) ∧
  (∀ q k s, k < 7 → Runs (.dcrUcntRead q k) s fun t =>
    let fresh := Tbl.get 0 (s.cap s.capSel).cnt k - Tbl.get 0 (Tbl.get {} s.now.caps s.capSel).cnt k
    (t.port q).data = BitVec.ofNat 32 (Tbl.get 0 (s.cap s.capSel).cnt k - fresh) ∧ Tbl.get 0 (t.cap s.capSel).cnt k = fresh ∧
    t.rf = s.rf)

/-- With a descriptor of the present generation in front and room for its completion: CAP_READ of the tenant's own unit writes LEN bytes of the oldest complete record (by the configuration it was made under) from offset ARG1 on to the host and completes OK, or PARTIAL where the record has fewer; a CAN_SEND of a tenant with rights on the controller places its frame in the lowest free buffer, requests it and completes, and waits while no buffer is free; a TX_FRAME whose source address is one of its link's joins the queue of the one UP port that the lookup gives, while its cells fit. -/
def Obligations.DescriptorsReachCaptureCanAndSwitch : Prop :=
  let front (w q n : Nat) (s : State) (f : Fetched) (rest : List Fetched) : Prop :=
    (s.qp w q).fetched = f :: rest ∧ f.gen = s.windowGen w ∧ s.qpSize w q = some n ∧ (s.qp w q).error = false ∧
    s.cqRoom w q n = true
  let completes (w q : Nat) (s : State) (f : Fetched) (rest : List Fetched) (status did : Nat) (t : State) : Prop :=
    (t.qp w q).fetched = rest ∧ Out.completion w q (Completion.mk f.desc.tag f.head status (s.qp w q).phase did f.gen) ∈ t.out
  (∀ n q k f rest s, n < 4096 → q < 8 → front n q k s f rest →
    (∀ g r rs d, f.desc.op = 4 → f.desc.arg0 < 16 → (s.cap f.desc.arg0).cfg = some g → g.owner = n →
      (s.cap f.desc.arg0).records = r :: rs → d = ((r.bytes (r.cfg.getD g)).drop f.desc.arg1).take f.desc.len → d ≠ [] →
      Runs (.capRead n q) s fun t => completes n q s f rest (if d.length < f.desc.len then 11 else 0) d.length t ∧
        Out.dma (s.ringFn n q).1 (s.ringFn n q).2 f.desc.addr d ∈ t.out ∧ t.dcr = s.dcr) ∧
    (∀ c b x, f.desc.op = 5 → f.desc.arg0 < 4 → s.tenCfg n = some c → bit c.canRights f.desc.arg0 = true → x.length = 96 →
      (s.canFree f.desc.arg0 = some b → s.canMode f.desc.arg0 ≠ 1 → Runs (.qpCanSend n q x) s fun t =>
        completes n q s f rest 0 96 t ∧ ((t.canC f.desc.arg0).buf b).pend = some s.frc ∧
        memGet t.mem (canBuffer f.desc.arg0 b) 96 = x) ∧
      (s.canFree f.desc.arg0 = none → exec (.qpCanSend n q x) s = .next s))) ∧
  (∀ h n f rest x k c s, h < 4 → front (linkWindow h) 68 k s f rest → f.desc.op = 8 →
    (∃ i, i < 4 ∧ s.flag .SWC_HSA 63 h i = true ∧ s.fld .SWC_HSA 47 0 h i = x.sa) → n < 8 → (s.prt n).up = true → x.pauses = false →
    s.role n ≠ Role.partner → s.twin n = none → (s.lookup (8 + h) (s.vidOf (8 + h) x) x.da).ports = [n] →
    (s.lookup (8 + h) (s.vidOf (8 + h) x) x.da).hosts = [] → (s.lookup (8 + h) (s.vidOf (8 + h) x) x.da).sup = false →
    c = s.classOf (8 + h) (s.priOf (8 + h) x) →
    s.cellsUsed (8 + h) c + cellsOf x.len ≤ s.fld .SWC_INBUF 17 0 (8 + h) c → Tbl.get [] s.sw.inWait ((8 + h) * 8 + c) = [] →
    Runs (.txFrame h x) s fun t => completes (linkWindow h) 68 s f rest 0 (x.len - 4) t ∧
      ∃ g, Tbl.get none t.sw.frames s.sw.nextId = some g ∧ g.frame = x ∧ g.outs = [n] ∧
        s.sw.nextId ∈ Tbl.get [] t.sw.voq (voqKey (8 + h) n c))

/-- While the firmware runs or restarts, a lockstep mismatch, SYS_RSTCMD KIND 1 with its key, or a watchdog period without a kick starts a warm restart: its cause bit is set, the firmware stops, the hardware keeps its tenants and its FRC; with two restarts in the last 10 s a SYSRST_N reset follows instead (ESCALATE). A wrong key does nothing. A kick with its key restarts the period. SUP_RESTART_COMPLETE lets the firmware run again. -/
def Obligations.WarmRestartsStartEndAndEscalate : Prop :=
  (∀ p s, s.supUp = true → (s.pwr.warmTimes.filter fun f => decide (s.frc < f + 10 * sec)).length < 2 →
    let went (b : Nat) (t : State) : Prop :=
      t.flag .SYS_RSTCAUSE b = true ∧ t.pwr.supRuns = false ∧ t.pwr.warm = true ∧ t.pwr.wdogFrom = s.frc ∧
      t.ten = s.ten ∧ t.ela = s.ela ∧ t.tb = s.tb ∧ t.pts = s.pts
    Runs (.lockstepMismatch p) s (fun t => went 4 t ∧ t.sge.lockstep = true) ∧
    Runs (.warmRestartCmd 0xC3) s (went 3) ∧
    (s.pwr.wdogFrom + s.wdogPeriod * ms ≤ s.frc → Runs .watchdogExpiry s (went 5))) ∧
  (∀ s, s.supUp = true → 2 ≤ (s.pwr.warmTimes.filter fun f => decide (s.frc < f + 10 * sec)).length →
    Runs (.warmRestartCmd 0xC3) s fun t => t.flag .SYS_RSTCAUSE 6 = true ∧ t.pwr.rstOut = true ∧ t.ten = [] ∧
      t.frc = s.frc ∧ t.pwr.warmTimes = []) ∧
  (∀ k s, k ≠ 0xC3 → exec (.warmRestartCmd k) s = .next s ∧ exec (.sysrstCmd k) s = .next s) ∧
  (∀ s, exec (.wdogKick 0x5A) s = .next { s with pwr := { s.pwr with wdogFrom := s.frc } }) ∧
  (∀ k s, k ≠ 0x5A → exec (.wdogKick k) s = .next s) ∧
  (∀ s, s.pwr.warm = true → Runs .supRestartComplete s fun t =>
    t.pwr.supRuns = true ∧ t.pwr.warm = false ∧ t.pwr.wdogFrom = s.frc ∧ t.ten = s.ten)

/-- Asserting SYSRST_N, or SYS_RSTCMD KIND 2 with its key, with main power good: the cause bit is set, RSTOUT_N goes low, the FRC and OFS, ANC, RATE and the _NX values stay, a pending commit is cancelled, LOCKED becomes HOLDOVER, every tenant, stream, publication and port returns to its reset state, the image is no longer applied, only domain 0 is on, and a register of class SYS such as TMB_HOLD holds its reset value again. The release latches PAIR_SIDE into PAR_CFG. -/
def Obligations.SysrstKeepsRetainedStateOnly : Prop :=
  (∀ s, s.pwr.main = true →
    let kept (b : Nat) (t : State) : Prop :=
      t.flag .SYS_RSTCAUSE b = true ∧ t.pwr.rstOut = true ∧ t.frc = s.frc ∧ t.tb.pending = none ∧
      t.tb.sync = (if s.tb.sync = .locked then .holdover else s.tb.sync) ∧
      t.rg .TMB_OFS = s.rg .TMB_OFS ∧ t.rg .TMB_ANC = s.rg .TMB_ANC ∧ t.rg .TMB_RATE = s.rg .TMB_RATE ∧
      t.rg .TMB_CMT_AT = (regInfo .TMB_CMT_AT).reset ∧ t.rg .TMB_OFS_NX = s.rg .TMB_OFS_NX ∧
      t.rg .TMB_HOLD = (regInfo .TMB_HOLD).reset ∧
      t.ten = [] ∧ t.ela = [] ∧ t.svx = {} ∧ t.flt = {} ∧ t.goose = {} ∧ t.ports = [] ∧ t.sw = {} ∧ t.ttu = [] ∧
      t.lop = {} ∧ t.can = [] ∧ t.crd = {} ∧ t.boot.loaded = false ∧ t.pwr.on = 1 ∧ t.pwr.supRuns = false ∧
      t.jrnl = s.jrnl ∧ t.pending = s.pending
    (s.pwr.sysrst = false → Runs .sysrstAssert s fun t => kept 2 t ∧ t.pwr.sysrst = true) ∧
    Runs (.sysrstCmd 0xC3) s (kept 3)) ∧
  (∀ side a s, side < 2 → a < 8 → s.pwr.sysrst = true → Runs (.sysrstRelease ⟨side, a⟩) s fun t =>
    t.pwr.sysrst = false ∧ t.pwr.side = side ∧ t.pwr.smbAddr = a ∧ t.rg .PAR_CFG = side ∧ t.frc = s.frc)

/-- POWER_ON of a module without main power and with its reference lets the FRC count on from where power loss left it (0), records its cause, latches the side and, with a valid seconds keeper, starts device time at the keeper's value; without the reference it waits, and the return of the reference ends the wait. A brown-out or rail fault takes main power away: no domain stays on, the FRC starts anew, tenants and streams go. A supply warning sets WARN, its end clears it. VBAT loss with main power sets the flag of PWR_STAT; without it the seconds keeper and the vault root are lost, and the wrapped keys stay. -/
def Obligations.SuppliesDecideWhatRuns : Prop :=
  (∀ side a s, side < 2 → a < 8 → s.pwr.main = false → s.kvs.unreported = false → s.pwr.railFault = false →
    Runs (.powerOn 0 ⟨side, a⟩ true true) s fun t => t.pwr.smbAddr = a ∧
      t.pwr.main = true ∧ t.pwr.on = 1 ∧ t.pwr.phases = 1 ∧ t.rg .SYS_RSTCAUSE = 1 ∧ t.rg .PAR_CFG = side ∧
      t.frc = s.frc ∧ (s.tb.rtcValid = true → t.rg .TMB_OFS = s.tb.rtc * sec / 32768 % 2 ^ 64)) ∧
  (∀ s, s.pwr.main = false → Runs (.powerOn 0 ⟨0, 0⟩ true false) s fun t =>
    t.pwr.main = false ∧ t.pwr.phase1Waits = true ∧ t.pwr.refOk = false ∧ t.rf = s.rf) ∧
  (∀ s, s.pwr.main = false → s.pwr.phase1Waits = true → s.kvs.unreported = false → Runs .referenceRestored s fun t =>
    t.pwr.main = true ∧ t.pwr.refOk = true ∧ t.pwr.phase1Waits = false ∧ t.pwr.phases = 1) ∧
  (∀ s, s.pwr.main = true → Runs .brownOut s fun t =>
    t.pwr.main = false ∧ t.pwr.on = 0 ∧ t.frc = 0 ∧ t.tb.sync = .free ∧ t.ten = [] ∧ t.svx = {} ∧
    (s.pwr.vbat = false → t.tb.rtcValid = false ∧ t.kvs.vault = .none)) ∧
  (∀ s, s.pwr.main = true → Runs .railFault s fun t =>
    t.pwr.main = false ∧ t.pwr.on = 0 ∧ t.frc = 0 ∧ t.ten = [] ∧ t.pwr.railFault = true) ∧
  (∀ s, s.pwr.main = true → Runs .supplyWarning s fun t => t.flag .PWR_STAT 0 = true ∧ t.ltl.mram = s.ltl.cur ∧
    t.ten = s.ten ∧ t.frc = s.frc) ∧
  (∀ s, Runs .warningClear s fun t => t.flag .PWR_STAT 0 = false ∧ t.ten = s.ten ∧ t.frc = s.frc) ∧
  (∀ s, s.pwr.main = true → Runs .vbatLoss s fun t => t.flag .PWR_STAT 2 = true ∧ t.pwr.vbat = false ∧ t.kvs = s.kvs) ∧
  (∀ s, s.pwr.main = false → Runs .vbatLoss s fun t => t.tb.rtcValid = false ∧ t.kvs.vault = .none ∧
    t.kvs.identity = false ∧ t.pwr.vbat = false ∧ t.slot 1 = {} ∧ ∀ n, n ≠ 1 → t.slot n = s.slot n)

/-- OFF of domain 14 or 15 in use and on turns it off; ON of one that is off starts a transition of at most 5 ms, whose end turns it on; RESET of domains 5 to 10 in use starts a transition that leaves the domain on. A command on a domain that does not take it, that is not in use, or while any domain is in transition only sets DCMD_REFUSED. A PLL whose stop time has come stops; TBPLL never has one. -/
def Obligations.DomainsSwitchOneAtATime : Prop :=
  (∀ d s, d = 14 ∨ d = 15 → bit s.pwr.mask d = true → s.pwr.trans = [] →
    (bit s.pwr.on d = true → Runs (.domainOff d) s fun t => t.pwr.on = clrBit s.pwr.on d ∧ t.domOn d = false ∧ t.frc = s.frc) ∧
    (bit s.pwr.on d = false → Runs (.domainOn d) s fun t =>
      t.pwr.trans = [(d, some (.switchOn, s.frc + 5 * ms))] ∧ t.rf = s.rf ∧ t.ten = s.ten)) ∧
  (∀ d s, d = 9 ∨ d = 10 → bit s.pwr.mask d = true → s.pwr.trans = [] → Runs (.domainReset d) s fun t =>
    t.pwr.trans = [(d, some (.reset, s.frc + 5 * ms))] ∧ t.pwr.on = s.pwr.on ∧ t.frc = s.frc) ∧
  (∀ d s, 5 ≤ d → d ≤ 8 → bit s.pwr.mask d = true → s.pwr.trans = [] → s.quarterTenants (d - 5) = [] →
    Runs (.domainReset d) s fun t => t.pwr.trans = [(d, some (.reset, s.frc + 5 * ms))] ∧ t.pwr.on = s.pwr.on ∧
      t.ten = s.ten) ∧
  (∀ d s, (bit s.pwr.mask d = false ∨ s.pwr.trans ≠ []) →
    exec (.domainOff d) s = .next (s.setFlag .PWR_STAT 4) ∧ exec (.domainOn d) s = .next (s.setFlag .PWR_STAT 4) ∧
    exec (.domainReset d) s = .next (s.setFlag .PWR_STAT 4)) ∧
  (∀ d s, d ≠ 14 → d ≠ 15 →
    exec (.domainOff d) s = .next (s.setFlag .PWR_STAT 4) ∧ exec (.domainOn d) s = .next (s.setFlag .PWR_STAT 4)) ∧
  (∀ d s f, Tbl.get none s.pwr.trans d = some (.switchOn, f) → Runs (.domainTransitionDone d) s fun t =>
    bit t.pwr.on d = true ∧ Tbl.get none t.pwr.trans d = none ∧ t.ten = s.ten) ∧
  (∀ d s f, Tbl.get none s.pwr.trans d = some (.reset, f) → Runs (.domainTransitionDone d) s fun t =>
    t.pwr.on = s.pwr.on ∧ Tbl.get none t.pwr.trans d = none ∧ t.ten = s.ten ∧ t.rf = s.rf) ∧
  (∀ p s f, Tbl.get none s.pwr.pllStop p = some f → f ≤ s.frc → Runs (.pllStop p) s fun t =>
    bit t.pwr.pll p = false ∧ Tbl.get none t.pwr.pllStop p = none ∧ t.rf = s.rf) ∧
  (∀ on, bit (pllNeeds on) 0 = true)

/-- The supervisor phase runs once, after the supply phase and outside SYSRST_N: with firmware in the preferred bank that bank boots, else that of the other, RSTOUT_N is released and the firmware runs; with firmware in neither bank the module enters recovery. The image phase of a module whose two images both fail their checks enters recovery, leaves no image applied, and leaves BANK and FALLBACK. CONFIRM of a trial boot makes its bank the preferred one. A SEAL seals at once, and a hold of the seal ends at its time. ROLLFLOOR rises to at most the running image's version; any other value is refused with code 6. -/
def Obligations.BootSelectsBanksAndSeals : Prop :=
  (∀ (a b : Bank) (s : State), s.pwr.main = true → s.pwr.sysrst = false → s.pwr.phases = 1 → s.flag .SYS_BOOTCFG 0 = false →
    s.flag .SYS_BOOTCFG 1 = false →
    (a.firmware = true → Runs (.supervisorPhase a b) s fun t =>
      t.pwr.supRuns = true ∧ t.pwr.rstOut = false ∧ t.pwr.phases = 3 ∧ t.boot.trying = 0 ∧ t.boot.second = false ∧
      t.boot.firmware = a.fwDigest ∧ t.boot.recovery = s.boot.recovery) ∧
    (a.firmware = false → b.firmware = true → Runs (.supervisorPhase a b) s fun t => t.pwr.supRuns = true ∧
      t.boot.trying = 1 ∧ t.boot.second = true ∧ t.boot.failA = 0x0B ∧ t.boot.firmware = b.fwDigest) ∧
    (a.firmware = false → b.firmware = false → Runs (.supervisorPhase a b) s fun t =>
      t.boot.recovery = true ∧ t.boot.failA = 0x0B ∧ t.boot.failB = 0x0B ∧ t.boot.loaded = s.boot.loaded)) ∧
  (∀ (a b : Bank) (s : State) (c d : Nat), s.pwr.phases = 3 → s.boot.recovery = false → s.pwr.supRuns = true → s.boot.loaded = false →
    s.boot.trying = 0 → s.boot.second = false → b.firmware = true → s.bankCheck a = .error c →
    (∀ x : State, x.bankCheck b = .error d) →
    Runs (.imageLoad a b) s fun t => t.boot.recovery = true ∧ t.boot.loaded = false ∧ t.boot.failA = c ∧ t.boot.failB = d ∧
      t.boot.bank = s.boot.bank ∧ t.boot.fallback = s.boot.fallback) ∧
  (∀ (a b : Bank) (s : State) p, s.pwr.phases = 3 → s.boot.recovery = false → s.pwr.supRuns = true → s.boot.trying = 0 →
    s.bankCheck a = .ok p → Runs (.imageLoad a b) s fun t => t.pwr.phases = 7 ∧ t.pwr.phase3End = some s.frc ∧
      t.pwr.rankOpen = [s.frc]) ∧
  (∀ s, s.boot.trial = true → s.boot.bank < 2 → Runs .confirm s fun t =>
    t.boot.trial = false ∧ t.fld .SYS_BOOTCFG 0 0 = s.boot.bank) ∧
  (∀ s, exec .seal s = .next { s with boot := { s.boot with sealed := true, holdSeal := none } }) ∧
  (∀ (s : State) f, s.boot.holdSeal = some f → f ≤ s.frc → Runs .sealTimeout s fun t => t.boot.sealed = true ∧ t.boot.holdSeal = none) ∧
  (∀ v s, s.boot.loaded = true → s.rg .SYS_ROLLFLOOR ≤ v → v ≤ s.boot.imgVer → v < 2 ^ 64 →
    Runs (.rollfloorWrite v) s fun t => t.rg .SYS_ROLLFLOOR = v ∧ t.boot = s.boot) ∧
  (∀ v s, v < s.rg .SYS_ROLLFLOOR ∨ s.boot.imgVer < v →
    Runs (.rollfloorWrite v) s fun t => t.rf = s.rf ∧ t.boot.err = 6)

/-- The next rank opens once every enabled tenant of the rank before has entered service, or 1 s after that rank opened. TENANT_AUTOSTART takes an enabled tenant of an open rank whose start conditions hold, that is OUT with no commit or command in progress and no kind 0 record since its last service, into service. Start-up ends at START_END when no enabled tenant is pending or the timeout has passed, with Walnut source 45. A released PERST and a link that trains, in recovery as x4, are entered; virtual functions stay at 0 before an image is applied. -/
def Obligations.StartupOpensRanksAndStartsTenants : Prop :=
  (∀ (s : State) f, s.pwr.rankOpen.getLast? = some f → s.pwr.rankOpen.length ≤ 15 → f + sec ≤ s.frc →
    exec .rankOpen s = .next { s with pwr := { s.pwr with rankOpen := s.pwr.rankOpen ++ [s.frc] } }) ∧
  (∀ (s : State) f, s.pwr.rankOpen.getLast? = some f → s.frc < f + sec →
    (∃ e ∈ s.enabledTenants, e.2.rank + 1 = s.pwr.rankOpen.length ∧ s.isStarted e.1 = false) →
    exec .rankOpen s = .next s) ∧
  (∀ t c s, s.tenCfg t = some c → s.pwr.phase3End.isSome = true → c.rank < s.pwr.rankOpen.length →
    s.startLacks t c = 0 → (s.tenant t).svc = .out → s.isStarted t = false → (s.tenant t).commit = false →
    (s.tenant t).amended = false → (s.tenant t).cmd = none →
    Runs (.tenantAutostart t) s fun u => (u.tenant t).svc = .in_ ∧ (u.tenant t).gen = (s.tenant t).gen ∧
      u.isStarted t = true) ∧
  (∀ (s : State) f, s.pwr.phase3End = some f → s.pwr.ended = false → (s.pendNow = [] ∨ f + s.startTmo * sec ≤ s.frc) →
    Runs .startEnd s fun t => t.pwr.ended = true ∧ t.pwr.complete = s.pendNow.isEmpty ∧ t.pwr.pend = s.pendNow) ∧
  (∀ h s, h < 4 → Runs (.perstRelease h) s fun t => (t.link h).perst = true ∧ t.rf = s.rf ∧ ∀ k, k ≠ h → t.link k = s.link k) ∧
  (∀ h w v n s, h < 4 → bit s.pwr.phases 1 = true → (s.link h).perst = true → (s.link h).up = false →
    s.linkThere h = true → Runs (.hostLinkUp h w v n) s fun t => (t.link h).up = true ∧ (t.link h).width = (if s.boot.recovery then 2 else w) ∧
      (t.link h).speed = v ∧ (s.boot.loaded = false → (t.link h).vfen = 0) ∧ ∀ k, k ≠ h → t.link k = s.link k)

/-- After phase 1, an SMBus Block Read of code 0x01 returns 4 and the bytes of SYS_RSTCAUSE; one of code 0x10 latches all words of the local health report, which codes 0x11 to 0x1F then return; before phase 1 ends there is no acknowledgement and nothing changes. A device that holds SMB_ALERT_N low answers the alert response with its address and releases the line, unless another device's lower address wins the read. A JTAG instruction that takes pins selects BYPASS unless SYSRST_N is low, and the one that opens the management space does so outside lifecycle TEST and RMA. -/
def Obligations.SmbusAndJtagAnswer : Prop :=
  (∀ s, bit s.pwr.phases 0 = true → Runs (.smbusBlockRead 1) s fun t =>
    t.pwr.smbData = 4 :: leBytes 4 (BitVec.ofNat 32 (readReg s .SYS_RSTCAUSE 0 0)).toNat ∧
    t = { s with pwr := { s.pwr with smbData := t.pwr.smbData } }) ∧
  (∀ s, bit s.pwr.phases 0 = true → Runs (.smbusBlockRead 16) s fun t =>
    t.pwr.smbWords = (List.range 16).map (fun w => BitVec.ofNat 32 (readReg s .SGE_LREP w 0)) ∧ t.rf = s.rf) ∧
  (∀ w s, bit s.pwr.phases 0 = true → 1 ≤ w → w < 16 → Runs (.smbusBlockRead (16 + w)) s fun t =>
    t.pwr.smbData = 4 :: leBytes 4 (s.pwr.smbWords.getD w 0).toNat ∧ t.pwr.smbWords = s.pwr.smbWords) ∧
  (∀ c s, bit s.pwr.phases 0 = false → exec (.smbusBlockRead c) s = .next s) ∧
  (∀ s, bit s.pwr.phases 0 = true → s.pwr.smbAlert = true → Runs (.smbusAlertResponse true) s fun t =>
    t.pwr.smbAlert = false ∧ t.pwr.smbData = [BitVec.ofNat 8 (0x58 + s.pwr.smbAddr)] ∧ t.rf = s.rf) ∧
  (∀ s, exec (.smbusAlertResponse false) s = .next s) ∧
  (∀ s, Runs (.jtagInstruction .idcode) s fun t => t.pwr.jtag = .idcode ∧ t.pwr.tdo / 4096 = 0x18640 ∧ t.rf = s.rf) ∧
  (∀ s, s.pwr.sysrst = false → Runs (.jtagInstruction .extest) s fun t => t.pwr.jtag = .bypass) ∧
  (∀ s, s.pwr.sysrst = true → Runs (.jtagInstruction .extest) s fun t => t.pwr.jtag = .extest) ∧
  (∀ s, s.fld .ATT_LC 2 0 ≠ 0 → s.fld .ATT_LC 2 0 ≠ 3 → Runs (.jtagInstruction .debug) s fun t => t.pwr.jtag = .bypass)

/-- Each group completes in every state and changes its own blocks alone, and no byte of memory but where said: pairing and Sage change pairing, the switch buffer, credits, the element and scheme programs it joins or releases, GOOSE, points, captures and their registers; a scrub the tests' records and, where it stops a program, that tenant's; scheme commands the runtime; a tick the runtime, what its stops, switches and freezes reach, and the journal; loop commands and passes the loops and their write edges; a tenant command the tenant, its engines' view of it, its window's registers, Walnut and outputs, and a reset also its mailbox memory, CAN requests, entries of Thyme and credits; a mailbox or queue-pair command the window it names, queue pairs, credits and outputs, and a point write also the writes that come before it; Hazel and the tamper commands the vault, attestation and their blocks; recorder commands Walnut, Almond and the capture units, a record only the bytes of its place; supervisor, domain and SMBus commands the power and boot state. None of them changes the FRC, a stream, a filter chain or a port. A loop pass has as premise that the loops in its order are loops of the table. -/
def Obligations.ServiceCommandsFrame : Prop :=
  (let upd (s t : State) : State := { s with
     crd := t.crd, dcr := t.dcr, evr := t.evr, evts := t.evts, ela := t.ela, freeN := t.freeN, goose := t.goose, ltl := t.ltl
     par := t.par, pts := t.pts, rf := t.rf, sch := t.sch, sge := t.sge, sw := t.sw, out := t.out }
   ∀ n p, ∀ i ∈ [Instr.hello, .heartbeat, .beacon, .digest, .summary, .notice, .seat, .joinMessage, .snapshot, .health, .capfire,
     .supmsg, .helloSend, .heartbeatSend, .beaconSend, .silenceDetect, .beaconSilenceDetect, .handshakeTimeout,
     .agreementWindowExpiry n p, .digestHoldExpiry n, .noticeDeliveryApply n, .seatActivation n, .joinwaitExpiry n, .silence,
     .unsilence, .join, .ship, .pairRelease, .joinCapture n, .joinApply n, .snapshotTake n, .parClearLink, .parClearAll,
     .parClearSel, .healthReport, .partnerReportLost], Leaves i [6, 12, 13, 25, 26, 30, 31, 64] upd) ∧
  (let upd (s t : State) : State := { s with evr := t.evr, ltl := t.ltl, pwr := t.pwr, rf := t.rf, sge := t.sge }
   ∀ n b (x : Int), ∀ i ∈ [Instr.tileBist n b, .portLoopback n b, .temperatureCheck x], Leaves i [26, 64] upd) ∧
  (let upd (s t : State) : State := { s with
     ela := t.ela, evr := t.evr, evts := t.evts, goose := t.goose, lop := t.lop, ltl := t.ltl, mbx := t.mbx, out := t.out
     pts := t.pts, rf := t.rf, sch := t.sch, sge := t.sge, ten := t.ten, ttu := t.ttu }
   ∀ s c u p q, (Runs (.sramScrub c u p) s fun t => t = { upd s t with now := t.now }) ∧
     Runs (.dramScrub c q) s fun t => t = { upd s t with now := t.now }) ∧
  (let upd (s t : State) : State := { s with sch := t.sch, rf := t.rf, evts := t.evts, bus := t.bus }
   ∀ q g, ∀ i ∈ [Instr.startWarm, .startCold, .chgStage g, .chgCommit, .chgDiscard, .schClearSel, .schClearAll,
     .schTickevRead q, .eventActivation], Leaves i [14] upd) ∧
  (let upd (s t : State) : State := { s with
     sch := t.sch, rf := t.rf, boot := t.boot, edges := t.edges, ela := t.ela, evr := t.evr, goose := t.goose, jrnl := t.jrnl
     lop := t.lop, ltl := t.ltl, mbx := t.mbx, out := t.out, par := t.par, ten := t.ten }
   (∀ s, (Runs .runtimeTick s fun t => t = { upd s t with now := t.now }) ∧
     Runs .freewheelTick s fun t => t = { upd s t with now := t.now }) ∧
   ∀ n, n < 4096 → Leaves (.changeStaged n) [14, 64, 4096 + n] upd) ∧
  (let upd (s t : State) : State := { s with lop := t.lop, rf := t.rf, bus := t.bus }
   (∀ q n w v, n < 64 → ∀ i ∈ [Instr.loopRun n, .loopHold n, .loopSafe n, .loopOff n, .coefWrite n w v, .lopEvRead q,
     .lopFcntRead q n], Leaves i [16] upd) ∧ ∀ p g i v, Leaves (.pulseInEdge p) [16] upd ∧ Leaves (.gainWrite g i v) [16, 17] upd) ∧
  (let upd (s t : State) : State := { s with lop := t.lop, rf := t.rf, edges := t.edges, evr := t.evr, freeN := t.freeN }
   ∀ s, (∀ n ∈ s.lop.order, n < 64) →
     (Runs .loopPass s fun t => t = { upd s t with now := t.now } ∧ RegsKept [16, 64] s t) ∧
     Runs .loopFreewheel s fun t => t = { upd s t with now := t.now } ∧ RegsKept [16, 64] s t) ∧
  (let upd (s t : State) : State := { s with
     ten := t.ten, ela := t.ela, evr := t.evr, lop := t.lop, mbx := t.mbx, out := t.out, par := t.par, pwr := t.pwr
     rf := t.rf, sch := t.sch, freeN := t.freeN }
   ∀ n v b, n < 4096 → ∀ i ∈ [Instr.start n v, .freeze n v, .freezeTimeout n, .resume n v, .save n v, .saveDone n b, .restore n v,
     .release n v], Leaves i [10, 64, 4096 + n] upd) ∧
  (let upd (s t : State) : State := { s with
     ten := t.ten, ela := t.ela, evr := t.evr, evts := t.evts, lop := t.lop, ltl := t.ltl, mbx := t.mbx, out := t.out
     par := t.par, pwr := t.pwr, rf := t.rf, sch := t.sch, goose := t.goose, pts := t.pts, ttu := t.ttu, crd := t.crd
     can := t.can, qps := t.qps, mem := t.mem }
   ∀ n v x, n < 4096 →
     Leaves (.reset n v) [10, 14, 20, 21, 22, 23, 25, 64, 4096 + n] upd (fun a => a / 0x10000 = 4096 + n) ∧
     Leaves (.restoreDone n x) [10, 64, 4096 + n] upd) ∧
  (let upd (s t : State) : State := { s with
     mbx := t.mbx, rf := t.rf, sch := t.sch, att := t.att, amd := t.amd, evr := t.evr, out := t.out, mem := t.mem }
   (∀ w m, w < 4160 → ∀ i ∈ [Instr.doorbell w m, .d2hSlotFree w m, .mailboxReply w, .mailboxTimeout w],
     Leaves i [4096 + w] upd (fun a => a / 0x10000 = 4096 + w)) ∧
   (∀ n g, n < 4096 → ∀ i ∈ [Instr.info n, .forceSet n, .forceClear n, .forceList n, .mbxChgStage n g, .mbxChgCommit n,
     .mbxChgDiscard n, .time n], Leaves i [64, 4096 + n] upd) ∧
   ∀ h r, h < 4 → ∀ i ∈ [Instr.attest h, .amdStage h r, .amdDiscard h], Leaves i [64, 8192 + 16 * h] upd) ∧
  (let upd (s t : State) : State := { s with
     qps := t.qps, crd := t.crd, rf := t.rf, mbx := t.mbx, out := t.out, evr := t.evr, evts := t.evts, pts := t.pts
     pntQ := t.pntQ, goose := t.goose, sch := t.sch, sw := { s.sw with hostQ := t.sw.hostQ }, bus := t.bus, links := t.links }
   (∀ w q v d l r, w < 4160 → q < 69 →
     (∀ i ∈ [Instr.sqTailWrite w q v, .cqHeadWrite w q v, .qpEnable w q v, .descriptorFetch w q d, .ptRead w q l, .capRead w q,
       .nop w q], Leaves i [4096 + w] upd) ∧ Leaves (.ringRead w q) [30, 4096 + w] upd ∧
     Leaves (.ptWrite w q r) [11, 20, 21, 22, 23, 64, 4096 + w] upd) ∧
   (∀ h c, h < 4 → c < 8 → Leaves (.rxBuf h c) [] upd ∧ Leaves (.hostRxDelivery h c) [3, 8192 + 16 * h] upd) ∧
   (∀ q n k v, n < 4096 → k < 16 → Leaves (.tenCntRead q n k) [4096 + n] upd ∧ Leaves (.tenPtRead n v) [4096 + n] upd ∧
     Leaves (.tenPtWrite n v) [11, 20, 21, 22, 23, 64, 4096 + n] upd) ∧
   ∀ h a b c, Leaves (.perstRelease h) [] upd ∧ Leaves (.hostLinkUp h a b c) [64] upd) ∧
  (let upd (s t : State) : State := { s with
     kvs := t.kvs, att := t.att, pwr := t.pwr, evr := t.evr, ltl := t.ltl, rf := t.rf, freeN := t.freeN }
   ∀ n b x, ∀ i ∈ [Instr.derive, .importKey b, .generate, .verify, .keyCommit, .keyDiscard, .invalidate, .vaultInit,
     .keyCommandDone, .expiryCheck, .graceEnd n, .tamper n, .zeroise n, .identityRederive n, .apply x, .request],
     Leaves i [27, 28, 29, 64] upd) ∧
  (let upd (s t : State) : State := { s with
     dcr := t.dcr, crd := t.crd, evr := t.evr, ltl := t.ltl, rf := t.rf, bus := t.bus, mem := t.mem }
   (∀ q n k b, ∀ i ∈ [Instr.swtrig n k, .dcrArm, .dcrDisarm, .dcrFree, .holdoffEnd n, .ltlInc n k, .ltlHadd n b k,
     .histogramSample n, .onSecondsTick, .almondFlush, .rowClose n, .dcrUcntRead q n], Leaves i [30, 31, 32, 64] upd) ∧
   (∀ q k, k < 3 → Leaves (.evrCntRead q k) [64] upd) ∧
   ∀ s, Runs .recordWrite s fun t => t = { upd s t with now := t.now } ∧ RegsKept [64] s t ∧
     ∀ a, a < evrRecord (s.rg .EVR_NEXTSEQ) ∨ evrRecord (s.rg .EVR_NEXTSEQ) + 256 ≤ a → memByte t.mem a = memByte s.mem a) ∧
  (let upd (s t : State) : State := { s with pwr := t.pwr, boot := t.boot, evr := t.evr, ltl := t.ltl, rf := t.rf, amd := t.amd }
   ∀ n j r b, ∀ i ∈ [Instr.supRestartComplete, .rankOpen, .wdogKick n, .pllStop n, .smbusBlockRead n, .smbusAlertResponse b,
     .jtagInstruction j, .confirm, .rollfloorWrite n, .seal, .sealTimeout, .warningClear, .domainOn n, .supplyWarning,
     .stage r, .discard], Leaves i [0, 1, 64] upd)

/-- There is a register that starts at 0xFFFF_FFFF_FFFF_FFFF and takes each byte least significant bit first: for each bit it shifts right by one, and where the bit that leaves differs from the bit of the byte the reflected polynomial 0xC96C_5795_D787_0F42 is applied; the CRC-64 of any octets is the complement of that register after them. The reflected polynomial is 0x42F0_E1EB_A9EA_3693 with its 64 bits reversed. Over the nine ASCII octets "123456789" the CRC is 0x995D_C9BB_DF19_39FA. -/
def Obligations.Crc64IsBitSerial : Prop :=
  (∃ reg : List Byte → Nat, reg [] = 0xFFFFFFFFFFFFFFFF ∧
    (∀ bs b, reg (bs ++ [b]) = (List.range 8).foldl (fun r k =>
      if bit r 0 = bit b.toNat k then r / 2 else r / 2 ^^^ 0xC96C5795D7870F42) (reg bs)) ∧
    ∀ bs, crc64 bs = 0xFFFFFFFFFFFFFFFF - reg bs) ∧
  (∀ k, k < 64 → bit 0xC96C5795D7870F42 k = bit 0x42F0E1EBA9EA3693 (63 - k)) ∧
  crc64 [0x31, 0x32, 0x33, 0x34, 0x35, 0x36, 0x37, 0x38, 0x39] = 0x995DC9BBDF1939FA

/-- ST_MODE: a write of the value in force changes nothing; while a port with a station role is UP any other write is ignored and sets MODE_REFUSED; with every station port DOWN a write of 1 is ignored, and sets MODE_REFUSED, when either station role has no port, and every other write puts its value in force. Forwarding: WRITE of a key that is enabled and equals the key of another listed entry sets FDB_DUP and changes nothing else; every other WRITE replaces the key and the action of entry INDEX together, and no other entry or register. -/
def Obligations.StationModeAndForwardingWrites : Prop :=
  (∀ v (s : State),
    let station (n : Nat) : Prop := n < 8 ∧ (s.role n = Role.stA ∨ s.role n = Role.stB)
    (v = s.hsr → exec (.stModeWrite v) s = .next s) ∧
    (v ≠ s.hsr → (∃ n, station n ∧ (s.prt n).up = true) →
      exec (.stModeWrite v) s = .next (s.setFlag .PRP_STAT 1)) ∧
    (v ≠ s.hsr → (∀ n, station n → (s.prt n).up = false) →
      let absent : Prop := (∀ n, n < 8 → s.role n ≠ Role.stA) ∨ ∀ n, n < 8 → s.role n ≠ Role.stB
      (v = true ∧ absent → exec (.stModeWrite v) s = .next (s.setFlag .PRP_STAT 1)) ∧
      (v = false ∨ ¬ absent → Runs (.stModeWrite v) s fun t =>
        t.hsr = v ∧ t = { s with rf := t.rf } ∧ RegsKept [7] s t))) ∧
  (∀ (s : State),
    let i := s.fld .SWC_FDBSEL 11 0
    let dup : Prop := bit (s.rg .SWC_FDBKEY) 63 = true ∧ ∃ e ∈ s.sw.fdb, e.1 ≠ i ∧ e.2.key = s.rg .SWC_FDBKEY
    (dup → exec .fdbWrite s = .next (s.setFlag .SWC_STAT 0)) ∧
    (¬ dup → Runs .fdbWrite s fun t =>
      (Tbl.get {} t.sw.fdb i).key = s.rg .SWC_FDBKEY ∧ (Tbl.get {} t.sw.fdb i).act = s.rg .SWC_FDBACT ∧
      (∀ j, j ≠ i → Tbl.get {} t.sw.fdb j = Tbl.get {} s.sw.fdb j) ∧
      t = { s with sw := { s.sw with fdb := t.sw.fdb } }))

/-- From every state whose byte memory is in canonical form (addresses strictly rising, no byte listed that equals what an unlisted address reads as) and whose free-running counter is below 2^64, a step, whatever command stands at the front of the queue or on an empty queue, gives a state with both. -/
def Obligations.StepKeepsInvariant : Prop :=
  ∀ s t : State, s.Inv → step s = .next t → t.Inv
end

