-- ==== Sys2Proof/Laws/Table.lean ====
section
/-! SUPPORT. Sparse tables: a read after a write, and the canonical form under every operation on them. -/
namespace Sys2Proof.Machine

variable {α : Type}

theorem Tbl.get_ins (d : α) (m : Tbl α) (k j : Nat) (v : α) :
    Tbl.get d (Tbl.ins m k v) j = if k = j then v else Tbl.get d m j := by
  induction m with
  | nil => rfl
  | cons e m ih =>
    obtain ⟨a, w⟩ := e
    by_cases h : a = k
    · subst h
      by_cases hj : a = j <;> simp [Tbl.ins, Tbl.get, hj]
    · by_cases hl : k < a
      · simp [Tbl.ins, h, hl, Tbl.get]
      · by_cases hj : a = j
        · subst hj
          simp [Tbl.ins, h, hl, Tbl.get, Ne.symm h]
        · simp [Tbl.ins, h, hl, Tbl.get, hj, ih]

theorem Tbl.get_del (d : α) (m : Tbl α) (k j : Nat) :
    Tbl.get d (Tbl.del m k) j = if k = j then d else Tbl.get d m j := by
  induction m with
  | nil => simp [Tbl.del, Tbl.get]
  | cons e m ih =>
    obtain ⟨a, w⟩ := e
    by_cases h : a = k
    · subst h
      by_cases hj : a = j
      · simpa [Tbl.del, Tbl.get, hj] using ih
      · simp [Tbl.del, Tbl.get, ih, hj]
    · by_cases hj : a = j
      · subst hj
        simp [Tbl.del, h, Tbl.get, Ne.symm h]
      · simp [Tbl.del, h, Tbl.get, ih, hj]

/-- A read after a write: the value written at its key, what was there at every other key. -/
theorem Tbl.get_put [DecidableEq α] (d : α) (m : Tbl α) (k j : Nat) (v : α) :
    Tbl.get d (Tbl.put d m k v) j = if k = j then v else Tbl.get d m j := by
  by_cases h : v = d
  · simp [Tbl.put, h, Tbl.get_del]
  · simp [Tbl.put, h, Tbl.get_ins]

/-- The same with another default on reading, at another key. -/
theorem Tbl.get_put_other [DecidableEq α] (d e : α) (m : Tbl α) {k j : Nat} (v : α) (h : k ≠ j) :
    Tbl.get e (Tbl.put d m k v) j = Tbl.get e m j := by
  by_cases hv : v = d
  · simp [Tbl.put, hv, Tbl.get_del, h]
  · simp [Tbl.put, hv, Tbl.get_ins, h]

@[simp] theorem Tbl.get_put_same [DecidableEq α] (d : α) (m : Tbl α) (k : Nat) (v : α) :
    Tbl.get d (Tbl.put d m k v) k = v := by simp [Tbl.get_put]

theorem Tbl.get_put_ne [DecidableEq α] (d : α) (m : Tbl α) {k j : Nat} (v : α) (h : k ≠ j) :
    Tbl.get d (Tbl.put d m k v) j = Tbl.get d m j := by simp [Tbl.get_put, h]

@[simp] theorem Tbl.get_upd_same [DecidableEq α] (d : α) (m : Tbl α) (k : Nat) (f : α → α) :
    Tbl.get d (Tbl.upd d m k f) k = f (Tbl.get d m k) := by simp [Tbl.upd]

theorem Tbl.get_upd_ne [DecidableEq α] (d : α) (m : Tbl α) {k j : Nat} (f : α → α) (h : k ≠ j) :
    Tbl.get d (Tbl.upd d m k f) j = Tbl.get d m j := by simp [Tbl.upd, Tbl.get_put, h]

theorem Tbl.get_foldl_put [DecidableEq α] (d : α) (g : Nat → α) (l m : Tbl α) (k : Nat) :
    Tbl.get d (l.foldl (fun t e => Tbl.put d t e.1 (g e.1)) m) k = if k ∈ l.map (·.1) then g k else Tbl.get d m k := by
  induction l generalizing m with
  | nil => simp
  | cons e l ih =>
    rw [List.foldl_cons, ih]
    by_cases h : k ∈ l.map (·.1)
    · simp [h]
    · by_cases he : e.1 = k
      · subst he; simp [h]
      · simp [h, Ne.symm he, Tbl.get_put_ne _ _ _ he]

theorem Tbl.get_of_not_mem (d : α) (m : Tbl α) {k : Nat} (h : k ∉ m.map (·.1)) : Tbl.get d m k = d := by
  induction m with
  | nil => rfl
  | cons e m ih =>
    simp only [List.map_cons, List.mem_cons, not_or] at h
    simp [Tbl.get, Ne.symm h.1, ih h.2]

/-- Every key is changed, as long as a key that is not listed is not. -/
theorem Tbl.get_each [DecidableEq α] (d : α) (m : Tbl α) (f : Nat → α → α) (k : Nat) (h : f k d = d) :
    Tbl.get d (Tbl.each d m f) k = f k (Tbl.get d m k) := by
  unfold Tbl.each
  rw [Tbl.get_foldl_put d (fun j => f j (Tbl.get d m j))]
  by_cases hk : k ∈ m.map (·.1)
  · simp [hk]
  · simp [hk, Tbl.get_of_not_mem d m hk, h]

/-- What a clear leaves of a counter: what the present FRC count has counted (R9). -/
@[simp] theorem Tbl.get_since (now before : Tbl Nat) (k : Nat) :
    Tbl.get 0 (Tbl.since now before) k = Tbl.get 0 now k - Tbl.get 0 before k :=
  Tbl.get_each 0 now _ k (by simp)

/-- A filter by key keeps or drops what a key holds. -/
theorem Tbl.get_filter_key (d : α) (m : Tbl α) (p : Nat → Bool) (a : Nat) :
    Tbl.get d (m.filter fun e => p e.1) a = if p a = true then Tbl.get d m a else d := by
  induction m with
  | nil => simp [Tbl.get]
  | cons e m ih =>
    obtain ⟨k, v⟩ := e
    by_cases hk : k = a
    · subst hk
      by_cases hp : p k = true
      · simp [hp, Tbl.get]
      · rw [List.filter_cons_of_neg (by simpa using hp), ih]
        simp [hp]
    · by_cases hp : p k = true
      · rw [List.filter_cons_of_pos (by simpa using hp)]
        simp [Tbl.get, hk, ih]
      · rw [List.filter_cons_of_neg (by simpa using hp), ih]
        simp [Tbl.get, hk]

/-! The canonical form -/

/-- Keys rise from above a bound. -/
def Tbl.above (b : Option Nat) : Tbl α → Prop
  | [] => True
  | (k, _) :: rest => (∀ x, b = some x → x < k) ∧ Tbl.above (some k) rest

theorem Tbl.rising_cons (j k : Nat) (w v : α) (m : Tbl α) :
    Tbl.rising ((j, w) :: (k, v) :: m) = (decide (j < k) && Tbl.rising ((k, v) :: m)) := rfl

theorem Tbl.above_some_iff (j : Nat) (w : α) (m : Tbl α) : Tbl.rising ((j, w) :: m) = true ↔ Tbl.above (some j) m := by
  induction m generalizing j w with
  | nil => simp [Tbl.rising, Tbl.above]
  | cons e m ih =>
    obtain ⟨k, v⟩ := e
    simp [Tbl.rising_cons, Tbl.above, ih]

theorem Tbl.rising_iff (m : Tbl α) : Tbl.rising m = true ↔ Tbl.above none m := by
  cases m with
  | nil => simp [Tbl.rising, Tbl.above]
  | cons e m =>
    obtain ⟨k, v⟩ := e
    simp [Tbl.above_some_iff, Tbl.above]

theorem Tbl.above_weaken {b c : Option Nat} {m : Tbl α} (h : Tbl.above b m) (hc : ∀ x, c = some x → ∃ y, b = some y ∧ x ≤ y) :
    Tbl.above c m := by
  cases m with
  | nil => trivial
  | cons e m =>
    obtain ⟨k, v⟩ := e
    refine ⟨fun x hx => ?_, h.2⟩
    obtain ⟨y, hy, hxy⟩ := hc x hx
    exact Nat.lt_of_le_of_lt hxy (h.1 y hy)

theorem Tbl.above_filter (p : Nat × α → Bool) {b : Option Nat} {m : Tbl α} (h : Tbl.above b m) : Tbl.above b (m.filter p) := by
  induction m generalizing b with
  | nil => trivial
  | cons e m ih =>
    obtain ⟨k, v⟩ := e
    by_cases hp : p (k, v) = true
    · simpa [List.filter_cons, hp, Tbl.above] using ⟨h.1, ih h.2⟩
    · rw [List.filter_cons_of_neg hp]
      refine ih ?_
      cases b with
      | none => exact Tbl.above_weaken h.2 (by simp)
      | some x => exact Tbl.above_weaken h.2 (by rintro y ⟨⟩; exact ⟨k, rfl, Nat.le_of_lt (h.1 x rfl)⟩)

theorem Tbl.del_eq_filter (m : Tbl α) (k : Nat) : Tbl.del m k = m.filter fun e => decide (e.1 ≠ k) := by
  induction m with
  | nil => rfl
  | cons e m ih =>
    obtain ⟨a, w⟩ := e
    by_cases h : a = k <;> simp [Tbl.del, h, ih]

theorem Tbl.above_ins {b : Option Nat} {m : Tbl α} (k : Nat) (v : α) (h : Tbl.above b m) (hb : ∀ x, b = some x → x < k) :
    Tbl.above b (Tbl.ins m k v) := by
  induction m generalizing b with
  | nil => exact ⟨hb, trivial⟩
  | cons e m ih =>
    obtain ⟨a, w⟩ := e
    by_cases ha : a = k
    · subst ha
      simpa [Tbl.ins, Tbl.above] using h
    · by_cases hl : k < a
      · simp only [Tbl.ins, ha, hl, if_true, if_false]
        exact ⟨hb, by rintro x ⟨⟩; exact hl, h.2⟩
      · simp only [Tbl.ins, ha, hl, if_false]
        exact ⟨h.1, ih h.2 (by rintro x ⟨⟩; omega)⟩

theorem Tbl.all_ins (p : Nat × α → Bool) (m : Tbl α) (k : Nat) (v : α) (h : m.all p = true) (hv : p (k, v) = true) :
    (Tbl.ins m k v).all p = true := by
  induction m with
  | nil => simpa [Tbl.ins] using hv
  | cons e m ih =>
    obtain ⟨a, w⟩ := e
    simp only [List.all_cons, Bool.and_eq_true] at h
    by_cases ha : a = k
    · simp [Tbl.ins, ha, hv, h.2]
    · by_cases hl : k < a <;> simp [Tbl.ins, ha, hl, hv, h.1, h.2, ih h.2]

theorem Tbl.wf_iff [DecidableEq α] (d : α) (m : Tbl α) : Tbl.wf d m = true ↔ Tbl.above none m ∧ ∀ e ∈ m, e.2 ≠ d := by
  simp [Tbl.wf, Tbl.rising_iff]

/-- A filter keeps the canonical form. -/
theorem Tbl.wf_filter [DecidableEq α] (d : α) (m : Tbl α) (p : Nat × α → Bool) (h : Tbl.wf d m = true) :
    Tbl.wf d (m.filter p) = true := by
  rw [Tbl.wf_iff] at *
  exact ⟨Tbl.above_filter p h.1, fun e he => h.2 e ((List.mem_filter.1 he).1)⟩

/-- A write keeps the canonical form. -/
theorem Tbl.wf_put [DecidableEq α] (d : α) (m : Tbl α) (k : Nat) (v : α) (h : Tbl.wf d m = true) :
    Tbl.wf d (Tbl.put d m k v) = true := by
  by_cases hv : v = d
  · simpa [Tbl.put, hv, Tbl.del_eq_filter] using Tbl.wf_filter d m (fun e => decide (e.1 ≠ k)) h
  · rw [Tbl.wf_iff] at *
    have hall := Tbl.all_ins (fun e => decide (e.2 ≠ d)) m k v (by simpa using h.2) (by simpa using hv)
    simp only [Tbl.put, hv, if_false]
    exact ⟨Tbl.above_ins k v h.1 (by simp), by simpa using hall⟩

theorem Tbl.wf_upd [DecidableEq α] (d : α) (m : Tbl α) (k : Nat) (f : α → α) (h : Tbl.wf d m = true) :
    Tbl.wf d (Tbl.upd d m k f) = true := Tbl.wf_put d m k _ h

/-! The byte memory -/

@[simp] theorem memByte_memPut_same (m : List Host.Cell) (a : Nat) (b : Byte) : memByte (memPut m a b) a = b := by
  simp [memByte, memPut]

theorem memByte_memPut_ne (m : List Host.Cell) {a x : Nat} (b : Byte) (h : a ≠ x) :
    memByte (memPut m a b) x = memByte m x := by simp [memByte, memPut, Tbl.get_put_ne _ _ _ h]

/-- Bytes outside those written keep their values. -/
theorem memByte_memPutAll_out (bs : List Byte) (m : List Host.Cell) (a x : Nat) (h : x < a ∨ a + bs.length ≤ x) :
    memByte (memPutAll m a bs) x = memByte m x := by
  induction bs generalizing m a with
  | nil => rfl
  | cons b bs ih =>
    simp only [List.length_cons] at h
    rw [memPutAll, ih _ _ (by omega), memByte_memPut_ne _ _ (by omega)]

/-- Each byte written stands at its place. -/
theorem memByte_memPutAll_in (bs : List Byte) (m : List Host.Cell) (a i : Nat) (h : i < bs.length) :
    memByte (memPutAll m a bs) (a + i) = bs[i] := by
  induction bs generalizing m a i with
  | nil => simp at h
  | cons b bs ih =>
    cases i with
    | zero => rw [memPutAll, memByte_memPutAll_out _ _ _ _ (by omega)]; simp
    | succ i =>
      simp only [List.length_cons] at h
      have := ih (memPut m a b) (a + 1) i (by omega)
      simpa [memPutAll, Nat.add_comm, Nat.add_left_comm] using this

/-- A read of the bytes written gives them back. -/
theorem memGet_memPutAll (bs : List Byte) (m : List Host.Cell) (a : Nat) : memGet (memPutAll m a bs) a bs.length = bs := by
  have key : ∀ (n a : Nat) (m : List Host.Cell), memGet m a n = (List.range n).map fun i => memByte m (a + i) := by
    intro n
    induction n with
    | zero => intro a m; rfl
    | succ n ih =>
      intro a m
      rw [memGet, ih, List.range_succ_eq_map]
      simp [Function.comp_def, Nat.add_comm, Nat.add_left_comm]
  rw [key]
  apply List.ext_getElem
  · simp
  · intro i h1 h2
    simp [memByte_memPutAll_in bs m a i h2]

theorem Memory.wf_memPut (m : List Host.Cell) (a : Nat) (b : Byte) (h : Memory.wf m = true) : Memory.wf (memPut m a b) = true :=
  Tbl.wf_put 0 m a b h

/-- Every memory operation keeps the canonical form: writing bytes, and clearing spans (memClear, resets). -/
theorem Memory.wf_memPutAll (bs : List Byte) (m : List Host.Cell) (a : Nat) (h : Memory.wf m = true) :
    Memory.wf (memPutAll m a bs) = true := by
  induction bs generalizing m a with
  | nil => exact h
  | cons b bs ih => exact ih _ _ (Memory.wf_memPut m a b h)

theorem Memory.wf_filter (m : List Host.Cell) (p : Host.Cell → Bool) (h : Memory.wf m = true) : Memory.wf (m.filter p) = true :=
  Tbl.wf_filter 0 m p h

end Sys2Proof.Machine
end

