-- ==== Sys2Proof/Laws/Registers.lean ====
section
/-! SUPPORT. The register file: a read after a write, bits set and cleared, and which 64 KiB blocks an update touches. -/
namespace Sys2Proof.Machine

/-! Bits -/

theorem bit_eq_testBit (v i : Nat) : bit v i = v.testBit i := by
  simp [bit, Nat.testBit_eq_decide_div_mod_eq]

theorem bit_mod_two_pow (v n i : Nat) (h : i < n) : bit (v % 2 ^ n) i = bit v i := by
  simp [bit_eq_testBit, Nat.testBit_mod_two_pow, h]

theorem bit_or_two_pow (v b i : Nat) : bit (v ||| 2 ^ b) i = (bit v i || decide (b = i)) := by
  simp [bit_eq_testBit, Nat.testBit_two_pow]

theorem bit_sub_two_pow {v b : Nat} (h : bit v b = true) (i : Nat) : bit (v - 2 ^ b) i = (bit v i && decide (b ≠ i)) := by
  simp only [bit, decide_eq_true_eq] at h
  have hb := Nat.two_pow_pos b
  have hv : 2 ^ b ≤ v := by
    rcases Nat.lt_or_ge v (2 ^ b) with hlt | hge
    · simp [Nat.div_eq_of_lt hlt] at h
    · exact hge
  rcases Nat.lt_trichotomy i b with hi | rfl | hi
  · obtain ⟨d, rfl⟩ := Nat.exists_eq_add_of_lt hi
    have e : 2 ^ (i + d + 1) = 2 ^ i * (2 * 2 ^ d) := by rw [Nat.pow_succ, Nat.pow_add]; ac_rfl
    have hle : 2 * 2 ^ d ≤ v / 2 ^ i := by
      rw [Nat.le_div_iff_mul_le (Nat.two_pow_pos i)]
      have : 2 * 2 ^ d * 2 ^ i = 2 ^ (i + d + 1) := by rw [e]; ac_rfl
      omega
    have hs : (v - 2 ^ (i + d + 1)) / 2 ^ i = v / 2 ^ i - 2 * 2 ^ d := by rw [e, Nat.sub_mul_div]
    have hne : i + d + 1 ≠ i := by omega
    simp only [bit, hs, ne_eq, hne, not_false_eq_true, decide_true, Bool.and_true, decide_eq_decide]
    omega
  · have hs : (v - 2 ^ i) / 2 ^ i = v / 2 ^ i - 1 := by simpa using Nat.sub_mul_div v (2 ^ i) 1
    simp only [bit, hs]
    simp
    omega
  · have hr : 2 ^ b ≤ v % 2 ^ i := by
      rcases Nat.lt_or_ge (v % 2 ^ i) (2 ^ b) with hlt | hge
      · have : v / 2 ^ b % 2 = v % 2 ^ i / 2 ^ b % 2 := by
          obtain ⟨d, rfl⟩ := Nat.exists_eq_add_of_lt hi
          rw [show b + d + 1 = b + (d + 1) by omega, Nat.pow_add, Nat.mod_mul_right_div_self, Nat.mod_mod_of_dvd]
          exact ⟨2 ^ d, by rw [Nat.pow_succ]; ac_rfl⟩
        rw [this, Nat.div_eq_of_lt hlt] at h
        simp at h
      · exact hge
    have hs : (v - 2 ^ b) / 2 ^ i = v / 2 ^ i := by
      have hd := Nat.div_add_mod v (2 ^ i)
      have hlt := Nat.mod_lt v (Nat.two_pow_pos i)
      have e : v - 2 ^ b = (v % 2 ^ i - 2 ^ b) + 2 ^ i * (v / 2 ^ i) := by omega
      rw [e, Nat.add_mul_div_left _ _ (Nat.two_pow_pos i), Nat.div_eq_of_lt (by omega)]
      omega
    have hne : b ≠ i := by omega
    simp [bit, hs, hne]

theorem bit_clrBit (v b i : Nat) : bit (clrBit v b) i = (bit v i && decide (b ≠ i)) := by
  unfold clrBit
  by_cases h : bit v b = true
  · rw [if_pos h, bit_sub_two_pow h]
  · rw [if_neg h]
    by_cases hi : b = i
    · subst hi; simpa using h
    · simp [hi]

/-! A read after a write -/

@[simp] theorem rg_setRg_same (s : State) (r : Reg) (v i j : Nat) : (s.setRg r v i j).rg r i j = v % 2 ^ 64 := by
  simp [State.rg, State.setRg, BitVec.toNat_ofNat]

theorem rg_setRg_ne (s : State) (r q : Reg) (v : Nat) {i j k l : Nat} (h : regAddr r i j ≠ regAddr q k l) :
    (s.setRg r v i j).rg q k l = s.rg q k l := by
  simp only [State.rg, State.setRg]
  rw [Tbl.get_put_other _ _ _ _ h]

@[simp] theorem rg_markRaised (s : State) (r q : Reg) (m i j k l : Nat) : (s.markRaised r m i j).rg q k l = s.rg q k l := rfl

theorem rg_lt (s : State) (r : Reg) (i j : Nat) : s.rg r i j < 2 ^ 64 := (Tbl.get _ s.rf (regAddr r i j)).isLt

/-- A register bit after hardware sets bit b of it. -/
theorem flag_setFlag (s : State) (r : Reg) {b c : Nat} (i j : Nat) (hc : c < 64) :
    (s.setFlag r b i j).flag r c i j = (s.flag r c i j || decide (b = c)) := by
  simp only [State.flag, State.setFlag, State.orRg, rg_markRaised, rg_setRg_same]
  rw [bit_mod_two_pow _ _ _ hc, bit_or_two_pow]

@[simp] theorem flag_setFlag_same (s : State) (r : Reg) {b : Nat} (i j : Nat) (hb : b < 64) :
    (s.setFlag r b i j).flag r b i j = true := by simp [flag_setFlag s r i j hb]

/-- A register bit after bit b of it is cleared. -/
theorem flag_clrFlag (s : State) (r : Reg) {b c : Nat} (i j : Nat) (hc : c < 64) :
    (s.clrFlag r b i j).flag r c i j = (s.flag r c i j && decide (b ≠ c)) := by
  simp only [State.flag, State.clrFlag, rg_setRg_same]
  rw [bit_mod_two_pow _ _ _ hc, bit_clrBit]

@[simp] theorem flag_clrFlag_same (s : State) (r : Reg) {b : Nat} (i j : Nat) (hb : b < 64) :
    (s.clrFlag r b i j).flag r b i j = false := by simp [flag_clrFlag s r i j hb]

theorem satInc_lt (w v : Nat) : satInc w v < 2 ^ w := by
  unfold satInc
  have := Nat.two_pow_pos w
  split <;> omega

theorem satAdd_lt (w v n : Nat) : satAdd w v n < 2 ^ w := by
  unfold satAdd
  have := Nat.two_pow_pos w
  split <;> omega

@[simp] theorem rg_incRg_same (s : State) (r : Reg) (i j : Nat) : (s.incRg r i j).rg r i j = satInc 32 (s.rg r i j) := by
  have h := satInc_lt 32 (s.rg r i j)
  simp only [State.incRg, rg_setRg_same]
  exact Nat.mod_eq_of_lt (by omega)

@[simp] theorem rg_addRg64_same (s : State) (r : Reg) (n i j : Nat) :
    (s.addRg64 r n i j).rg r i j = satAdd 64 (s.rg r i j) n := by
  have h := satAdd_lt 64 (s.rg r i j) n
  simp only [State.addRg64, rg_setRg_same]
  exact Nat.mod_eq_of_lt h

/-! The updates of one register change nothing but the register file and the record of the present FRC count -/

theorem setRg_eq (s : State) (r : Reg) (v i j : Nat) : s.setRg r v i j = { s with rf := (s.setRg r v i j).rf } := rfl
theorem setFlag_eq (s : State) (r : Reg) (b i j : Nat) : s.setFlag r b i j = { s with rf := (s.setFlag r b i j).rf, now := (s.setFlag r b i j).now } := rfl
theorem clrFlag_eq (s : State) (r : Reg) (b i j : Nat) : s.clrFlag r b i j = { s with rf := (s.clrFlag r b i j).rf } := rfl
theorem orRg_eq (s : State) (r : Reg) (m i j : Nat) : s.orRg r m i j = { s with rf := (s.orRg r m i j).rf, now := (s.orRg r m i j).now } := rfl
theorem setFld_eq (s : State) (r : Reg) (h l v i j : Nat) : s.setFld r h l v i j = { s with rf := (s.setFld r h l v i j).rf } := rfl
theorem incRg_eq (s : State) (r : Reg) (i j : Nat) : s.incRg r i j = { s with rf := (s.incRg r i j).rf } := rfl
theorem addRg64_eq (s : State) (r : Reg) (n i j : Nat) : s.addRg64 r n i j = { s with rf := (s.addRg64 r n i j).rf } := rfl

/-- An update changes the register file and the record of the present FRC count alone. Frames of updates in a row are put
together with `rfOnly.trans`, which is quick where `rfl` on the whole is not. -/
def rfOnly (s t : State) : Prop := t = { s with rf := t.rf, now := t.now }

theorem rfOnly.trans {s t u : State} (h : rfOnly s t) (g : rfOnly t u) : rfOnly s u := by
  unfold rfOnly at *
  rw [h] at g
  exact g

theorem rfOnly_refl (s : State) : rfOnly s s := rfl
theorem rfOnly_setRg (s : State) (r : Reg) (v i j : Nat) : rfOnly s (s.setRg r v i j) := rfl
theorem rfOnly_setFlag (s : State) (r : Reg) (b i j : Nat) : rfOnly s (s.setFlag r b i j) := rfl
theorem rfOnly_clrFlag (s : State) (r : Reg) (b i j : Nat) : rfOnly s (s.clrFlag r b i j) := rfl
theorem rfOnly_setFld (s : State) (r : Reg) (h l v i j : Nat) : rfOnly s (s.setFld r h l v i j) := rfl
theorem rfOnly_incRg (s : State) (r : Reg) (i j : Nat) : rfOnly s (s.incRg r i j) := rfl
theorem rfOnly_addRg64 (s : State) (r : Reg) (n i j : Nat) : rfOnly s (s.addRg64 r n i j) := rfl

/-! Blocks -/

theorem RegsKept.refl (bl : List Nat) (s : State) : RegsKept bl s s := fun _ _ _ => rfl

theorem RegsKept.of_rf (bl : List Nat) {s t : State} (h : t.rf = s.rf) : RegsKept bl s t := fun _ _ _ => by rw [h]

theorem RegsKept.trans {bl : List Nat} {s t u : State} (h : RegsKept bl s t) (g : RegsKept bl t u) : RegsKept bl s u :=
  fun d a ha => (g d a ha).trans (h d a ha)

theorem RegsKept.mono {bl bm : List Nat} {s t : State} (h : RegsKept bl s t) (hm : ∀ x ∈ bl, x ∈ bm) : RegsKept bm s t :=
  fun d a ha => h d a fun hx => ha (hm _ hx)

/-- A write touches the block of its register alone. -/
theorem regsKept_setRg {bl : List Nat} (s : State) (r : Reg) (v i j : Nat) (h : regAddr r i j / 0x10000 ∈ bl) :
    RegsKept bl s (s.setRg r v i j) := by
  intro d a ha
  have hne : regAddr r i j ≠ a := by rintro rfl; exact ha h
  unfold State.setRg Tbl.put
  split
  · simp [Tbl.get_del, hne]
  · simp [Tbl.get_ins, hne]

theorem regsKept_setFlag {bl : List Nat} (s : State) (r : Reg) (b i j : Nat) (h : regAddr r i j / 0x10000 ∈ bl) :
    RegsKept bl s (s.setFlag r b i j) := regsKept_setRg s r _ i j h
theorem regsKept_clrFlag {bl : List Nat} (s : State) (r : Reg) (b i j : Nat) (h : regAddr r i j / 0x10000 ∈ bl) :
    RegsKept bl s (s.clrFlag r b i j) := regsKept_setRg s r _ i j h
theorem regsKept_setFld {bl : List Nat} (s : State) (r : Reg) (hi lo v i j : Nat) (h : regAddr r i j / 0x10000 ∈ bl) :
    RegsKept bl s (s.setFld r hi lo v i j) := regsKept_setRg s r _ i j h
theorem regsKept_incRg {bl : List Nat} (s : State) (r : Reg) (i j : Nat) (h : regAddr r i j / 0x10000 ∈ bl) :
    RegsKept bl s (s.incRg r i j) := regsKept_setRg s r _ i j h
theorem regsKept_addRg64 {bl : List Nat} (s : State) (r : Reg) (n i j : Nat) (h : regAddr r i j / 0x10000 ∈ bl) :
    RegsKept bl s (s.addRg64 r n i j) := regsKept_setRg s r _ i j h

/-- A register array that fits in its 64 KiB block stands there at every index (the premise `h` is closed by decide). -/
theorem regAddr_block (r : Reg) {i j : Nat} (hi : i < (regInfo r).n0) (hj : j < (regInfo r).n1)
    (h : (regInfo r).base % 0x10000 + (regInfo r).s0 * ((regInfo r).n0 - 1) + (regInfo r).s1 * ((regInfo r).n1 - 1) < 0x10000) :
    regAddr r i j / 0x10000 = (regInfo r).base / 0x10000 := by
  have h1 : (regInfo r).s0 * i ≤ (regInfo r).s0 * ((regInfo r).n0 - 1) := Nat.mul_le_mul_left _ (by omega)
  have h2 : (regInfo r).s1 * j ≤ (regInfo r).s1 * ((regInfo r).n1 - 1) := Nat.mul_le_mul_left _ (by omega)
  unfold regAddr
  omega

end Sys2Proof.Machine
end

