-- ==== Sys2Proof/Laws/State.lean ====
section
/-! SUPPORT. What each update of the state leaves as it was: one lemma per field and update, each by computation. -/
namespace Sys2Proof.Machine

variable (s : State)


@[simp] theorem State.setRg_tb (r : Reg) (v i j : Nat) : (s.setRg r v i j).tb = s.tb := rfl
@[simp] theorem State.setRg_ttu (r : Reg) (v i j : Nat) : (s.setRg r v i j).ttu = s.ttu := rfl
@[simp] theorem State.setRg_ttuReqs (r : Reg) (v i j : Nat) : (s.setRg r v i j).ttuReqs = s.ttuReqs := rfl
@[simp] theorem State.setRg_edges (r : Reg) (v i j : Nat) : (s.setRg r v i j).edges = s.edges := rfl
@[simp] theorem State.setRg_evts (r : Reg) (v i j : Nat) : (s.setRg r v i j).evts = s.evts := rfl
@[simp] theorem State.setRg_ten (r : Reg) (v i j : Nat) : (s.setRg r v i j).ten = s.ten := rfl
@[simp] theorem State.setRg_slots (r : Reg) (v i j : Nat) : (s.setRg r v i j).slots = s.slots := rfl
@[simp] theorem State.setRg_ela (r : Reg) (v i j : Nat) : (s.setRg r v i j).ela = s.ela := rfl
@[simp] theorem State.setRg_groups (r : Reg) (v i j : Nat) : (s.setRg r v i j).groups = s.groups := rfl
@[simp] theorem State.setRg_awake (r : Reg) (v i j : Nat) : (s.setRg r v i j).awake = s.awake := rfl
@[simp] theorem State.setRg_pts (r : Reg) (v i j : Nat) : (s.setRg r v i j).pts = s.pts := rfl
@[simp] theorem State.setRg_pntQ (r : Reg) (v i j : Nat) : (s.setRg r v i j).pntQ = s.pntQ := rfl
@[simp] theorem State.setRg_sch (r : Reg) (v i j : Nat) : (s.setRg r v i j).sch = s.sch := rfl
@[simp] theorem State.setRg_lop (r : Reg) (v i j : Nat) : (s.setRg r v i j).lop = s.lop := rfl
@[simp] theorem State.setRg_adc (r : Reg) (v i j : Nat) : (s.setRg r v i j).adc = s.adc := rfl
@[simp] theorem State.setRg_can (r : Reg) (v i j : Nat) : (s.setRg r v i j).can = s.can := rfl
@[simp] theorem State.setRg_mbx (r : Reg) (v i j : Nat) : (s.setRg r v i j).mbx = s.mbx := rfl
@[simp] theorem State.setRg_qps (r : Reg) (v i j : Nat) : (s.setRg r v i j).qps = s.qps := rfl
@[simp] theorem State.setRg_links (r : Reg) (v i j : Nat) : (s.setRg r v i j).links = s.links := rfl
@[simp] theorem State.setRg_ports (r : Reg) (v i j : Nat) : (s.setRg r v i j).ports = s.ports := rfl
@[simp] theorem State.setRg_prp (r : Reg) (v i j : Nat) : (s.setRg r v i j).prp = s.prp := rfl
@[simp] theorem State.setRg_sw (r : Reg) (v i j : Nat) : (s.setRg r v i j).sw = s.sw := rfl
@[simp] theorem State.setRg_svx (r : Reg) (v i j : Nat) : (s.setRg r v i j).svx = s.svx := rfl
@[simp] theorem State.setRg_flt (r : Reg) (v i j : Nat) : (s.setRg r v i j).flt = s.flt := rfl
@[simp] theorem State.setRg_par (r : Reg) (v i j : Nat) : (s.setRg r v i j).par = s.par := rfl
@[simp] theorem State.setRg_sge (r : Reg) (v i j : Nat) : (s.setRg r v i j).sge = s.sge := rfl
@[simp] theorem State.setRg_goose (r : Reg) (v i j : Nat) : (s.setRg r v i j).goose = s.goose := rfl
@[simp] theorem State.setRg_evr (r : Reg) (v i j : Nat) : (s.setRg r v i j).evr = s.evr := rfl
@[simp] theorem State.setRg_dcr (r : Reg) (v i j : Nat) : (s.setRg r v i j).dcr = s.dcr := rfl
@[simp] theorem State.setRg_ltl (r : Reg) (v i j : Nat) : (s.setRg r v i j).ltl = s.ltl := rfl
@[simp] theorem State.setRg_pwr (r : Reg) (v i j : Nat) : (s.setRg r v i j).pwr = s.pwr := rfl
@[simp] theorem State.setRg_kvs (r : Reg) (v i j : Nat) : (s.setRg r v i j).kvs = s.kvs := rfl
@[simp] theorem State.setRg_att (r : Reg) (v i j : Nat) : (s.setRg r v i j).att = s.att := rfl
@[simp] theorem State.setRg_crd (r : Reg) (v i j : Nat) : (s.setRg r v i j).crd = s.crd := rfl
@[simp] theorem State.setRg_boot (r : Reg) (v i j : Nat) : (s.setRg r v i j).boot = s.boot := rfl
@[simp] theorem State.setRg_plan (r : Reg) (v i j : Nat) : (s.setRg r v i j).plan = s.plan := rfl
@[simp] theorem State.setRg_jrnl (r : Reg) (v i j : Nat) : (s.setRg r v i j).jrnl = s.jrnl := rfl
@[simp] theorem State.setRg_amd (r : Reg) (v i j : Nat) : (s.setRg r v i j).amd = s.amd := rfl
@[simp] theorem State.setRg_acts (r : Reg) (v i j : Nat) : (s.setRg r v i j).acts = s.acts := rfl
@[simp] theorem State.setRg_bus (r : Reg) (v i j : Nat) : (s.setRg r v i j).bus = s.bus := rfl
@[simp] theorem State.setRg_mem (r : Reg) (v i j : Nat) : (s.setRg r v i j).mem = s.mem := rfl
@[simp] theorem State.setRg_out (r : Reg) (v i j : Nat) : (s.setRg r v i j).out = s.out := rfl
@[simp] theorem State.setRg_now (r : Reg) (v i j : Nat) : (s.setRg r v i j).now = s.now := rfl
@[simp] theorem State.setRg_freeN (r : Reg) (v i j : Nat) : (s.setRg r v i j).freeN = s.freeN := rfl
@[simp] theorem State.setRg_pending (r : Reg) (v i j : Nat) : (s.setRg r v i j).pending = s.pending := rfl

@[simp] theorem State.markRaised_tb (r : Reg) (m i j : Nat) : (s.markRaised r m i j).tb = s.tb := rfl
@[simp] theorem State.markRaised_ttu (r : Reg) (m i j : Nat) : (s.markRaised r m i j).ttu = s.ttu := rfl
@[simp] theorem State.markRaised_ttuReqs (r : Reg) (m i j : Nat) : (s.markRaised r m i j).ttuReqs = s.ttuReqs := rfl
@[simp] theorem State.markRaised_edges (r : Reg) (m i j : Nat) : (s.markRaised r m i j).edges = s.edges := rfl
@[simp] theorem State.markRaised_evts (r : Reg) (m i j : Nat) : (s.markRaised r m i j).evts = s.evts := rfl
@[simp] theorem State.markRaised_ten (r : Reg) (m i j : Nat) : (s.markRaised r m i j).ten = s.ten := rfl
@[simp] theorem State.markRaised_slots (r : Reg) (m i j : Nat) : (s.markRaised r m i j).slots = s.slots := rfl
@[simp] theorem State.markRaised_ela (r : Reg) (m i j : Nat) : (s.markRaised r m i j).ela = s.ela := rfl
@[simp] theorem State.markRaised_groups (r : Reg) (m i j : Nat) : (s.markRaised r m i j).groups = s.groups := rfl
@[simp] theorem State.markRaised_awake (r : Reg) (m i j : Nat) : (s.markRaised r m i j).awake = s.awake := rfl
@[simp] theorem State.markRaised_pts (r : Reg) (m i j : Nat) : (s.markRaised r m i j).pts = s.pts := rfl
@[simp] theorem State.markRaised_pntQ (r : Reg) (m i j : Nat) : (s.markRaised r m i j).pntQ = s.pntQ := rfl
@[simp] theorem State.markRaised_sch (r : Reg) (m i j : Nat) : (s.markRaised r m i j).sch = s.sch := rfl
@[simp] theorem State.markRaised_lop (r : Reg) (m i j : Nat) : (s.markRaised r m i j).lop = s.lop := rfl
@[simp] theorem State.markRaised_adc (r : Reg) (m i j : Nat) : (s.markRaised r m i j).adc = s.adc := rfl
@[simp] theorem State.markRaised_can (r : Reg) (m i j : Nat) : (s.markRaised r m i j).can = s.can := rfl
@[simp] theorem State.markRaised_mbx (r : Reg) (m i j : Nat) : (s.markRaised r m i j).mbx = s.mbx := rfl
@[simp] theorem State.markRaised_qps (r : Reg) (m i j : Nat) : (s.markRaised r m i j).qps = s.qps := rfl
@[simp] theorem State.markRaised_links (r : Reg) (m i j : Nat) : (s.markRaised r m i j).links = s.links := rfl
@[simp] theorem State.markRaised_ports (r : Reg) (m i j : Nat) : (s.markRaised r m i j).ports = s.ports := rfl
@[simp] theorem State.markRaised_prp (r : Reg) (m i j : Nat) : (s.markRaised r m i j).prp = s.prp := rfl
@[simp] theorem State.markRaised_sw (r : Reg) (m i j : Nat) : (s.markRaised r m i j).sw = s.sw := rfl
@[simp] theorem State.markRaised_svx (r : Reg) (m i j : Nat) : (s.markRaised r m i j).svx = s.svx := rfl
@[simp] theorem State.markRaised_flt (r : Reg) (m i j : Nat) : (s.markRaised r m i j).flt = s.flt := rfl
@[simp] theorem State.markRaised_par (r : Reg) (m i j : Nat) : (s.markRaised r m i j).par = s.par := rfl
@[simp] theorem State.markRaised_sge (r : Reg) (m i j : Nat) : (s.markRaised r m i j).sge = s.sge := rfl
@[simp] theorem State.markRaised_goose (r : Reg) (m i j : Nat) : (s.markRaised r m i j).goose = s.goose := rfl
@[simp] theorem State.markRaised_evr (r : Reg) (m i j : Nat) : (s.markRaised r m i j).evr = s.evr := rfl
@[simp] theorem State.markRaised_dcr (r : Reg) (m i j : Nat) : (s.markRaised r m i j).dcr = s.dcr := rfl
@[simp] theorem State.markRaised_ltl (r : Reg) (m i j : Nat) : (s.markRaised r m i j).ltl = s.ltl := rfl
@[simp] theorem State.markRaised_pwr (r : Reg) (m i j : Nat) : (s.markRaised r m i j).pwr = s.pwr := rfl
@[simp] theorem State.markRaised_kvs (r : Reg) (m i j : Nat) : (s.markRaised r m i j).kvs = s.kvs := rfl
@[simp] theorem State.markRaised_att (r : Reg) (m i j : Nat) : (s.markRaised r m i j).att = s.att := rfl
@[simp] theorem State.markRaised_crd (r : Reg) (m i j : Nat) : (s.markRaised r m i j).crd = s.crd := rfl
@[simp] theorem State.markRaised_boot (r : Reg) (m i j : Nat) : (s.markRaised r m i j).boot = s.boot := rfl
@[simp] theorem State.markRaised_plan (r : Reg) (m i j : Nat) : (s.markRaised r m i j).plan = s.plan := rfl
@[simp] theorem State.markRaised_jrnl (r : Reg) (m i j : Nat) : (s.markRaised r m i j).jrnl = s.jrnl := rfl
@[simp] theorem State.markRaised_amd (r : Reg) (m i j : Nat) : (s.markRaised r m i j).amd = s.amd := rfl
@[simp] theorem State.markRaised_acts (r : Reg) (m i j : Nat) : (s.markRaised r m i j).acts = s.acts := rfl
@[simp] theorem State.markRaised_bus (r : Reg) (m i j : Nat) : (s.markRaised r m i j).bus = s.bus := rfl
@[simp] theorem State.markRaised_rf (r : Reg) (m i j : Nat) : (s.markRaised r m i j).rf = s.rf := rfl
@[simp] theorem State.markRaised_mem (r : Reg) (m i j : Nat) : (s.markRaised r m i j).mem = s.mem := rfl
@[simp] theorem State.markRaised_out (r : Reg) (m i j : Nat) : (s.markRaised r m i j).out = s.out := rfl
@[simp] theorem State.markRaised_freeN (r : Reg) (m i j : Nat) : (s.markRaised r m i j).freeN = s.freeN := rfl
@[simp] theorem State.markRaised_pending (r : Reg) (m i j : Nat) : (s.markRaised r m i j).pending = s.pending := rfl

@[simp] theorem State.emit_tb (o : Out) : (s.emit o).tb = s.tb := rfl
@[simp] theorem State.emit_ttu (o : Out) : (s.emit o).ttu = s.ttu := rfl
@[simp] theorem State.emit_ttuReqs (o : Out) : (s.emit o).ttuReqs = s.ttuReqs := rfl
@[simp] theorem State.emit_edges (o : Out) : (s.emit o).edges = s.edges := rfl
@[simp] theorem State.emit_evts (o : Out) : (s.emit o).evts = s.evts := rfl
@[simp] theorem State.emit_ten (o : Out) : (s.emit o).ten = s.ten := rfl
@[simp] theorem State.emit_slots (o : Out) : (s.emit o).slots = s.slots := rfl
@[simp] theorem State.emit_ela (o : Out) : (s.emit o).ela = s.ela := rfl
@[simp] theorem State.emit_groups (o : Out) : (s.emit o).groups = s.groups := rfl
@[simp] theorem State.emit_awake (o : Out) : (s.emit o).awake = s.awake := rfl
@[simp] theorem State.emit_pts (o : Out) : (s.emit o).pts = s.pts := rfl
@[simp] theorem State.emit_pntQ (o : Out) : (s.emit o).pntQ = s.pntQ := rfl
@[simp] theorem State.emit_sch (o : Out) : (s.emit o).sch = s.sch := rfl
@[simp] theorem State.emit_lop (o : Out) : (s.emit o).lop = s.lop := rfl
@[simp] theorem State.emit_adc (o : Out) : (s.emit o).adc = s.adc := rfl
@[simp] theorem State.emit_can (o : Out) : (s.emit o).can = s.can := rfl
@[simp] theorem State.emit_mbx (o : Out) : (s.emit o).mbx = s.mbx := rfl
@[simp] theorem State.emit_qps (o : Out) : (s.emit o).qps = s.qps := rfl
@[simp] theorem State.emit_links (o : Out) : (s.emit o).links = s.links := rfl
@[simp] theorem State.emit_ports (o : Out) : (s.emit o).ports = s.ports := rfl
@[simp] theorem State.emit_prp (o : Out) : (s.emit o).prp = s.prp := rfl
@[simp] theorem State.emit_sw (o : Out) : (s.emit o).sw = s.sw := rfl
@[simp] theorem State.emit_svx (o : Out) : (s.emit o).svx = s.svx := rfl
@[simp] theorem State.emit_flt (o : Out) : (s.emit o).flt = s.flt := rfl
@[simp] theorem State.emit_par (o : Out) : (s.emit o).par = s.par := rfl
@[simp] theorem State.emit_sge (o : Out) : (s.emit o).sge = s.sge := rfl
@[simp] theorem State.emit_goose (o : Out) : (s.emit o).goose = s.goose := rfl
@[simp] theorem State.emit_evr (o : Out) : (s.emit o).evr = s.evr := rfl
@[simp] theorem State.emit_dcr (o : Out) : (s.emit o).dcr = s.dcr := rfl
@[simp] theorem State.emit_ltl (o : Out) : (s.emit o).ltl = s.ltl := rfl
@[simp] theorem State.emit_pwr (o : Out) : (s.emit o).pwr = s.pwr := rfl
@[simp] theorem State.emit_kvs (o : Out) : (s.emit o).kvs = s.kvs := rfl
@[simp] theorem State.emit_att (o : Out) : (s.emit o).att = s.att := rfl
@[simp] theorem State.emit_crd (o : Out) : (s.emit o).crd = s.crd := rfl
@[simp] theorem State.emit_boot (o : Out) : (s.emit o).boot = s.boot := rfl
@[simp] theorem State.emit_plan (o : Out) : (s.emit o).plan = s.plan := rfl
@[simp] theorem State.emit_jrnl (o : Out) : (s.emit o).jrnl = s.jrnl := rfl
@[simp] theorem State.emit_amd (o : Out) : (s.emit o).amd = s.amd := rfl
@[simp] theorem State.emit_acts (o : Out) : (s.emit o).acts = s.acts := rfl
@[simp] theorem State.emit_bus (o : Out) : (s.emit o).bus = s.bus := rfl
@[simp] theorem State.emit_rf (o : Out) : (s.emit o).rf = s.rf := rfl
@[simp] theorem State.emit_mem (o : Out) : (s.emit o).mem = s.mem := rfl
@[simp] theorem State.emit_now (o : Out) : (s.emit o).now = s.now := rfl
@[simp] theorem State.emit_freeN (o : Out) : (s.emit o).freeN = s.freeN := rfl
@[simp] theorem State.emit_pending (o : Out) : (s.emit o).pending = s.pending := rfl

@[simp] theorem State.setPort_tb (q : Requester) (p : BusPort) : (s.setPort q p).tb = s.tb := rfl
@[simp] theorem State.setPort_ttu (q : Requester) (p : BusPort) : (s.setPort q p).ttu = s.ttu := rfl
@[simp] theorem State.setPort_ttuReqs (q : Requester) (p : BusPort) : (s.setPort q p).ttuReqs = s.ttuReqs := rfl
@[simp] theorem State.setPort_edges (q : Requester) (p : BusPort) : (s.setPort q p).edges = s.edges := rfl
@[simp] theorem State.setPort_evts (q : Requester) (p : BusPort) : (s.setPort q p).evts = s.evts := rfl
@[simp] theorem State.setPort_ten (q : Requester) (p : BusPort) : (s.setPort q p).ten = s.ten := rfl
@[simp] theorem State.setPort_slots (q : Requester) (p : BusPort) : (s.setPort q p).slots = s.slots := rfl
@[simp] theorem State.setPort_ela (q : Requester) (p : BusPort) : (s.setPort q p).ela = s.ela := rfl
@[simp] theorem State.setPort_groups (q : Requester) (p : BusPort) : (s.setPort q p).groups = s.groups := rfl
@[simp] theorem State.setPort_awake (q : Requester) (p : BusPort) : (s.setPort q p).awake = s.awake := rfl
@[simp] theorem State.setPort_pts (q : Requester) (p : BusPort) : (s.setPort q p).pts = s.pts := rfl
@[simp] theorem State.setPort_pntQ (q : Requester) (p : BusPort) : (s.setPort q p).pntQ = s.pntQ := rfl
@[simp] theorem State.setPort_sch (q : Requester) (p : BusPort) : (s.setPort q p).sch = s.sch := rfl
@[simp] theorem State.setPort_lop (q : Requester) (p : BusPort) : (s.setPort q p).lop = s.lop := rfl
@[simp] theorem State.setPort_adc (q : Requester) (p : BusPort) : (s.setPort q p).adc = s.adc := rfl
@[simp] theorem State.setPort_can (q : Requester) (p : BusPort) : (s.setPort q p).can = s.can := rfl
@[simp] theorem State.setPort_mbx (q : Requester) (p : BusPort) : (s.setPort q p).mbx = s.mbx := rfl
@[simp] theorem State.setPort_qps (q : Requester) (p : BusPort) : (s.setPort q p).qps = s.qps := rfl
@[simp] theorem State.setPort_links (q : Requester) (p : BusPort) : (s.setPort q p).links = s.links := rfl
@[simp] theorem State.setPort_ports (q : Requester) (p : BusPort) : (s.setPort q p).ports = s.ports := rfl
@[simp] theorem State.setPort_prp (q : Requester) (p : BusPort) : (s.setPort q p).prp = s.prp := rfl
@[simp] theorem State.setPort_sw (q : Requester) (p : BusPort) : (s.setPort q p).sw = s.sw := rfl
@[simp] theorem State.setPort_svx (q : Requester) (p : BusPort) : (s.setPort q p).svx = s.svx := rfl
@[simp] theorem State.setPort_flt (q : Requester) (p : BusPort) : (s.setPort q p).flt = s.flt := rfl
@[simp] theorem State.setPort_par (q : Requester) (p : BusPort) : (s.setPort q p).par = s.par := rfl
@[simp] theorem State.setPort_sge (q : Requester) (p : BusPort) : (s.setPort q p).sge = s.sge := rfl
@[simp] theorem State.setPort_goose (q : Requester) (p : BusPort) : (s.setPort q p).goose = s.goose := rfl
@[simp] theorem State.setPort_evr (q : Requester) (p : BusPort) : (s.setPort q p).evr = s.evr := rfl
@[simp] theorem State.setPort_dcr (q : Requester) (p : BusPort) : (s.setPort q p).dcr = s.dcr := rfl
@[simp] theorem State.setPort_ltl (q : Requester) (p : BusPort) : (s.setPort q p).ltl = s.ltl := rfl
@[simp] theorem State.setPort_pwr (q : Requester) (p : BusPort) : (s.setPort q p).pwr = s.pwr := rfl
@[simp] theorem State.setPort_kvs (q : Requester) (p : BusPort) : (s.setPort q p).kvs = s.kvs := rfl
@[simp] theorem State.setPort_att (q : Requester) (p : BusPort) : (s.setPort q p).att = s.att := rfl
@[simp] theorem State.setPort_crd (q : Requester) (p : BusPort) : (s.setPort q p).crd = s.crd := rfl
@[simp] theorem State.setPort_boot (q : Requester) (p : BusPort) : (s.setPort q p).boot = s.boot := rfl
@[simp] theorem State.setPort_plan (q : Requester) (p : BusPort) : (s.setPort q p).plan = s.plan := rfl
@[simp] theorem State.setPort_jrnl (q : Requester) (p : BusPort) : (s.setPort q p).jrnl = s.jrnl := rfl
@[simp] theorem State.setPort_amd (q : Requester) (p : BusPort) : (s.setPort q p).amd = s.amd := rfl
@[simp] theorem State.setPort_acts (q : Requester) (p : BusPort) : (s.setPort q p).acts = s.acts := rfl
@[simp] theorem State.setPort_rf (q : Requester) (p : BusPort) : (s.setPort q p).rf = s.rf := rfl
@[simp] theorem State.setPort_mem (q : Requester) (p : BusPort) : (s.setPort q p).mem = s.mem := rfl
@[simp] theorem State.setPort_out (q : Requester) (p : BusPort) : (s.setPort q p).out = s.out := rfl
@[simp] theorem State.setPort_now (q : Requester) (p : BusPort) : (s.setPort q p).now = s.now := rfl
@[simp] theorem State.setPort_freeN (q : Requester) (p : BusPort) : (s.setPort q p).freeN = s.freeN := rfl
@[simp] theorem State.setPort_pending (q : Requester) (p : BusPort) : (s.setPort q p).pending = s.pending := rfl

@[simp] theorem State.setTenant_tb (t : Nat) (x : Tenant) : (s.setTenant t x).tb = s.tb := rfl
@[simp] theorem State.setTenant_ttu (t : Nat) (x : Tenant) : (s.setTenant t x).ttu = s.ttu := rfl
@[simp] theorem State.setTenant_ttuReqs (t : Nat) (x : Tenant) : (s.setTenant t x).ttuReqs = s.ttuReqs := rfl
@[simp] theorem State.setTenant_edges (t : Nat) (x : Tenant) : (s.setTenant t x).edges = s.edges := rfl
@[simp] theorem State.setTenant_evts (t : Nat) (x : Tenant) : (s.setTenant t x).evts = s.evts := rfl
@[simp] theorem State.setTenant_slots (t : Nat) (x : Tenant) : (s.setTenant t x).slots = s.slots := rfl
@[simp] theorem State.setTenant_ela (t : Nat) (x : Tenant) : (s.setTenant t x).ela = s.ela := rfl
@[simp] theorem State.setTenant_groups (t : Nat) (x : Tenant) : (s.setTenant t x).groups = s.groups := rfl
@[simp] theorem State.setTenant_awake (t : Nat) (x : Tenant) : (s.setTenant t x).awake = s.awake := rfl
@[simp] theorem State.setTenant_pts (t : Nat) (x : Tenant) : (s.setTenant t x).pts = s.pts := rfl
@[simp] theorem State.setTenant_pntQ (t : Nat) (x : Tenant) : (s.setTenant t x).pntQ = s.pntQ := rfl
@[simp] theorem State.setTenant_sch (t : Nat) (x : Tenant) : (s.setTenant t x).sch = s.sch := rfl
@[simp] theorem State.setTenant_lop (t : Nat) (x : Tenant) : (s.setTenant t x).lop = s.lop := rfl
@[simp] theorem State.setTenant_adc (t : Nat) (x : Tenant) : (s.setTenant t x).adc = s.adc := rfl
@[simp] theorem State.setTenant_can (t : Nat) (x : Tenant) : (s.setTenant t x).can = s.can := rfl
@[simp] theorem State.setTenant_mbx (t : Nat) (x : Tenant) : (s.setTenant t x).mbx = s.mbx := rfl
@[simp] theorem State.setTenant_qps (t : Nat) (x : Tenant) : (s.setTenant t x).qps = s.qps := rfl
@[simp] theorem State.setTenant_links (t : Nat) (x : Tenant) : (s.setTenant t x).links = s.links := rfl
@[simp] theorem State.setTenant_ports (t : Nat) (x : Tenant) : (s.setTenant t x).ports = s.ports := rfl
@[simp] theorem State.setTenant_prp (t : Nat) (x : Tenant) : (s.setTenant t x).prp = s.prp := rfl
@[simp] theorem State.setTenant_sw (t : Nat) (x : Tenant) : (s.setTenant t x).sw = s.sw := rfl
@[simp] theorem State.setTenant_svx (t : Nat) (x : Tenant) : (s.setTenant t x).svx = s.svx := rfl
@[simp] theorem State.setTenant_flt (t : Nat) (x : Tenant) : (s.setTenant t x).flt = s.flt := rfl
@[simp] theorem State.setTenant_par (t : Nat) (x : Tenant) : (s.setTenant t x).par = s.par := rfl
@[simp] theorem State.setTenant_sge (t : Nat) (x : Tenant) : (s.setTenant t x).sge = s.sge := rfl
@[simp] theorem State.setTenant_goose (t : Nat) (x : Tenant) : (s.setTenant t x).goose = s.goose := rfl
@[simp] theorem State.setTenant_evr (t : Nat) (x : Tenant) : (s.setTenant t x).evr = s.evr := rfl
@[simp] theorem State.setTenant_dcr (t : Nat) (x : Tenant) : (s.setTenant t x).dcr = s.dcr := rfl
@[simp] theorem State.setTenant_ltl (t : Nat) (x : Tenant) : (s.setTenant t x).ltl = s.ltl := rfl
@[simp] theorem State.setTenant_pwr (t : Nat) (x : Tenant) : (s.setTenant t x).pwr = s.pwr := rfl
@[simp] theorem State.setTenant_kvs (t : Nat) (x : Tenant) : (s.setTenant t x).kvs = s.kvs := rfl
@[simp] theorem State.setTenant_att (t : Nat) (x : Tenant) : (s.setTenant t x).att = s.att := rfl
@[simp] theorem State.setTenant_crd (t : Nat) (x : Tenant) : (s.setTenant t x).crd = s.crd := rfl
@[simp] theorem State.setTenant_boot (t : Nat) (x : Tenant) : (s.setTenant t x).boot = s.boot := rfl
@[simp] theorem State.setTenant_plan (t : Nat) (x : Tenant) : (s.setTenant t x).plan = s.plan := rfl
@[simp] theorem State.setTenant_jrnl (t : Nat) (x : Tenant) : (s.setTenant t x).jrnl = s.jrnl := rfl
@[simp] theorem State.setTenant_amd (t : Nat) (x : Tenant) : (s.setTenant t x).amd = s.amd := rfl
@[simp] theorem State.setTenant_acts (t : Nat) (x : Tenant) : (s.setTenant t x).acts = s.acts := rfl
@[simp] theorem State.setTenant_bus (t : Nat) (x : Tenant) : (s.setTenant t x).bus = s.bus := rfl
@[simp] theorem State.setTenant_rf (t : Nat) (x : Tenant) : (s.setTenant t x).rf = s.rf := rfl
@[simp] theorem State.setTenant_mem (t : Nat) (x : Tenant) : (s.setTenant t x).mem = s.mem := rfl
@[simp] theorem State.setTenant_out (t : Nat) (x : Tenant) : (s.setTenant t x).out = s.out := rfl
@[simp] theorem State.setTenant_now (t : Nat) (x : Tenant) : (s.setTenant t x).now = s.now := rfl
@[simp] theorem State.setTenant_freeN (t : Nat) (x : Tenant) : (s.setTenant t x).freeN = s.freeN := rfl
@[simp] theorem State.setTenant_pending (t : Nat) (x : Tenant) : (s.setTenant t x).pending = s.pending := rfl

@[simp] theorem State.setEla_tb (t : Nat) (e : ElaTen) : (s.setEla t e).tb = s.tb := rfl
@[simp] theorem State.setEla_ttu (t : Nat) (e : ElaTen) : (s.setEla t e).ttu = s.ttu := rfl
@[simp] theorem State.setEla_ttuReqs (t : Nat) (e : ElaTen) : (s.setEla t e).ttuReqs = s.ttuReqs := rfl
@[simp] theorem State.setEla_edges (t : Nat) (e : ElaTen) : (s.setEla t e).edges = s.edges := rfl
@[simp] theorem State.setEla_evts (t : Nat) (e : ElaTen) : (s.setEla t e).evts = s.evts := rfl
@[simp] theorem State.setEla_ten (t : Nat) (e : ElaTen) : (s.setEla t e).ten = s.ten := rfl
@[simp] theorem State.setEla_slots (t : Nat) (e : ElaTen) : (s.setEla t e).slots = s.slots := rfl
@[simp] theorem State.setEla_groups (t : Nat) (e : ElaTen) : (s.setEla t e).groups = s.groups := rfl
@[simp] theorem State.setEla_awake (t : Nat) (e : ElaTen) : (s.setEla t e).awake = s.awake := rfl
@[simp] theorem State.setEla_pts (t : Nat) (e : ElaTen) : (s.setEla t e).pts = s.pts := rfl
@[simp] theorem State.setEla_pntQ (t : Nat) (e : ElaTen) : (s.setEla t e).pntQ = s.pntQ := rfl
@[simp] theorem State.setEla_sch (t : Nat) (e : ElaTen) : (s.setEla t e).sch = s.sch := rfl
@[simp] theorem State.setEla_lop (t : Nat) (e : ElaTen) : (s.setEla t e).lop = s.lop := rfl
@[simp] theorem State.setEla_adc (t : Nat) (e : ElaTen) : (s.setEla t e).adc = s.adc := rfl
@[simp] theorem State.setEla_can (t : Nat) (e : ElaTen) : (s.setEla t e).can = s.can := rfl
@[simp] theorem State.setEla_mbx (t : Nat) (e : ElaTen) : (s.setEla t e).mbx = s.mbx := rfl
@[simp] theorem State.setEla_qps (t : Nat) (e : ElaTen) : (s.setEla t e).qps = s.qps := rfl
@[simp] theorem State.setEla_links (t : Nat) (e : ElaTen) : (s.setEla t e).links = s.links := rfl
@[simp] theorem State.setEla_ports (t : Nat) (e : ElaTen) : (s.setEla t e).ports = s.ports := rfl
@[simp] theorem State.setEla_prp (t : Nat) (e : ElaTen) : (s.setEla t e).prp = s.prp := rfl
@[simp] theorem State.setEla_sw (t : Nat) (e : ElaTen) : (s.setEla t e).sw = s.sw := rfl
@[simp] theorem State.setEla_svx (t : Nat) (e : ElaTen) : (s.setEla t e).svx = s.svx := rfl
@[simp] theorem State.setEla_flt (t : Nat) (e : ElaTen) : (s.setEla t e).flt = s.flt := rfl
@[simp] theorem State.setEla_par (t : Nat) (e : ElaTen) : (s.setEla t e).par = s.par := rfl
@[simp] theorem State.setEla_sge (t : Nat) (e : ElaTen) : (s.setEla t e).sge = s.sge := rfl
@[simp] theorem State.setEla_goose (t : Nat) (e : ElaTen) : (s.setEla t e).goose = s.goose := rfl
@[simp] theorem State.setEla_evr (t : Nat) (e : ElaTen) : (s.setEla t e).evr = s.evr := rfl
@[simp] theorem State.setEla_dcr (t : Nat) (e : ElaTen) : (s.setEla t e).dcr = s.dcr := rfl
@[simp] theorem State.setEla_ltl (t : Nat) (e : ElaTen) : (s.setEla t e).ltl = s.ltl := rfl
@[simp] theorem State.setEla_pwr (t : Nat) (e : ElaTen) : (s.setEla t e).pwr = s.pwr := rfl
@[simp] theorem State.setEla_kvs (t : Nat) (e : ElaTen) : (s.setEla t e).kvs = s.kvs := rfl
@[simp] theorem State.setEla_att (t : Nat) (e : ElaTen) : (s.setEla t e).att = s.att := rfl
@[simp] theorem State.setEla_crd (t : Nat) (e : ElaTen) : (s.setEla t e).crd = s.crd := rfl
@[simp] theorem State.setEla_boot (t : Nat) (e : ElaTen) : (s.setEla t e).boot = s.boot := rfl
@[simp] theorem State.setEla_plan (t : Nat) (e : ElaTen) : (s.setEla t e).plan = s.plan := rfl
@[simp] theorem State.setEla_jrnl (t : Nat) (e : ElaTen) : (s.setEla t e).jrnl = s.jrnl := rfl
@[simp] theorem State.setEla_amd (t : Nat) (e : ElaTen) : (s.setEla t e).amd = s.amd := rfl
@[simp] theorem State.setEla_acts (t : Nat) (e : ElaTen) : (s.setEla t e).acts = s.acts := rfl
@[simp] theorem State.setEla_bus (t : Nat) (e : ElaTen) : (s.setEla t e).bus = s.bus := rfl
@[simp] theorem State.setEla_rf (t : Nat) (e : ElaTen) : (s.setEla t e).rf = s.rf := rfl
@[simp] theorem State.setEla_mem (t : Nat) (e : ElaTen) : (s.setEla t e).mem = s.mem := rfl
@[simp] theorem State.setEla_out (t : Nat) (e : ElaTen) : (s.setEla t e).out = s.out := rfl
@[simp] theorem State.setEla_now (t : Nat) (e : ElaTen) : (s.setEla t e).now = s.now := rfl
@[simp] theorem State.setEla_freeN (t : Nat) (e : ElaTen) : (s.setEla t e).freeN = s.freeN := rfl
@[simp] theorem State.setEla_pending (t : Nat) (e : ElaTen) : (s.setEla t e).pending = s.pending := rfl

@[simp] theorem State.setGroup_tb (g : Nat) (x : Group) : (s.setGroup g x).tb = s.tb := rfl
@[simp] theorem State.setGroup_ttu (g : Nat) (x : Group) : (s.setGroup g x).ttu = s.ttu := rfl
@[simp] theorem State.setGroup_ttuReqs (g : Nat) (x : Group) : (s.setGroup g x).ttuReqs = s.ttuReqs := rfl
@[simp] theorem State.setGroup_edges (g : Nat) (x : Group) : (s.setGroup g x).edges = s.edges := rfl
@[simp] theorem State.setGroup_evts (g : Nat) (x : Group) : (s.setGroup g x).evts = s.evts := rfl
@[simp] theorem State.setGroup_ten (g : Nat) (x : Group) : (s.setGroup g x).ten = s.ten := rfl
@[simp] theorem State.setGroup_slots (g : Nat) (x : Group) : (s.setGroup g x).slots = s.slots := rfl
@[simp] theorem State.setGroup_ela (g : Nat) (x : Group) : (s.setGroup g x).ela = s.ela := rfl
@[simp] theorem State.setGroup_awake (g : Nat) (x : Group) : (s.setGroup g x).awake = s.awake := rfl
@[simp] theorem State.setGroup_pts (g : Nat) (x : Group) : (s.setGroup g x).pts = s.pts := rfl
@[simp] theorem State.setGroup_pntQ (g : Nat) (x : Group) : (s.setGroup g x).pntQ = s.pntQ := rfl
@[simp] theorem State.setGroup_sch (g : Nat) (x : Group) : (s.setGroup g x).sch = s.sch := rfl
@[simp] theorem State.setGroup_lop (g : Nat) (x : Group) : (s.setGroup g x).lop = s.lop := rfl
@[simp] theorem State.setGroup_adc (g : Nat) (x : Group) : (s.setGroup g x).adc = s.adc := rfl
@[simp] theorem State.setGroup_can (g : Nat) (x : Group) : (s.setGroup g x).can = s.can := rfl
@[simp] theorem State.setGroup_mbx (g : Nat) (x : Group) : (s.setGroup g x).mbx = s.mbx := rfl
@[simp] theorem State.setGroup_qps (g : Nat) (x : Group) : (s.setGroup g x).qps = s.qps := rfl
@[simp] theorem State.setGroup_links (g : Nat) (x : Group) : (s.setGroup g x).links = s.links := rfl
@[simp] theorem State.setGroup_ports (g : Nat) (x : Group) : (s.setGroup g x).ports = s.ports := rfl
@[simp] theorem State.setGroup_prp (g : Nat) (x : Group) : (s.setGroup g x).prp = s.prp := rfl
@[simp] theorem State.setGroup_sw (g : Nat) (x : Group) : (s.setGroup g x).sw = s.sw := rfl
@[simp] theorem State.setGroup_svx (g : Nat) (x : Group) : (s.setGroup g x).svx = s.svx := rfl
@[simp] theorem State.setGroup_flt (g : Nat) (x : Group) : (s.setGroup g x).flt = s.flt := rfl
@[simp] theorem State.setGroup_par (g : Nat) (x : Group) : (s.setGroup g x).par = s.par := rfl
@[simp] theorem State.setGroup_sge (g : Nat) (x : Group) : (s.setGroup g x).sge = s.sge := rfl
@[simp] theorem State.setGroup_goose (g : Nat) (x : Group) : (s.setGroup g x).goose = s.goose := rfl
@[simp] theorem State.setGroup_evr (g : Nat) (x : Group) : (s.setGroup g x).evr = s.evr := rfl
@[simp] theorem State.setGroup_dcr (g : Nat) (x : Group) : (s.setGroup g x).dcr = s.dcr := rfl
@[simp] theorem State.setGroup_ltl (g : Nat) (x : Group) : (s.setGroup g x).ltl = s.ltl := rfl
@[simp] theorem State.setGroup_pwr (g : Nat) (x : Group) : (s.setGroup g x).pwr = s.pwr := rfl
@[simp] theorem State.setGroup_kvs (g : Nat) (x : Group) : (s.setGroup g x).kvs = s.kvs := rfl
@[simp] theorem State.setGroup_att (g : Nat) (x : Group) : (s.setGroup g x).att = s.att := rfl
@[simp] theorem State.setGroup_crd (g : Nat) (x : Group) : (s.setGroup g x).crd = s.crd := rfl
@[simp] theorem State.setGroup_boot (g : Nat) (x : Group) : (s.setGroup g x).boot = s.boot := rfl
@[simp] theorem State.setGroup_plan (g : Nat) (x : Group) : (s.setGroup g x).plan = s.plan := rfl
@[simp] theorem State.setGroup_jrnl (g : Nat) (x : Group) : (s.setGroup g x).jrnl = s.jrnl := rfl
@[simp] theorem State.setGroup_amd (g : Nat) (x : Group) : (s.setGroup g x).amd = s.amd := rfl
@[simp] theorem State.setGroup_acts (g : Nat) (x : Group) : (s.setGroup g x).acts = s.acts := rfl
@[simp] theorem State.setGroup_bus (g : Nat) (x : Group) : (s.setGroup g x).bus = s.bus := rfl
@[simp] theorem State.setGroup_rf (g : Nat) (x : Group) : (s.setGroup g x).rf = s.rf := rfl
@[simp] theorem State.setGroup_mem (g : Nat) (x : Group) : (s.setGroup g x).mem = s.mem := rfl
@[simp] theorem State.setGroup_out (g : Nat) (x : Group) : (s.setGroup g x).out = s.out := rfl
@[simp] theorem State.setGroup_now (g : Nat) (x : Group) : (s.setGroup g x).now = s.now := rfl
@[simp] theorem State.setGroup_freeN (g : Nat) (x : Group) : (s.setGroup g x).freeN = s.freeN := rfl
@[simp] theorem State.setGroup_pending (g : Nat) (x : Group) : (s.setGroup g x).pending = s.pending := rfl

@[simp] theorem State.setStream_tb (n : Nat) (x : Stream) : (s.setStream n x).tb = s.tb := rfl
@[simp] theorem State.setStream_ttu (n : Nat) (x : Stream) : (s.setStream n x).ttu = s.ttu := rfl
@[simp] theorem State.setStream_ttuReqs (n : Nat) (x : Stream) : (s.setStream n x).ttuReqs = s.ttuReqs := rfl
@[simp] theorem State.setStream_edges (n : Nat) (x : Stream) : (s.setStream n x).edges = s.edges := rfl
@[simp] theorem State.setStream_evts (n : Nat) (x : Stream) : (s.setStream n x).evts = s.evts := rfl
@[simp] theorem State.setStream_ten (n : Nat) (x : Stream) : (s.setStream n x).ten = s.ten := rfl
@[simp] theorem State.setStream_slots (n : Nat) (x : Stream) : (s.setStream n x).slots = s.slots := rfl
@[simp] theorem State.setStream_ela (n : Nat) (x : Stream) : (s.setStream n x).ela = s.ela := rfl
@[simp] theorem State.setStream_groups (n : Nat) (x : Stream) : (s.setStream n x).groups = s.groups := rfl
@[simp] theorem State.setStream_awake (n : Nat) (x : Stream) : (s.setStream n x).awake = s.awake := rfl
@[simp] theorem State.setStream_pts (n : Nat) (x : Stream) : (s.setStream n x).pts = s.pts := rfl
@[simp] theorem State.setStream_pntQ (n : Nat) (x : Stream) : (s.setStream n x).pntQ = s.pntQ := rfl
@[simp] theorem State.setStream_sch (n : Nat) (x : Stream) : (s.setStream n x).sch = s.sch := rfl
@[simp] theorem State.setStream_lop (n : Nat) (x : Stream) : (s.setStream n x).lop = s.lop := rfl
@[simp] theorem State.setStream_adc (n : Nat) (x : Stream) : (s.setStream n x).adc = s.adc := rfl
@[simp] theorem State.setStream_can (n : Nat) (x : Stream) : (s.setStream n x).can = s.can := rfl
@[simp] theorem State.setStream_mbx (n : Nat) (x : Stream) : (s.setStream n x).mbx = s.mbx := rfl
@[simp] theorem State.setStream_qps (n : Nat) (x : Stream) : (s.setStream n x).qps = s.qps := rfl
@[simp] theorem State.setStream_links (n : Nat) (x : Stream) : (s.setStream n x).links = s.links := rfl
@[simp] theorem State.setStream_ports (n : Nat) (x : Stream) : (s.setStream n x).ports = s.ports := rfl
@[simp] theorem State.setStream_prp (n : Nat) (x : Stream) : (s.setStream n x).prp = s.prp := rfl
@[simp] theorem State.setStream_sw (n : Nat) (x : Stream) : (s.setStream n x).sw = s.sw := rfl
@[simp] theorem State.setStream_flt (n : Nat) (x : Stream) : (s.setStream n x).flt = s.flt := rfl
@[simp] theorem State.setStream_par (n : Nat) (x : Stream) : (s.setStream n x).par = s.par := rfl
@[simp] theorem State.setStream_sge (n : Nat) (x : Stream) : (s.setStream n x).sge = s.sge := rfl
@[simp] theorem State.setStream_goose (n : Nat) (x : Stream) : (s.setStream n x).goose = s.goose := rfl
@[simp] theorem State.setStream_evr (n : Nat) (x : Stream) : (s.setStream n x).evr = s.evr := rfl
@[simp] theorem State.setStream_dcr (n : Nat) (x : Stream) : (s.setStream n x).dcr = s.dcr := rfl
@[simp] theorem State.setStream_ltl (n : Nat) (x : Stream) : (s.setStream n x).ltl = s.ltl := rfl
@[simp] theorem State.setStream_pwr (n : Nat) (x : Stream) : (s.setStream n x).pwr = s.pwr := rfl
@[simp] theorem State.setStream_kvs (n : Nat) (x : Stream) : (s.setStream n x).kvs = s.kvs := rfl
@[simp] theorem State.setStream_att (n : Nat) (x : Stream) : (s.setStream n x).att = s.att := rfl
@[simp] theorem State.setStream_crd (n : Nat) (x : Stream) : (s.setStream n x).crd = s.crd := rfl
@[simp] theorem State.setStream_boot (n : Nat) (x : Stream) : (s.setStream n x).boot = s.boot := rfl
@[simp] theorem State.setStream_plan (n : Nat) (x : Stream) : (s.setStream n x).plan = s.plan := rfl
@[simp] theorem State.setStream_jrnl (n : Nat) (x : Stream) : (s.setStream n x).jrnl = s.jrnl := rfl
@[simp] theorem State.setStream_amd (n : Nat) (x : Stream) : (s.setStream n x).amd = s.amd := rfl
@[simp] theorem State.setStream_acts (n : Nat) (x : Stream) : (s.setStream n x).acts = s.acts := rfl
@[simp] theorem State.setStream_bus (n : Nat) (x : Stream) : (s.setStream n x).bus = s.bus := rfl
@[simp] theorem State.setStream_rf (n : Nat) (x : Stream) : (s.setStream n x).rf = s.rf := rfl
@[simp] theorem State.setStream_mem (n : Nat) (x : Stream) : (s.setStream n x).mem = s.mem := rfl
@[simp] theorem State.setStream_out (n : Nat) (x : Stream) : (s.setStream n x).out = s.out := rfl
@[simp] theorem State.setStream_now (n : Nat) (x : Stream) : (s.setStream n x).now = s.now := rfl
@[simp] theorem State.setStream_freeN (n : Nat) (x : Stream) : (s.setStream n x).freeN = s.freeN := rfl
@[simp] theorem State.setStream_pending (n : Nat) (x : Stream) : (s.setStream n x).pending = s.pending := rfl

@[simp] theorem State.setChain_tb (n : Nat) (c : FltChain) : (s.setChain n c).tb = s.tb := rfl
@[simp] theorem State.setChain_ttu (n : Nat) (c : FltChain) : (s.setChain n c).ttu = s.ttu := rfl
@[simp] theorem State.setChain_ttuReqs (n : Nat) (c : FltChain) : (s.setChain n c).ttuReqs = s.ttuReqs := rfl
@[simp] theorem State.setChain_edges (n : Nat) (c : FltChain) : (s.setChain n c).edges = s.edges := rfl
@[simp] theorem State.setChain_evts (n : Nat) (c : FltChain) : (s.setChain n c).evts = s.evts := rfl
@[simp] theorem State.setChain_ten (n : Nat) (c : FltChain) : (s.setChain n c).ten = s.ten := rfl
@[simp] theorem State.setChain_slots (n : Nat) (c : FltChain) : (s.setChain n c).slots = s.slots := rfl
@[simp] theorem State.setChain_ela (n : Nat) (c : FltChain) : (s.setChain n c).ela = s.ela := rfl
@[simp] theorem State.setChain_groups (n : Nat) (c : FltChain) : (s.setChain n c).groups = s.groups := rfl
@[simp] theorem State.setChain_awake (n : Nat) (c : FltChain) : (s.setChain n c).awake = s.awake := rfl
@[simp] theorem State.setChain_pts (n : Nat) (c : FltChain) : (s.setChain n c).pts = s.pts := rfl
@[simp] theorem State.setChain_pntQ (n : Nat) (c : FltChain) : (s.setChain n c).pntQ = s.pntQ := rfl
@[simp] theorem State.setChain_sch (n : Nat) (c : FltChain) : (s.setChain n c).sch = s.sch := rfl
@[simp] theorem State.setChain_lop (n : Nat) (c : FltChain) : (s.setChain n c).lop = s.lop := rfl
@[simp] theorem State.setChain_adc (n : Nat) (c : FltChain) : (s.setChain n c).adc = s.adc := rfl
@[simp] theorem State.setChain_can (n : Nat) (c : FltChain) : (s.setChain n c).can = s.can := rfl
@[simp] theorem State.setChain_mbx (n : Nat) (c : FltChain) : (s.setChain n c).mbx = s.mbx := rfl
@[simp] theorem State.setChain_qps (n : Nat) (c : FltChain) : (s.setChain n c).qps = s.qps := rfl
@[simp] theorem State.setChain_links (n : Nat) (c : FltChain) : (s.setChain n c).links = s.links := rfl
@[simp] theorem State.setChain_ports (n : Nat) (c : FltChain) : (s.setChain n c).ports = s.ports := rfl
@[simp] theorem State.setChain_prp (n : Nat) (c : FltChain) : (s.setChain n c).prp = s.prp := rfl
@[simp] theorem State.setChain_sw (n : Nat) (c : FltChain) : (s.setChain n c).sw = s.sw := rfl
@[simp] theorem State.setChain_svx (n : Nat) (c : FltChain) : (s.setChain n c).svx = s.svx := rfl
@[simp] theorem State.setChain_par (n : Nat) (c : FltChain) : (s.setChain n c).par = s.par := rfl
@[simp] theorem State.setChain_sge (n : Nat) (c : FltChain) : (s.setChain n c).sge = s.sge := rfl
@[simp] theorem State.setChain_goose (n : Nat) (c : FltChain) : (s.setChain n c).goose = s.goose := rfl
@[simp] theorem State.setChain_evr (n : Nat) (c : FltChain) : (s.setChain n c).evr = s.evr := rfl
@[simp] theorem State.setChain_dcr (n : Nat) (c : FltChain) : (s.setChain n c).dcr = s.dcr := rfl
@[simp] theorem State.setChain_ltl (n : Nat) (c : FltChain) : (s.setChain n c).ltl = s.ltl := rfl
@[simp] theorem State.setChain_pwr (n : Nat) (c : FltChain) : (s.setChain n c).pwr = s.pwr := rfl
@[simp] theorem State.setChain_kvs (n : Nat) (c : FltChain) : (s.setChain n c).kvs = s.kvs := rfl
@[simp] theorem State.setChain_att (n : Nat) (c : FltChain) : (s.setChain n c).att = s.att := rfl
@[simp] theorem State.setChain_crd (n : Nat) (c : FltChain) : (s.setChain n c).crd = s.crd := rfl
@[simp] theorem State.setChain_boot (n : Nat) (c : FltChain) : (s.setChain n c).boot = s.boot := rfl
@[simp] theorem State.setChain_plan (n : Nat) (c : FltChain) : (s.setChain n c).plan = s.plan := rfl
@[simp] theorem State.setChain_jrnl (n : Nat) (c : FltChain) : (s.setChain n c).jrnl = s.jrnl := rfl
@[simp] theorem State.setChain_amd (n : Nat) (c : FltChain) : (s.setChain n c).amd = s.amd := rfl
@[simp] theorem State.setChain_acts (n : Nat) (c : FltChain) : (s.setChain n c).acts = s.acts := rfl
@[simp] theorem State.setChain_bus (n : Nat) (c : FltChain) : (s.setChain n c).bus = s.bus := rfl
@[simp] theorem State.setChain_rf (n : Nat) (c : FltChain) : (s.setChain n c).rf = s.rf := rfl
@[simp] theorem State.setChain_mem (n : Nat) (c : FltChain) : (s.setChain n c).mem = s.mem := rfl
@[simp] theorem State.setChain_out (n : Nat) (c : FltChain) : (s.setChain n c).out = s.out := rfl
@[simp] theorem State.setChain_now (n : Nat) (c : FltChain) : (s.setChain n c).now = s.now := rfl
@[simp] theorem State.setChain_freeN (n : Nat) (c : FltChain) : (s.setChain n c).freeN = s.freeN := rfl
@[simp] theorem State.setChain_pending (n : Nat) (c : FltChain) : (s.setChain n c).pending = s.pending := rfl

@[simp] theorem State.setPub_tb (i : Nat) (p : Pub) : (s.setPub i p).tb = s.tb := rfl
@[simp] theorem State.setPub_ttu (i : Nat) (p : Pub) : (s.setPub i p).ttu = s.ttu := rfl
@[simp] theorem State.setPub_ttuReqs (i : Nat) (p : Pub) : (s.setPub i p).ttuReqs = s.ttuReqs := rfl
@[simp] theorem State.setPub_edges (i : Nat) (p : Pub) : (s.setPub i p).edges = s.edges := rfl
@[simp] theorem State.setPub_evts (i : Nat) (p : Pub) : (s.setPub i p).evts = s.evts := rfl
@[simp] theorem State.setPub_ten (i : Nat) (p : Pub) : (s.setPub i p).ten = s.ten := rfl
@[simp] theorem State.setPub_slots (i : Nat) (p : Pub) : (s.setPub i p).slots = s.slots := rfl
@[simp] theorem State.setPub_ela (i : Nat) (p : Pub) : (s.setPub i p).ela = s.ela := rfl
@[simp] theorem State.setPub_groups (i : Nat) (p : Pub) : (s.setPub i p).groups = s.groups := rfl
@[simp] theorem State.setPub_awake (i : Nat) (p : Pub) : (s.setPub i p).awake = s.awake := rfl
@[simp] theorem State.setPub_pts (i : Nat) (p : Pub) : (s.setPub i p).pts = s.pts := rfl
@[simp] theorem State.setPub_pntQ (i : Nat) (p : Pub) : (s.setPub i p).pntQ = s.pntQ := rfl
@[simp] theorem State.setPub_sch (i : Nat) (p : Pub) : (s.setPub i p).sch = s.sch := rfl
@[simp] theorem State.setPub_lop (i : Nat) (p : Pub) : (s.setPub i p).lop = s.lop := rfl
@[simp] theorem State.setPub_adc (i : Nat) (p : Pub) : (s.setPub i p).adc = s.adc := rfl
@[simp] theorem State.setPub_can (i : Nat) (p : Pub) : (s.setPub i p).can = s.can := rfl
@[simp] theorem State.setPub_mbx (i : Nat) (p : Pub) : (s.setPub i p).mbx = s.mbx := rfl
@[simp] theorem State.setPub_qps (i : Nat) (p : Pub) : (s.setPub i p).qps = s.qps := rfl
@[simp] theorem State.setPub_links (i : Nat) (p : Pub) : (s.setPub i p).links = s.links := rfl
@[simp] theorem State.setPub_ports (i : Nat) (p : Pub) : (s.setPub i p).ports = s.ports := rfl
@[simp] theorem State.setPub_prp (i : Nat) (p : Pub) : (s.setPub i p).prp = s.prp := rfl
@[simp] theorem State.setPub_sw (i : Nat) (p : Pub) : (s.setPub i p).sw = s.sw := rfl
@[simp] theorem State.setPub_svx (i : Nat) (p : Pub) : (s.setPub i p).svx = s.svx := rfl
@[simp] theorem State.setPub_flt (i : Nat) (p : Pub) : (s.setPub i p).flt = s.flt := rfl
@[simp] theorem State.setPub_par (i : Nat) (p : Pub) : (s.setPub i p).par = s.par := rfl
@[simp] theorem State.setPub_sge (i : Nat) (p : Pub) : (s.setPub i p).sge = s.sge := rfl
@[simp] theorem State.setPub_evr (i : Nat) (p : Pub) : (s.setPub i p).evr = s.evr := rfl
@[simp] theorem State.setPub_dcr (i : Nat) (p : Pub) : (s.setPub i p).dcr = s.dcr := rfl
@[simp] theorem State.setPub_ltl (i : Nat) (p : Pub) : (s.setPub i p).ltl = s.ltl := rfl
@[simp] theorem State.setPub_pwr (i : Nat) (p : Pub) : (s.setPub i p).pwr = s.pwr := rfl
@[simp] theorem State.setPub_kvs (i : Nat) (p : Pub) : (s.setPub i p).kvs = s.kvs := rfl
@[simp] theorem State.setPub_att (i : Nat) (p : Pub) : (s.setPub i p).att = s.att := rfl
@[simp] theorem State.setPub_crd (i : Nat) (p : Pub) : (s.setPub i p).crd = s.crd := rfl
@[simp] theorem State.setPub_boot (i : Nat) (p : Pub) : (s.setPub i p).boot = s.boot := rfl
@[simp] theorem State.setPub_plan (i : Nat) (p : Pub) : (s.setPub i p).plan = s.plan := rfl
@[simp] theorem State.setPub_jrnl (i : Nat) (p : Pub) : (s.setPub i p).jrnl = s.jrnl := rfl
@[simp] theorem State.setPub_amd (i : Nat) (p : Pub) : (s.setPub i p).amd = s.amd := rfl
@[simp] theorem State.setPub_acts (i : Nat) (p : Pub) : (s.setPub i p).acts = s.acts := rfl
@[simp] theorem State.setPub_bus (i : Nat) (p : Pub) : (s.setPub i p).bus = s.bus := rfl
@[simp] theorem State.setPub_rf (i : Nat) (p : Pub) : (s.setPub i p).rf = s.rf := rfl
@[simp] theorem State.setPub_mem (i : Nat) (p : Pub) : (s.setPub i p).mem = s.mem := rfl
@[simp] theorem State.setPub_out (i : Nat) (p : Pub) : (s.setPub i p).out = s.out := rfl
@[simp] theorem State.setPub_now (i : Nat) (p : Pub) : (s.setPub i p).now = s.now := rfl
@[simp] theorem State.setPub_freeN (i : Nat) (p : Pub) : (s.setPub i p).freeN = s.freeN := rfl
@[simp] theorem State.setPub_pending (i : Nat) (p : Pub) : (s.setPub i p).pending = s.pending := rfl

@[simp] theorem State.setSub_tb (i : Nat) (x : Sub) : (s.setSub i x).tb = s.tb := rfl
@[simp] theorem State.setSub_ttu (i : Nat) (x : Sub) : (s.setSub i x).ttu = s.ttu := rfl
@[simp] theorem State.setSub_ttuReqs (i : Nat) (x : Sub) : (s.setSub i x).ttuReqs = s.ttuReqs := rfl
@[simp] theorem State.setSub_edges (i : Nat) (x : Sub) : (s.setSub i x).edges = s.edges := rfl
@[simp] theorem State.setSub_evts (i : Nat) (x : Sub) : (s.setSub i x).evts = s.evts := rfl
@[simp] theorem State.setSub_ten (i : Nat) (x : Sub) : (s.setSub i x).ten = s.ten := rfl
@[simp] theorem State.setSub_slots (i : Nat) (x : Sub) : (s.setSub i x).slots = s.slots := rfl
@[simp] theorem State.setSub_ela (i : Nat) (x : Sub) : (s.setSub i x).ela = s.ela := rfl
@[simp] theorem State.setSub_groups (i : Nat) (x : Sub) : (s.setSub i x).groups = s.groups := rfl
@[simp] theorem State.setSub_awake (i : Nat) (x : Sub) : (s.setSub i x).awake = s.awake := rfl
@[simp] theorem State.setSub_pts (i : Nat) (x : Sub) : (s.setSub i x).pts = s.pts := rfl
@[simp] theorem State.setSub_pntQ (i : Nat) (x : Sub) : (s.setSub i x).pntQ = s.pntQ := rfl
@[simp] theorem State.setSub_sch (i : Nat) (x : Sub) : (s.setSub i x).sch = s.sch := rfl
@[simp] theorem State.setSub_lop (i : Nat) (x : Sub) : (s.setSub i x).lop = s.lop := rfl
@[simp] theorem State.setSub_adc (i : Nat) (x : Sub) : (s.setSub i x).adc = s.adc := rfl
@[simp] theorem State.setSub_can (i : Nat) (x : Sub) : (s.setSub i x).can = s.can := rfl
@[simp] theorem State.setSub_mbx (i : Nat) (x : Sub) : (s.setSub i x).mbx = s.mbx := rfl
@[simp] theorem State.setSub_qps (i : Nat) (x : Sub) : (s.setSub i x).qps = s.qps := rfl
@[simp] theorem State.setSub_links (i : Nat) (x : Sub) : (s.setSub i x).links = s.links := rfl
@[simp] theorem State.setSub_ports (i : Nat) (x : Sub) : (s.setSub i x).ports = s.ports := rfl
@[simp] theorem State.setSub_prp (i : Nat) (x : Sub) : (s.setSub i x).prp = s.prp := rfl
@[simp] theorem State.setSub_sw (i : Nat) (x : Sub) : (s.setSub i x).sw = s.sw := rfl
@[simp] theorem State.setSub_svx (i : Nat) (x : Sub) : (s.setSub i x).svx = s.svx := rfl
@[simp] theorem State.setSub_flt (i : Nat) (x : Sub) : (s.setSub i x).flt = s.flt := rfl
@[simp] theorem State.setSub_par (i : Nat) (x : Sub) : (s.setSub i x).par = s.par := rfl
@[simp] theorem State.setSub_sge (i : Nat) (x : Sub) : (s.setSub i x).sge = s.sge := rfl
@[simp] theorem State.setSub_evr (i : Nat) (x : Sub) : (s.setSub i x).evr = s.evr := rfl
@[simp] theorem State.setSub_dcr (i : Nat) (x : Sub) : (s.setSub i x).dcr = s.dcr := rfl
@[simp] theorem State.setSub_ltl (i : Nat) (x : Sub) : (s.setSub i x).ltl = s.ltl := rfl
@[simp] theorem State.setSub_pwr (i : Nat) (x : Sub) : (s.setSub i x).pwr = s.pwr := rfl
@[simp] theorem State.setSub_kvs (i : Nat) (x : Sub) : (s.setSub i x).kvs = s.kvs := rfl
@[simp] theorem State.setSub_att (i : Nat) (x : Sub) : (s.setSub i x).att = s.att := rfl
@[simp] theorem State.setSub_crd (i : Nat) (x : Sub) : (s.setSub i x).crd = s.crd := rfl
@[simp] theorem State.setSub_boot (i : Nat) (x : Sub) : (s.setSub i x).boot = s.boot := rfl
@[simp] theorem State.setSub_plan (i : Nat) (x : Sub) : (s.setSub i x).plan = s.plan := rfl
@[simp] theorem State.setSub_jrnl (i : Nat) (x : Sub) : (s.setSub i x).jrnl = s.jrnl := rfl
@[simp] theorem State.setSub_amd (i : Nat) (x : Sub) : (s.setSub i x).amd = s.amd := rfl
@[simp] theorem State.setSub_acts (i : Nat) (x : Sub) : (s.setSub i x).acts = s.acts := rfl
@[simp] theorem State.setSub_bus (i : Nat) (x : Sub) : (s.setSub i x).bus = s.bus := rfl
@[simp] theorem State.setSub_rf (i : Nat) (x : Sub) : (s.setSub i x).rf = s.rf := rfl
@[simp] theorem State.setSub_mem (i : Nat) (x : Sub) : (s.setSub i x).mem = s.mem := rfl
@[simp] theorem State.setSub_out (i : Nat) (x : Sub) : (s.setSub i x).out = s.out := rfl
@[simp] theorem State.setSub_now (i : Nat) (x : Sub) : (s.setSub i x).now = s.now := rfl
@[simp] theorem State.setSub_freeN (i : Nat) (x : Sub) : (s.setSub i x).freeN = s.freeN := rfl
@[simp] theorem State.setSub_pending (i : Nat) (x : Sub) : (s.setSub i x).pending = s.pending := rfl

@[simp] theorem State.setParTen_tb (t : Nat) (p : PairTen) : (s.setParTen t p).tb = s.tb := rfl
@[simp] theorem State.setParTen_ttu (t : Nat) (p : PairTen) : (s.setParTen t p).ttu = s.ttu := rfl
@[simp] theorem State.setParTen_ttuReqs (t : Nat) (p : PairTen) : (s.setParTen t p).ttuReqs = s.ttuReqs := rfl
@[simp] theorem State.setParTen_edges (t : Nat) (p : PairTen) : (s.setParTen t p).edges = s.edges := rfl
@[simp] theorem State.setParTen_evts (t : Nat) (p : PairTen) : (s.setParTen t p).evts = s.evts := rfl
@[simp] theorem State.setParTen_ten (t : Nat) (p : PairTen) : (s.setParTen t p).ten = s.ten := rfl
@[simp] theorem State.setParTen_slots (t : Nat) (p : PairTen) : (s.setParTen t p).slots = s.slots := rfl
@[simp] theorem State.setParTen_ela (t : Nat) (p : PairTen) : (s.setParTen t p).ela = s.ela := rfl
@[simp] theorem State.setParTen_groups (t : Nat) (p : PairTen) : (s.setParTen t p).groups = s.groups := rfl
@[simp] theorem State.setParTen_awake (t : Nat) (p : PairTen) : (s.setParTen t p).awake = s.awake := rfl
@[simp] theorem State.setParTen_pts (t : Nat) (p : PairTen) : (s.setParTen t p).pts = s.pts := rfl
@[simp] theorem State.setParTen_pntQ (t : Nat) (p : PairTen) : (s.setParTen t p).pntQ = s.pntQ := rfl
@[simp] theorem State.setParTen_sch (t : Nat) (p : PairTen) : (s.setParTen t p).sch = s.sch := rfl
@[simp] theorem State.setParTen_lop (t : Nat) (p : PairTen) : (s.setParTen t p).lop = s.lop := rfl
@[simp] theorem State.setParTen_adc (t : Nat) (p : PairTen) : (s.setParTen t p).adc = s.adc := rfl
@[simp] theorem State.setParTen_can (t : Nat) (p : PairTen) : (s.setParTen t p).can = s.can := rfl
@[simp] theorem State.setParTen_mbx (t : Nat) (p : PairTen) : (s.setParTen t p).mbx = s.mbx := rfl
@[simp] theorem State.setParTen_qps (t : Nat) (p : PairTen) : (s.setParTen t p).qps = s.qps := rfl
@[simp] theorem State.setParTen_links (t : Nat) (p : PairTen) : (s.setParTen t p).links = s.links := rfl
@[simp] theorem State.setParTen_ports (t : Nat) (p : PairTen) : (s.setParTen t p).ports = s.ports := rfl
@[simp] theorem State.setParTen_prp (t : Nat) (p : PairTen) : (s.setParTen t p).prp = s.prp := rfl
@[simp] theorem State.setParTen_sw (t : Nat) (p : PairTen) : (s.setParTen t p).sw = s.sw := rfl
@[simp] theorem State.setParTen_svx (t : Nat) (p : PairTen) : (s.setParTen t p).svx = s.svx := rfl
@[simp] theorem State.setParTen_flt (t : Nat) (p : PairTen) : (s.setParTen t p).flt = s.flt := rfl
@[simp] theorem State.setParTen_sge (t : Nat) (p : PairTen) : (s.setParTen t p).sge = s.sge := rfl
@[simp] theorem State.setParTen_goose (t : Nat) (p : PairTen) : (s.setParTen t p).goose = s.goose := rfl
@[simp] theorem State.setParTen_evr (t : Nat) (p : PairTen) : (s.setParTen t p).evr = s.evr := rfl
@[simp] theorem State.setParTen_dcr (t : Nat) (p : PairTen) : (s.setParTen t p).dcr = s.dcr := rfl
@[simp] theorem State.setParTen_ltl (t : Nat) (p : PairTen) : (s.setParTen t p).ltl = s.ltl := rfl
@[simp] theorem State.setParTen_pwr (t : Nat) (p : PairTen) : (s.setParTen t p).pwr = s.pwr := rfl
@[simp] theorem State.setParTen_kvs (t : Nat) (p : PairTen) : (s.setParTen t p).kvs = s.kvs := rfl
@[simp] theorem State.setParTen_att (t : Nat) (p : PairTen) : (s.setParTen t p).att = s.att := rfl
@[simp] theorem State.setParTen_crd (t : Nat) (p : PairTen) : (s.setParTen t p).crd = s.crd := rfl
@[simp] theorem State.setParTen_boot (t : Nat) (p : PairTen) : (s.setParTen t p).boot = s.boot := rfl
@[simp] theorem State.setParTen_plan (t : Nat) (p : PairTen) : (s.setParTen t p).plan = s.plan := rfl
@[simp] theorem State.setParTen_jrnl (t : Nat) (p : PairTen) : (s.setParTen t p).jrnl = s.jrnl := rfl
@[simp] theorem State.setParTen_amd (t : Nat) (p : PairTen) : (s.setParTen t p).amd = s.amd := rfl
@[simp] theorem State.setParTen_acts (t : Nat) (p : PairTen) : (s.setParTen t p).acts = s.acts := rfl
@[simp] theorem State.setParTen_bus (t : Nat) (p : PairTen) : (s.setParTen t p).bus = s.bus := rfl
@[simp] theorem State.setParTen_rf (t : Nat) (p : PairTen) : (s.setParTen t p).rf = s.rf := rfl
@[simp] theorem State.setParTen_mem (t : Nat) (p : PairTen) : (s.setParTen t p).mem = s.mem := rfl
@[simp] theorem State.setParTen_out (t : Nat) (p : PairTen) : (s.setParTen t p).out = s.out := rfl
@[simp] theorem State.setParTen_now (t : Nat) (p : PairTen) : (s.setParTen t p).now = s.now := rfl
@[simp] theorem State.setParTen_freeN (t : Nat) (p : PairTen) : (s.setParTen t p).freeN = s.freeN := rfl
@[simp] theorem State.setParTen_pending (t : Nat) (p : PairTen) : (s.setParTen t p).pending = s.pending := rfl

@[simp] theorem State.setSch_tb (t : Nat) (c : SchTen) : (s.setSch t c).tb = s.tb := rfl
@[simp] theorem State.setSch_ttu (t : Nat) (c : SchTen) : (s.setSch t c).ttu = s.ttu := rfl
@[simp] theorem State.setSch_ttuReqs (t : Nat) (c : SchTen) : (s.setSch t c).ttuReqs = s.ttuReqs := rfl
@[simp] theorem State.setSch_edges (t : Nat) (c : SchTen) : (s.setSch t c).edges = s.edges := rfl
@[simp] theorem State.setSch_evts (t : Nat) (c : SchTen) : (s.setSch t c).evts = s.evts := rfl
@[simp] theorem State.setSch_ten (t : Nat) (c : SchTen) : (s.setSch t c).ten = s.ten := rfl
@[simp] theorem State.setSch_slots (t : Nat) (c : SchTen) : (s.setSch t c).slots = s.slots := rfl
@[simp] theorem State.setSch_ela (t : Nat) (c : SchTen) : (s.setSch t c).ela = s.ela := rfl
@[simp] theorem State.setSch_groups (t : Nat) (c : SchTen) : (s.setSch t c).groups = s.groups := rfl
@[simp] theorem State.setSch_awake (t : Nat) (c : SchTen) : (s.setSch t c).awake = s.awake := rfl
@[simp] theorem State.setSch_pts (t : Nat) (c : SchTen) : (s.setSch t c).pts = s.pts := rfl
@[simp] theorem State.setSch_pntQ (t : Nat) (c : SchTen) : (s.setSch t c).pntQ = s.pntQ := rfl
@[simp] theorem State.setSch_lop (t : Nat) (c : SchTen) : (s.setSch t c).lop = s.lop := rfl
@[simp] theorem State.setSch_adc (t : Nat) (c : SchTen) : (s.setSch t c).adc = s.adc := rfl
@[simp] theorem State.setSch_can (t : Nat) (c : SchTen) : (s.setSch t c).can = s.can := rfl
@[simp] theorem State.setSch_mbx (t : Nat) (c : SchTen) : (s.setSch t c).mbx = s.mbx := rfl
@[simp] theorem State.setSch_qps (t : Nat) (c : SchTen) : (s.setSch t c).qps = s.qps := rfl
@[simp] theorem State.setSch_links (t : Nat) (c : SchTen) : (s.setSch t c).links = s.links := rfl
@[simp] theorem State.setSch_ports (t : Nat) (c : SchTen) : (s.setSch t c).ports = s.ports := rfl
@[simp] theorem State.setSch_prp (t : Nat) (c : SchTen) : (s.setSch t c).prp = s.prp := rfl
@[simp] theorem State.setSch_sw (t : Nat) (c : SchTen) : (s.setSch t c).sw = s.sw := rfl
@[simp] theorem State.setSch_svx (t : Nat) (c : SchTen) : (s.setSch t c).svx = s.svx := rfl
@[simp] theorem State.setSch_flt (t : Nat) (c : SchTen) : (s.setSch t c).flt = s.flt := rfl
@[simp] theorem State.setSch_par (t : Nat) (c : SchTen) : (s.setSch t c).par = s.par := rfl
@[simp] theorem State.setSch_sge (t : Nat) (c : SchTen) : (s.setSch t c).sge = s.sge := rfl
@[simp] theorem State.setSch_goose (t : Nat) (c : SchTen) : (s.setSch t c).goose = s.goose := rfl
@[simp] theorem State.setSch_evr (t : Nat) (c : SchTen) : (s.setSch t c).evr = s.evr := rfl
@[simp] theorem State.setSch_dcr (t : Nat) (c : SchTen) : (s.setSch t c).dcr = s.dcr := rfl
@[simp] theorem State.setSch_ltl (t : Nat) (c : SchTen) : (s.setSch t c).ltl = s.ltl := rfl
@[simp] theorem State.setSch_pwr (t : Nat) (c : SchTen) : (s.setSch t c).pwr = s.pwr := rfl
@[simp] theorem State.setSch_kvs (t : Nat) (c : SchTen) : (s.setSch t c).kvs = s.kvs := rfl
@[simp] theorem State.setSch_att (t : Nat) (c : SchTen) : (s.setSch t c).att = s.att := rfl
@[simp] theorem State.setSch_crd (t : Nat) (c : SchTen) : (s.setSch t c).crd = s.crd := rfl
@[simp] theorem State.setSch_boot (t : Nat) (c : SchTen) : (s.setSch t c).boot = s.boot := rfl
@[simp] theorem State.setSch_plan (t : Nat) (c : SchTen) : (s.setSch t c).plan = s.plan := rfl
@[simp] theorem State.setSch_jrnl (t : Nat) (c : SchTen) : (s.setSch t c).jrnl = s.jrnl := rfl
@[simp] theorem State.setSch_amd (t : Nat) (c : SchTen) : (s.setSch t c).amd = s.amd := rfl
@[simp] theorem State.setSch_acts (t : Nat) (c : SchTen) : (s.setSch t c).acts = s.acts := rfl
@[simp] theorem State.setSch_bus (t : Nat) (c : SchTen) : (s.setSch t c).bus = s.bus := rfl
@[simp] theorem State.setSch_rf (t : Nat) (c : SchTen) : (s.setSch t c).rf = s.rf := rfl
@[simp] theorem State.setSch_mem (t : Nat) (c : SchTen) : (s.setSch t c).mem = s.mem := rfl
@[simp] theorem State.setSch_out (t : Nat) (c : SchTen) : (s.setSch t c).out = s.out := rfl
@[simp] theorem State.setSch_now (t : Nat) (c : SchTen) : (s.setSch t c).now = s.now := rfl
@[simp] theorem State.setSch_freeN (t : Nat) (c : SchTen) : (s.setSch t c).freeN = s.freeN := rfl
@[simp] theorem State.setSch_pending (t : Nat) (c : SchTen) : (s.setSch t c).pending = s.pending := rfl

@[simp] theorem State.setLoop_tb (n : Nat) (l : Loop) : (s.setLoop n l).tb = s.tb := rfl
@[simp] theorem State.setLoop_ttu (n : Nat) (l : Loop) : (s.setLoop n l).ttu = s.ttu := rfl
@[simp] theorem State.setLoop_ttuReqs (n : Nat) (l : Loop) : (s.setLoop n l).ttuReqs = s.ttuReqs := rfl
@[simp] theorem State.setLoop_edges (n : Nat) (l : Loop) : (s.setLoop n l).edges = s.edges := rfl
@[simp] theorem State.setLoop_evts (n : Nat) (l : Loop) : (s.setLoop n l).evts = s.evts := rfl
@[simp] theorem State.setLoop_ten (n : Nat) (l : Loop) : (s.setLoop n l).ten = s.ten := rfl
@[simp] theorem State.setLoop_slots (n : Nat) (l : Loop) : (s.setLoop n l).slots = s.slots := rfl
@[simp] theorem State.setLoop_ela (n : Nat) (l : Loop) : (s.setLoop n l).ela = s.ela := rfl
@[simp] theorem State.setLoop_groups (n : Nat) (l : Loop) : (s.setLoop n l).groups = s.groups := rfl
@[simp] theorem State.setLoop_awake (n : Nat) (l : Loop) : (s.setLoop n l).awake = s.awake := rfl
@[simp] theorem State.setLoop_pts (n : Nat) (l : Loop) : (s.setLoop n l).pts = s.pts := rfl
@[simp] theorem State.setLoop_pntQ (n : Nat) (l : Loop) : (s.setLoop n l).pntQ = s.pntQ := rfl
@[simp] theorem State.setLoop_sch (n : Nat) (l : Loop) : (s.setLoop n l).sch = s.sch := rfl
@[simp] theorem State.setLoop_adc (n : Nat) (l : Loop) : (s.setLoop n l).adc = s.adc := rfl
@[simp] theorem State.setLoop_can (n : Nat) (l : Loop) : (s.setLoop n l).can = s.can := rfl
@[simp] theorem State.setLoop_mbx (n : Nat) (l : Loop) : (s.setLoop n l).mbx = s.mbx := rfl
@[simp] theorem State.setLoop_qps (n : Nat) (l : Loop) : (s.setLoop n l).qps = s.qps := rfl
@[simp] theorem State.setLoop_links (n : Nat) (l : Loop) : (s.setLoop n l).links = s.links := rfl
@[simp] theorem State.setLoop_ports (n : Nat) (l : Loop) : (s.setLoop n l).ports = s.ports := rfl
@[simp] theorem State.setLoop_prp (n : Nat) (l : Loop) : (s.setLoop n l).prp = s.prp := rfl
@[simp] theorem State.setLoop_sw (n : Nat) (l : Loop) : (s.setLoop n l).sw = s.sw := rfl
@[simp] theorem State.setLoop_svx (n : Nat) (l : Loop) : (s.setLoop n l).svx = s.svx := rfl
@[simp] theorem State.setLoop_flt (n : Nat) (l : Loop) : (s.setLoop n l).flt = s.flt := rfl
@[simp] theorem State.setLoop_par (n : Nat) (l : Loop) : (s.setLoop n l).par = s.par := rfl
@[simp] theorem State.setLoop_sge (n : Nat) (l : Loop) : (s.setLoop n l).sge = s.sge := rfl
@[simp] theorem State.setLoop_goose (n : Nat) (l : Loop) : (s.setLoop n l).goose = s.goose := rfl
@[simp] theorem State.setLoop_evr (n : Nat) (l : Loop) : (s.setLoop n l).evr = s.evr := rfl
@[simp] theorem State.setLoop_dcr (n : Nat) (l : Loop) : (s.setLoop n l).dcr = s.dcr := rfl
@[simp] theorem State.setLoop_ltl (n : Nat) (l : Loop) : (s.setLoop n l).ltl = s.ltl := rfl
@[simp] theorem State.setLoop_pwr (n : Nat) (l : Loop) : (s.setLoop n l).pwr = s.pwr := rfl
@[simp] theorem State.setLoop_kvs (n : Nat) (l : Loop) : (s.setLoop n l).kvs = s.kvs := rfl
@[simp] theorem State.setLoop_att (n : Nat) (l : Loop) : (s.setLoop n l).att = s.att := rfl
@[simp] theorem State.setLoop_crd (n : Nat) (l : Loop) : (s.setLoop n l).crd = s.crd := rfl
@[simp] theorem State.setLoop_boot (n : Nat) (l : Loop) : (s.setLoop n l).boot = s.boot := rfl
@[simp] theorem State.setLoop_plan (n : Nat) (l : Loop) : (s.setLoop n l).plan = s.plan := rfl
@[simp] theorem State.setLoop_jrnl (n : Nat) (l : Loop) : (s.setLoop n l).jrnl = s.jrnl := rfl
@[simp] theorem State.setLoop_amd (n : Nat) (l : Loop) : (s.setLoop n l).amd = s.amd := rfl
@[simp] theorem State.setLoop_acts (n : Nat) (l : Loop) : (s.setLoop n l).acts = s.acts := rfl
@[simp] theorem State.setLoop_bus (n : Nat) (l : Loop) : (s.setLoop n l).bus = s.bus := rfl
@[simp] theorem State.setLoop_rf (n : Nat) (l : Loop) : (s.setLoop n l).rf = s.rf := rfl
@[simp] theorem State.setLoop_mem (n : Nat) (l : Loop) : (s.setLoop n l).mem = s.mem := rfl
@[simp] theorem State.setLoop_out (n : Nat) (l : Loop) : (s.setLoop n l).out = s.out := rfl
@[simp] theorem State.setLoop_now (n : Nat) (l : Loop) : (s.setLoop n l).now = s.now := rfl
@[simp] theorem State.setLoop_freeN (n : Nat) (l : Loop) : (s.setLoop n l).freeN = s.freeN := rfl
@[simp] theorem State.setLoop_pending (n : Nat) (l : Loop) : (s.setLoop n l).pending = s.pending := rfl

@[simp] theorem State.setConv_tb (k : Nat) (c : Adc) : (s.setConv k c).tb = s.tb := rfl
@[simp] theorem State.setConv_ttu (k : Nat) (c : Adc) : (s.setConv k c).ttu = s.ttu := rfl
@[simp] theorem State.setConv_ttuReqs (k : Nat) (c : Adc) : (s.setConv k c).ttuReqs = s.ttuReqs := rfl
@[simp] theorem State.setConv_edges (k : Nat) (c : Adc) : (s.setConv k c).edges = s.edges := rfl
@[simp] theorem State.setConv_evts (k : Nat) (c : Adc) : (s.setConv k c).evts = s.evts := rfl
@[simp] theorem State.setConv_ten (k : Nat) (c : Adc) : (s.setConv k c).ten = s.ten := rfl
@[simp] theorem State.setConv_slots (k : Nat) (c : Adc) : (s.setConv k c).slots = s.slots := rfl
@[simp] theorem State.setConv_ela (k : Nat) (c : Adc) : (s.setConv k c).ela = s.ela := rfl
@[simp] theorem State.setConv_groups (k : Nat) (c : Adc) : (s.setConv k c).groups = s.groups := rfl
@[simp] theorem State.setConv_awake (k : Nat) (c : Adc) : (s.setConv k c).awake = s.awake := rfl
@[simp] theorem State.setConv_pts (k : Nat) (c : Adc) : (s.setConv k c).pts = s.pts := rfl
@[simp] theorem State.setConv_pntQ (k : Nat) (c : Adc) : (s.setConv k c).pntQ = s.pntQ := rfl
@[simp] theorem State.setConv_sch (k : Nat) (c : Adc) : (s.setConv k c).sch = s.sch := rfl
@[simp] theorem State.setConv_lop (k : Nat) (c : Adc) : (s.setConv k c).lop = s.lop := rfl
@[simp] theorem State.setConv_can (k : Nat) (c : Adc) : (s.setConv k c).can = s.can := rfl
@[simp] theorem State.setConv_mbx (k : Nat) (c : Adc) : (s.setConv k c).mbx = s.mbx := rfl
@[simp] theorem State.setConv_qps (k : Nat) (c : Adc) : (s.setConv k c).qps = s.qps := rfl
@[simp] theorem State.setConv_links (k : Nat) (c : Adc) : (s.setConv k c).links = s.links := rfl
@[simp] theorem State.setConv_ports (k : Nat) (c : Adc) : (s.setConv k c).ports = s.ports := rfl
@[simp] theorem State.setConv_prp (k : Nat) (c : Adc) : (s.setConv k c).prp = s.prp := rfl
@[simp] theorem State.setConv_sw (k : Nat) (c : Adc) : (s.setConv k c).sw = s.sw := rfl
@[simp] theorem State.setConv_svx (k : Nat) (c : Adc) : (s.setConv k c).svx = s.svx := rfl
@[simp] theorem State.setConv_flt (k : Nat) (c : Adc) : (s.setConv k c).flt = s.flt := rfl
@[simp] theorem State.setConv_par (k : Nat) (c : Adc) : (s.setConv k c).par = s.par := rfl
@[simp] theorem State.setConv_sge (k : Nat) (c : Adc) : (s.setConv k c).sge = s.sge := rfl
@[simp] theorem State.setConv_goose (k : Nat) (c : Adc) : (s.setConv k c).goose = s.goose := rfl
@[simp] theorem State.setConv_evr (k : Nat) (c : Adc) : (s.setConv k c).evr = s.evr := rfl
@[simp] theorem State.setConv_dcr (k : Nat) (c : Adc) : (s.setConv k c).dcr = s.dcr := rfl
@[simp] theorem State.setConv_ltl (k : Nat) (c : Adc) : (s.setConv k c).ltl = s.ltl := rfl
@[simp] theorem State.setConv_pwr (k : Nat) (c : Adc) : (s.setConv k c).pwr = s.pwr := rfl
@[simp] theorem State.setConv_kvs (k : Nat) (c : Adc) : (s.setConv k c).kvs = s.kvs := rfl
@[simp] theorem State.setConv_att (k : Nat) (c : Adc) : (s.setConv k c).att = s.att := rfl
@[simp] theorem State.setConv_crd (k : Nat) (c : Adc) : (s.setConv k c).crd = s.crd := rfl
@[simp] theorem State.setConv_boot (k : Nat) (c : Adc) : (s.setConv k c).boot = s.boot := rfl
@[simp] theorem State.setConv_plan (k : Nat) (c : Adc) : (s.setConv k c).plan = s.plan := rfl
@[simp] theorem State.setConv_jrnl (k : Nat) (c : Adc) : (s.setConv k c).jrnl = s.jrnl := rfl
@[simp] theorem State.setConv_amd (k : Nat) (c : Adc) : (s.setConv k c).amd = s.amd := rfl
@[simp] theorem State.setConv_acts (k : Nat) (c : Adc) : (s.setConv k c).acts = s.acts := rfl
@[simp] theorem State.setConv_bus (k : Nat) (c : Adc) : (s.setConv k c).bus = s.bus := rfl
@[simp] theorem State.setConv_rf (k : Nat) (c : Adc) : (s.setConv k c).rf = s.rf := rfl
@[simp] theorem State.setConv_mem (k : Nat) (c : Adc) : (s.setConv k c).mem = s.mem := rfl
@[simp] theorem State.setConv_out (k : Nat) (c : Adc) : (s.setConv k c).out = s.out := rfl
@[simp] theorem State.setConv_now (k : Nat) (c : Adc) : (s.setConv k c).now = s.now := rfl
@[simp] theorem State.setConv_freeN (k : Nat) (c : Adc) : (s.setConv k c).freeN = s.freeN := rfl
@[simp] theorem State.setConv_pending (k : Nat) (c : Adc) : (s.setConv k c).pending = s.pending := rfl

@[simp] theorem State.setCan_tb (k : Nat) (c : Can) : (s.setCan k c).tb = s.tb := rfl
@[simp] theorem State.setCan_ttu (k : Nat) (c : Can) : (s.setCan k c).ttu = s.ttu := rfl
@[simp] theorem State.setCan_ttuReqs (k : Nat) (c : Can) : (s.setCan k c).ttuReqs = s.ttuReqs := rfl
@[simp] theorem State.setCan_edges (k : Nat) (c : Can) : (s.setCan k c).edges = s.edges := rfl
@[simp] theorem State.setCan_evts (k : Nat) (c : Can) : (s.setCan k c).evts = s.evts := rfl
@[simp] theorem State.setCan_ten (k : Nat) (c : Can) : (s.setCan k c).ten = s.ten := rfl
@[simp] theorem State.setCan_slots (k : Nat) (c : Can) : (s.setCan k c).slots = s.slots := rfl
@[simp] theorem State.setCan_ela (k : Nat) (c : Can) : (s.setCan k c).ela = s.ela := rfl
@[simp] theorem State.setCan_groups (k : Nat) (c : Can) : (s.setCan k c).groups = s.groups := rfl
@[simp] theorem State.setCan_awake (k : Nat) (c : Can) : (s.setCan k c).awake = s.awake := rfl
@[simp] theorem State.setCan_pts (k : Nat) (c : Can) : (s.setCan k c).pts = s.pts := rfl
@[simp] theorem State.setCan_pntQ (k : Nat) (c : Can) : (s.setCan k c).pntQ = s.pntQ := rfl
@[simp] theorem State.setCan_sch (k : Nat) (c : Can) : (s.setCan k c).sch = s.sch := rfl
@[simp] theorem State.setCan_lop (k : Nat) (c : Can) : (s.setCan k c).lop = s.lop := rfl
@[simp] theorem State.setCan_adc (k : Nat) (c : Can) : (s.setCan k c).adc = s.adc := rfl
@[simp] theorem State.setCan_mbx (k : Nat) (c : Can) : (s.setCan k c).mbx = s.mbx := rfl
@[simp] theorem State.setCan_qps (k : Nat) (c : Can) : (s.setCan k c).qps = s.qps := rfl
@[simp] theorem State.setCan_links (k : Nat) (c : Can) : (s.setCan k c).links = s.links := rfl
@[simp] theorem State.setCan_ports (k : Nat) (c : Can) : (s.setCan k c).ports = s.ports := rfl
@[simp] theorem State.setCan_prp (k : Nat) (c : Can) : (s.setCan k c).prp = s.prp := rfl
@[simp] theorem State.setCan_sw (k : Nat) (c : Can) : (s.setCan k c).sw = s.sw := rfl
@[simp] theorem State.setCan_svx (k : Nat) (c : Can) : (s.setCan k c).svx = s.svx := rfl
@[simp] theorem State.setCan_flt (k : Nat) (c : Can) : (s.setCan k c).flt = s.flt := rfl
@[simp] theorem State.setCan_par (k : Nat) (c : Can) : (s.setCan k c).par = s.par := rfl
@[simp] theorem State.setCan_sge (k : Nat) (c : Can) : (s.setCan k c).sge = s.sge := rfl
@[simp] theorem State.setCan_goose (k : Nat) (c : Can) : (s.setCan k c).goose = s.goose := rfl
@[simp] theorem State.setCan_evr (k : Nat) (c : Can) : (s.setCan k c).evr = s.evr := rfl
@[simp] theorem State.setCan_dcr (k : Nat) (c : Can) : (s.setCan k c).dcr = s.dcr := rfl
@[simp] theorem State.setCan_ltl (k : Nat) (c : Can) : (s.setCan k c).ltl = s.ltl := rfl
@[simp] theorem State.setCan_pwr (k : Nat) (c : Can) : (s.setCan k c).pwr = s.pwr := rfl
@[simp] theorem State.setCan_kvs (k : Nat) (c : Can) : (s.setCan k c).kvs = s.kvs := rfl
@[simp] theorem State.setCan_att (k : Nat) (c : Can) : (s.setCan k c).att = s.att := rfl
@[simp] theorem State.setCan_crd (k : Nat) (c : Can) : (s.setCan k c).crd = s.crd := rfl
@[simp] theorem State.setCan_boot (k : Nat) (c : Can) : (s.setCan k c).boot = s.boot := rfl
@[simp] theorem State.setCan_plan (k : Nat) (c : Can) : (s.setCan k c).plan = s.plan := rfl
@[simp] theorem State.setCan_jrnl (k : Nat) (c : Can) : (s.setCan k c).jrnl = s.jrnl := rfl
@[simp] theorem State.setCan_amd (k : Nat) (c : Can) : (s.setCan k c).amd = s.amd := rfl
@[simp] theorem State.setCan_acts (k : Nat) (c : Can) : (s.setCan k c).acts = s.acts := rfl
@[simp] theorem State.setCan_bus (k : Nat) (c : Can) : (s.setCan k c).bus = s.bus := rfl
@[simp] theorem State.setCan_rf (k : Nat) (c : Can) : (s.setCan k c).rf = s.rf := rfl
@[simp] theorem State.setCan_mem (k : Nat) (c : Can) : (s.setCan k c).mem = s.mem := rfl
@[simp] theorem State.setCan_out (k : Nat) (c : Can) : (s.setCan k c).out = s.out := rfl
@[simp] theorem State.setCan_now (k : Nat) (c : Can) : (s.setCan k c).now = s.now := rfl
@[simp] theorem State.setCan_freeN (k : Nat) (c : Can) : (s.setCan k c).freeN = s.freeN := rfl
@[simp] theorem State.setCan_pending (k : Nat) (c : Can) : (s.setCan k c).pending = s.pending := rfl

@[simp] theorem State.setMailbox_tb (w : Nat) (m : Mailbox) : (s.setMailbox w m).tb = s.tb := rfl
@[simp] theorem State.setMailbox_ttu (w : Nat) (m : Mailbox) : (s.setMailbox w m).ttu = s.ttu := rfl
@[simp] theorem State.setMailbox_ttuReqs (w : Nat) (m : Mailbox) : (s.setMailbox w m).ttuReqs = s.ttuReqs := rfl
@[simp] theorem State.setMailbox_edges (w : Nat) (m : Mailbox) : (s.setMailbox w m).edges = s.edges := rfl
@[simp] theorem State.setMailbox_evts (w : Nat) (m : Mailbox) : (s.setMailbox w m).evts = s.evts := rfl
@[simp] theorem State.setMailbox_ten (w : Nat) (m : Mailbox) : (s.setMailbox w m).ten = s.ten := rfl
@[simp] theorem State.setMailbox_slots (w : Nat) (m : Mailbox) : (s.setMailbox w m).slots = s.slots := rfl
@[simp] theorem State.setMailbox_ela (w : Nat) (m : Mailbox) : (s.setMailbox w m).ela = s.ela := rfl
@[simp] theorem State.setMailbox_groups (w : Nat) (m : Mailbox) : (s.setMailbox w m).groups = s.groups := rfl
@[simp] theorem State.setMailbox_awake (w : Nat) (m : Mailbox) : (s.setMailbox w m).awake = s.awake := rfl
@[simp] theorem State.setMailbox_pts (w : Nat) (m : Mailbox) : (s.setMailbox w m).pts = s.pts := rfl
@[simp] theorem State.setMailbox_pntQ (w : Nat) (m : Mailbox) : (s.setMailbox w m).pntQ = s.pntQ := rfl
@[simp] theorem State.setMailbox_sch (w : Nat) (m : Mailbox) : (s.setMailbox w m).sch = s.sch := rfl
@[simp] theorem State.setMailbox_lop (w : Nat) (m : Mailbox) : (s.setMailbox w m).lop = s.lop := rfl
@[simp] theorem State.setMailbox_adc (w : Nat) (m : Mailbox) : (s.setMailbox w m).adc = s.adc := rfl
@[simp] theorem State.setMailbox_can (w : Nat) (m : Mailbox) : (s.setMailbox w m).can = s.can := rfl
@[simp] theorem State.setMailbox_qps (w : Nat) (m : Mailbox) : (s.setMailbox w m).qps = s.qps := rfl
@[simp] theorem State.setMailbox_links (w : Nat) (m : Mailbox) : (s.setMailbox w m).links = s.links := rfl
@[simp] theorem State.setMailbox_ports (w : Nat) (m : Mailbox) : (s.setMailbox w m).ports = s.ports := rfl
@[simp] theorem State.setMailbox_prp (w : Nat) (m : Mailbox) : (s.setMailbox w m).prp = s.prp := rfl
@[simp] theorem State.setMailbox_sw (w : Nat) (m : Mailbox) : (s.setMailbox w m).sw = s.sw := rfl
@[simp] theorem State.setMailbox_svx (w : Nat) (m : Mailbox) : (s.setMailbox w m).svx = s.svx := rfl
@[simp] theorem State.setMailbox_flt (w : Nat) (m : Mailbox) : (s.setMailbox w m).flt = s.flt := rfl
@[simp] theorem State.setMailbox_par (w : Nat) (m : Mailbox) : (s.setMailbox w m).par = s.par := rfl
@[simp] theorem State.setMailbox_sge (w : Nat) (m : Mailbox) : (s.setMailbox w m).sge = s.sge := rfl
@[simp] theorem State.setMailbox_goose (w : Nat) (m : Mailbox) : (s.setMailbox w m).goose = s.goose := rfl
@[simp] theorem State.setMailbox_evr (w : Nat) (m : Mailbox) : (s.setMailbox w m).evr = s.evr := rfl
@[simp] theorem State.setMailbox_dcr (w : Nat) (m : Mailbox) : (s.setMailbox w m).dcr = s.dcr := rfl
@[simp] theorem State.setMailbox_ltl (w : Nat) (m : Mailbox) : (s.setMailbox w m).ltl = s.ltl := rfl
@[simp] theorem State.setMailbox_pwr (w : Nat) (m : Mailbox) : (s.setMailbox w m).pwr = s.pwr := rfl
@[simp] theorem State.setMailbox_kvs (w : Nat) (m : Mailbox) : (s.setMailbox w m).kvs = s.kvs := rfl
@[simp] theorem State.setMailbox_att (w : Nat) (m : Mailbox) : (s.setMailbox w m).att = s.att := rfl
@[simp] theorem State.setMailbox_crd (w : Nat) (m : Mailbox) : (s.setMailbox w m).crd = s.crd := rfl
@[simp] theorem State.setMailbox_boot (w : Nat) (m : Mailbox) : (s.setMailbox w m).boot = s.boot := rfl
@[simp] theorem State.setMailbox_plan (w : Nat) (m : Mailbox) : (s.setMailbox w m).plan = s.plan := rfl
@[simp] theorem State.setMailbox_jrnl (w : Nat) (m : Mailbox) : (s.setMailbox w m).jrnl = s.jrnl := rfl
@[simp] theorem State.setMailbox_amd (w : Nat) (m : Mailbox) : (s.setMailbox w m).amd = s.amd := rfl
@[simp] theorem State.setMailbox_acts (w : Nat) (m : Mailbox) : (s.setMailbox w m).acts = s.acts := rfl
@[simp] theorem State.setMailbox_bus (w : Nat) (m : Mailbox) : (s.setMailbox w m).bus = s.bus := rfl
@[simp] theorem State.setMailbox_rf (w : Nat) (m : Mailbox) : (s.setMailbox w m).rf = s.rf := rfl
@[simp] theorem State.setMailbox_mem (w : Nat) (m : Mailbox) : (s.setMailbox w m).mem = s.mem := rfl
@[simp] theorem State.setMailbox_out (w : Nat) (m : Mailbox) : (s.setMailbox w m).out = s.out := rfl
@[simp] theorem State.setMailbox_now (w : Nat) (m : Mailbox) : (s.setMailbox w m).now = s.now := rfl
@[simp] theorem State.setMailbox_freeN (w : Nat) (m : Mailbox) : (s.setMailbox w m).freeN = s.freeN := rfl
@[simp] theorem State.setMailbox_pending (w : Nat) (m : Mailbox) : (s.setMailbox w m).pending = s.pending := rfl

@[simp] theorem State.setQp_tb (w q : Nat) (x : QPair) : (s.setQp w q x).tb = s.tb := rfl
@[simp] theorem State.setQp_ttu (w q : Nat) (x : QPair) : (s.setQp w q x).ttu = s.ttu := rfl
@[simp] theorem State.setQp_ttuReqs (w q : Nat) (x : QPair) : (s.setQp w q x).ttuReqs = s.ttuReqs := rfl
@[simp] theorem State.setQp_edges (w q : Nat) (x : QPair) : (s.setQp w q x).edges = s.edges := rfl
@[simp] theorem State.setQp_evts (w q : Nat) (x : QPair) : (s.setQp w q x).evts = s.evts := rfl
@[simp] theorem State.setQp_ten (w q : Nat) (x : QPair) : (s.setQp w q x).ten = s.ten := rfl
@[simp] theorem State.setQp_slots (w q : Nat) (x : QPair) : (s.setQp w q x).slots = s.slots := rfl
@[simp] theorem State.setQp_ela (w q : Nat) (x : QPair) : (s.setQp w q x).ela = s.ela := rfl
@[simp] theorem State.setQp_groups (w q : Nat) (x : QPair) : (s.setQp w q x).groups = s.groups := rfl
@[simp] theorem State.setQp_awake (w q : Nat) (x : QPair) : (s.setQp w q x).awake = s.awake := rfl
@[simp] theorem State.setQp_pts (w q : Nat) (x : QPair) : (s.setQp w q x).pts = s.pts := rfl
@[simp] theorem State.setQp_pntQ (w q : Nat) (x : QPair) : (s.setQp w q x).pntQ = s.pntQ := rfl
@[simp] theorem State.setQp_sch (w q : Nat) (x : QPair) : (s.setQp w q x).sch = s.sch := rfl
@[simp] theorem State.setQp_lop (w q : Nat) (x : QPair) : (s.setQp w q x).lop = s.lop := rfl
@[simp] theorem State.setQp_adc (w q : Nat) (x : QPair) : (s.setQp w q x).adc = s.adc := rfl
@[simp] theorem State.setQp_can (w q : Nat) (x : QPair) : (s.setQp w q x).can = s.can := rfl
@[simp] theorem State.setQp_mbx (w q : Nat) (x : QPair) : (s.setQp w q x).mbx = s.mbx := rfl
@[simp] theorem State.setQp_links (w q : Nat) (x : QPair) : (s.setQp w q x).links = s.links := rfl
@[simp] theorem State.setQp_ports (w q : Nat) (x : QPair) : (s.setQp w q x).ports = s.ports := rfl
@[simp] theorem State.setQp_prp (w q : Nat) (x : QPair) : (s.setQp w q x).prp = s.prp := rfl
@[simp] theorem State.setQp_sw (w q : Nat) (x : QPair) : (s.setQp w q x).sw = s.sw := rfl
@[simp] theorem State.setQp_svx (w q : Nat) (x : QPair) : (s.setQp w q x).svx = s.svx := rfl
@[simp] theorem State.setQp_flt (w q : Nat) (x : QPair) : (s.setQp w q x).flt = s.flt := rfl
@[simp] theorem State.setQp_par (w q : Nat) (x : QPair) : (s.setQp w q x).par = s.par := rfl
@[simp] theorem State.setQp_sge (w q : Nat) (x : QPair) : (s.setQp w q x).sge = s.sge := rfl
@[simp] theorem State.setQp_goose (w q : Nat) (x : QPair) : (s.setQp w q x).goose = s.goose := rfl
@[simp] theorem State.setQp_evr (w q : Nat) (x : QPair) : (s.setQp w q x).evr = s.evr := rfl
@[simp] theorem State.setQp_dcr (w q : Nat) (x : QPair) : (s.setQp w q x).dcr = s.dcr := rfl
@[simp] theorem State.setQp_ltl (w q : Nat) (x : QPair) : (s.setQp w q x).ltl = s.ltl := rfl
@[simp] theorem State.setQp_pwr (w q : Nat) (x : QPair) : (s.setQp w q x).pwr = s.pwr := rfl
@[simp] theorem State.setQp_kvs (w q : Nat) (x : QPair) : (s.setQp w q x).kvs = s.kvs := rfl
@[simp] theorem State.setQp_att (w q : Nat) (x : QPair) : (s.setQp w q x).att = s.att := rfl
@[simp] theorem State.setQp_crd (w q : Nat) (x : QPair) : (s.setQp w q x).crd = s.crd := rfl
@[simp] theorem State.setQp_boot (w q : Nat) (x : QPair) : (s.setQp w q x).boot = s.boot := rfl
@[simp] theorem State.setQp_plan (w q : Nat) (x : QPair) : (s.setQp w q x).plan = s.plan := rfl
@[simp] theorem State.setQp_jrnl (w q : Nat) (x : QPair) : (s.setQp w q x).jrnl = s.jrnl := rfl
@[simp] theorem State.setQp_amd (w q : Nat) (x : QPair) : (s.setQp w q x).amd = s.amd := rfl
@[simp] theorem State.setQp_acts (w q : Nat) (x : QPair) : (s.setQp w q x).acts = s.acts := rfl
@[simp] theorem State.setQp_bus (w q : Nat) (x : QPair) : (s.setQp w q x).bus = s.bus := rfl
@[simp] theorem State.setQp_rf (w q : Nat) (x : QPair) : (s.setQp w q x).rf = s.rf := rfl
@[simp] theorem State.setQp_mem (w q : Nat) (x : QPair) : (s.setQp w q x).mem = s.mem := rfl
@[simp] theorem State.setQp_out (w q : Nat) (x : QPair) : (s.setQp w q x).out = s.out := rfl
@[simp] theorem State.setQp_now (w q : Nat) (x : QPair) : (s.setQp w q x).now = s.now := rfl
@[simp] theorem State.setQp_freeN (w q : Nat) (x : QPair) : (s.setQp w q x).freeN = s.freeN := rfl
@[simp] theorem State.setQp_pending (w q : Nat) (x : QPair) : (s.setQp w q x).pending = s.pending := rfl

@[simp] theorem State.setLink_tb (h : Nat) (l : HostLink) : (s.setLink h l).tb = s.tb := rfl
@[simp] theorem State.setLink_ttu (h : Nat) (l : HostLink) : (s.setLink h l).ttu = s.ttu := rfl
@[simp] theorem State.setLink_ttuReqs (h : Nat) (l : HostLink) : (s.setLink h l).ttuReqs = s.ttuReqs := rfl
@[simp] theorem State.setLink_edges (h : Nat) (l : HostLink) : (s.setLink h l).edges = s.edges := rfl
@[simp] theorem State.setLink_evts (h : Nat) (l : HostLink) : (s.setLink h l).evts = s.evts := rfl
@[simp] theorem State.setLink_ten (h : Nat) (l : HostLink) : (s.setLink h l).ten = s.ten := rfl
@[simp] theorem State.setLink_slots (h : Nat) (l : HostLink) : (s.setLink h l).slots = s.slots := rfl
@[simp] theorem State.setLink_ela (h : Nat) (l : HostLink) : (s.setLink h l).ela = s.ela := rfl
@[simp] theorem State.setLink_groups (h : Nat) (l : HostLink) : (s.setLink h l).groups = s.groups := rfl
@[simp] theorem State.setLink_awake (h : Nat) (l : HostLink) : (s.setLink h l).awake = s.awake := rfl
@[simp] theorem State.setLink_pts (h : Nat) (l : HostLink) : (s.setLink h l).pts = s.pts := rfl
@[simp] theorem State.setLink_pntQ (h : Nat) (l : HostLink) : (s.setLink h l).pntQ = s.pntQ := rfl
@[simp] theorem State.setLink_sch (h : Nat) (l : HostLink) : (s.setLink h l).sch = s.sch := rfl
@[simp] theorem State.setLink_lop (h : Nat) (l : HostLink) : (s.setLink h l).lop = s.lop := rfl
@[simp] theorem State.setLink_adc (h : Nat) (l : HostLink) : (s.setLink h l).adc = s.adc := rfl
@[simp] theorem State.setLink_can (h : Nat) (l : HostLink) : (s.setLink h l).can = s.can := rfl
@[simp] theorem State.setLink_mbx (h : Nat) (l : HostLink) : (s.setLink h l).mbx = s.mbx := rfl
@[simp] theorem State.setLink_qps (h : Nat) (l : HostLink) : (s.setLink h l).qps = s.qps := rfl
@[simp] theorem State.setLink_ports (h : Nat) (l : HostLink) : (s.setLink h l).ports = s.ports := rfl
@[simp] theorem State.setLink_prp (h : Nat) (l : HostLink) : (s.setLink h l).prp = s.prp := rfl
@[simp] theorem State.setLink_sw (h : Nat) (l : HostLink) : (s.setLink h l).sw = s.sw := rfl
@[simp] theorem State.setLink_svx (h : Nat) (l : HostLink) : (s.setLink h l).svx = s.svx := rfl
@[simp] theorem State.setLink_flt (h : Nat) (l : HostLink) : (s.setLink h l).flt = s.flt := rfl
@[simp] theorem State.setLink_par (h : Nat) (l : HostLink) : (s.setLink h l).par = s.par := rfl
@[simp] theorem State.setLink_sge (h : Nat) (l : HostLink) : (s.setLink h l).sge = s.sge := rfl
@[simp] theorem State.setLink_goose (h : Nat) (l : HostLink) : (s.setLink h l).goose = s.goose := rfl
@[simp] theorem State.setLink_evr (h : Nat) (l : HostLink) : (s.setLink h l).evr = s.evr := rfl
@[simp] theorem State.setLink_dcr (h : Nat) (l : HostLink) : (s.setLink h l).dcr = s.dcr := rfl
@[simp] theorem State.setLink_ltl (h : Nat) (l : HostLink) : (s.setLink h l).ltl = s.ltl := rfl
@[simp] theorem State.setLink_pwr (h : Nat) (l : HostLink) : (s.setLink h l).pwr = s.pwr := rfl
@[simp] theorem State.setLink_kvs (h : Nat) (l : HostLink) : (s.setLink h l).kvs = s.kvs := rfl
@[simp] theorem State.setLink_att (h : Nat) (l : HostLink) : (s.setLink h l).att = s.att := rfl
@[simp] theorem State.setLink_crd (h : Nat) (l : HostLink) : (s.setLink h l).crd = s.crd := rfl
@[simp] theorem State.setLink_boot (h : Nat) (l : HostLink) : (s.setLink h l).boot = s.boot := rfl
@[simp] theorem State.setLink_plan (h : Nat) (l : HostLink) : (s.setLink h l).plan = s.plan := rfl
@[simp] theorem State.setLink_jrnl (h : Nat) (l : HostLink) : (s.setLink h l).jrnl = s.jrnl := rfl
@[simp] theorem State.setLink_amd (h : Nat) (l : HostLink) : (s.setLink h l).amd = s.amd := rfl
@[simp] theorem State.setLink_acts (h : Nat) (l : HostLink) : (s.setLink h l).acts = s.acts := rfl
@[simp] theorem State.setLink_bus (h : Nat) (l : HostLink) : (s.setLink h l).bus = s.bus := rfl
@[simp] theorem State.setLink_rf (h : Nat) (l : HostLink) : (s.setLink h l).rf = s.rf := rfl
@[simp] theorem State.setLink_mem (h : Nat) (l : HostLink) : (s.setLink h l).mem = s.mem := rfl
@[simp] theorem State.setLink_out (h : Nat) (l : HostLink) : (s.setLink h l).out = s.out := rfl
@[simp] theorem State.setLink_now (h : Nat) (l : HostLink) : (s.setLink h l).now = s.now := rfl
@[simp] theorem State.setLink_freeN (h : Nat) (l : HostLink) : (s.setLink h l).freeN = s.freeN := rfl
@[simp] theorem State.setLink_pending (h : Nat) (l : HostLink) : (s.setLink h l).pending = s.pending := rfl

@[simp] theorem State.setPrt_tb (n : Nat) (p : Port) : (s.setPrt n p).tb = s.tb := rfl
@[simp] theorem State.setPrt_ttu (n : Nat) (p : Port) : (s.setPrt n p).ttu = s.ttu := rfl
@[simp] theorem State.setPrt_ttuReqs (n : Nat) (p : Port) : (s.setPrt n p).ttuReqs = s.ttuReqs := rfl
@[simp] theorem State.setPrt_edges (n : Nat) (p : Port) : (s.setPrt n p).edges = s.edges := rfl
@[simp] theorem State.setPrt_evts (n : Nat) (p : Port) : (s.setPrt n p).evts = s.evts := rfl
@[simp] theorem State.setPrt_ten (n : Nat) (p : Port) : (s.setPrt n p).ten = s.ten := rfl
@[simp] theorem State.setPrt_slots (n : Nat) (p : Port) : (s.setPrt n p).slots = s.slots := rfl
@[simp] theorem State.setPrt_ela (n : Nat) (p : Port) : (s.setPrt n p).ela = s.ela := rfl
@[simp] theorem State.setPrt_groups (n : Nat) (p : Port) : (s.setPrt n p).groups = s.groups := rfl
@[simp] theorem State.setPrt_awake (n : Nat) (p : Port) : (s.setPrt n p).awake = s.awake := rfl
@[simp] theorem State.setPrt_pts (n : Nat) (p : Port) : (s.setPrt n p).pts = s.pts := rfl
@[simp] theorem State.setPrt_pntQ (n : Nat) (p : Port) : (s.setPrt n p).pntQ = s.pntQ := rfl
@[simp] theorem State.setPrt_sch (n : Nat) (p : Port) : (s.setPrt n p).sch = s.sch := rfl
@[simp] theorem State.setPrt_lop (n : Nat) (p : Port) : (s.setPrt n p).lop = s.lop := rfl
@[simp] theorem State.setPrt_adc (n : Nat) (p : Port) : (s.setPrt n p).adc = s.adc := rfl
@[simp] theorem State.setPrt_can (n : Nat) (p : Port) : (s.setPrt n p).can = s.can := rfl
@[simp] theorem State.setPrt_mbx (n : Nat) (p : Port) : (s.setPrt n p).mbx = s.mbx := rfl
@[simp] theorem State.setPrt_qps (n : Nat) (p : Port) : (s.setPrt n p).qps = s.qps := rfl
@[simp] theorem State.setPrt_links (n : Nat) (p : Port) : (s.setPrt n p).links = s.links := rfl
@[simp] theorem State.setPrt_prp (n : Nat) (p : Port) : (s.setPrt n p).prp = s.prp := rfl
@[simp] theorem State.setPrt_sw (n : Nat) (p : Port) : (s.setPrt n p).sw = s.sw := rfl
@[simp] theorem State.setPrt_svx (n : Nat) (p : Port) : (s.setPrt n p).svx = s.svx := rfl
@[simp] theorem State.setPrt_flt (n : Nat) (p : Port) : (s.setPrt n p).flt = s.flt := rfl
@[simp] theorem State.setPrt_par (n : Nat) (p : Port) : (s.setPrt n p).par = s.par := rfl
@[simp] theorem State.setPrt_sge (n : Nat) (p : Port) : (s.setPrt n p).sge = s.sge := rfl
@[simp] theorem State.setPrt_goose (n : Nat) (p : Port) : (s.setPrt n p).goose = s.goose := rfl
@[simp] theorem State.setPrt_evr (n : Nat) (p : Port) : (s.setPrt n p).evr = s.evr := rfl
@[simp] theorem State.setPrt_dcr (n : Nat) (p : Port) : (s.setPrt n p).dcr = s.dcr := rfl
@[simp] theorem State.setPrt_ltl (n : Nat) (p : Port) : (s.setPrt n p).ltl = s.ltl := rfl
@[simp] theorem State.setPrt_pwr (n : Nat) (p : Port) : (s.setPrt n p).pwr = s.pwr := rfl
@[simp] theorem State.setPrt_kvs (n : Nat) (p : Port) : (s.setPrt n p).kvs = s.kvs := rfl
@[simp] theorem State.setPrt_att (n : Nat) (p : Port) : (s.setPrt n p).att = s.att := rfl
@[simp] theorem State.setPrt_crd (n : Nat) (p : Port) : (s.setPrt n p).crd = s.crd := rfl
@[simp] theorem State.setPrt_boot (n : Nat) (p : Port) : (s.setPrt n p).boot = s.boot := rfl
@[simp] theorem State.setPrt_plan (n : Nat) (p : Port) : (s.setPrt n p).plan = s.plan := rfl
@[simp] theorem State.setPrt_jrnl (n : Nat) (p : Port) : (s.setPrt n p).jrnl = s.jrnl := rfl
@[simp] theorem State.setPrt_amd (n : Nat) (p : Port) : (s.setPrt n p).amd = s.amd := rfl
@[simp] theorem State.setPrt_acts (n : Nat) (p : Port) : (s.setPrt n p).acts = s.acts := rfl
@[simp] theorem State.setPrt_bus (n : Nat) (p : Port) : (s.setPrt n p).bus = s.bus := rfl
@[simp] theorem State.setPrt_rf (n : Nat) (p : Port) : (s.setPrt n p).rf = s.rf := rfl
@[simp] theorem State.setPrt_mem (n : Nat) (p : Port) : (s.setPrt n p).mem = s.mem := rfl
@[simp] theorem State.setPrt_out (n : Nat) (p : Port) : (s.setPrt n p).out = s.out := rfl
@[simp] theorem State.setPrt_now (n : Nat) (p : Port) : (s.setPrt n p).now = s.now := rfl
@[simp] theorem State.setPrt_freeN (n : Nat) (p : Port) : (s.setPrt n p).freeN = s.freeN := rfl
@[simp] theorem State.setPrt_pending (n : Nat) (p : Port) : (s.setPrt n p).pending = s.pending := rfl

@[simp] theorem State.setCh_tb (n : Nat) (c : TtuChan) : (s.setCh n c).tb = s.tb := rfl
@[simp] theorem State.setCh_ttuReqs (n : Nat) (c : TtuChan) : (s.setCh n c).ttuReqs = s.ttuReqs := rfl
@[simp] theorem State.setCh_edges (n : Nat) (c : TtuChan) : (s.setCh n c).edges = s.edges := rfl
@[simp] theorem State.setCh_evts (n : Nat) (c : TtuChan) : (s.setCh n c).evts = s.evts := rfl
@[simp] theorem State.setCh_ten (n : Nat) (c : TtuChan) : (s.setCh n c).ten = s.ten := rfl
@[simp] theorem State.setCh_slots (n : Nat) (c : TtuChan) : (s.setCh n c).slots = s.slots := rfl
@[simp] theorem State.setCh_ela (n : Nat) (c : TtuChan) : (s.setCh n c).ela = s.ela := rfl
@[simp] theorem State.setCh_groups (n : Nat) (c : TtuChan) : (s.setCh n c).groups = s.groups := rfl
@[simp] theorem State.setCh_awake (n : Nat) (c : TtuChan) : (s.setCh n c).awake = s.awake := rfl
@[simp] theorem State.setCh_pts (n : Nat) (c : TtuChan) : (s.setCh n c).pts = s.pts := rfl
@[simp] theorem State.setCh_pntQ (n : Nat) (c : TtuChan) : (s.setCh n c).pntQ = s.pntQ := rfl
@[simp] theorem State.setCh_sch (n : Nat) (c : TtuChan) : (s.setCh n c).sch = s.sch := rfl
@[simp] theorem State.setCh_lop (n : Nat) (c : TtuChan) : (s.setCh n c).lop = s.lop := rfl
@[simp] theorem State.setCh_adc (n : Nat) (c : TtuChan) : (s.setCh n c).adc = s.adc := rfl
@[simp] theorem State.setCh_can (n : Nat) (c : TtuChan) : (s.setCh n c).can = s.can := rfl
@[simp] theorem State.setCh_mbx (n : Nat) (c : TtuChan) : (s.setCh n c).mbx = s.mbx := rfl
@[simp] theorem State.setCh_qps (n : Nat) (c : TtuChan) : (s.setCh n c).qps = s.qps := rfl
@[simp] theorem State.setCh_links (n : Nat) (c : TtuChan) : (s.setCh n c).links = s.links := rfl
@[simp] theorem State.setCh_ports (n : Nat) (c : TtuChan) : (s.setCh n c).ports = s.ports := rfl
@[simp] theorem State.setCh_prp (n : Nat) (c : TtuChan) : (s.setCh n c).prp = s.prp := rfl
@[simp] theorem State.setCh_sw (n : Nat) (c : TtuChan) : (s.setCh n c).sw = s.sw := rfl
@[simp] theorem State.setCh_svx (n : Nat) (c : TtuChan) : (s.setCh n c).svx = s.svx := rfl
@[simp] theorem State.setCh_flt (n : Nat) (c : TtuChan) : (s.setCh n c).flt = s.flt := rfl
@[simp] theorem State.setCh_par (n : Nat) (c : TtuChan) : (s.setCh n c).par = s.par := rfl
@[simp] theorem State.setCh_sge (n : Nat) (c : TtuChan) : (s.setCh n c).sge = s.sge := rfl
@[simp] theorem State.setCh_goose (n : Nat) (c : TtuChan) : (s.setCh n c).goose = s.goose := rfl
@[simp] theorem State.setCh_evr (n : Nat) (c : TtuChan) : (s.setCh n c).evr = s.evr := rfl
@[simp] theorem State.setCh_dcr (n : Nat) (c : TtuChan) : (s.setCh n c).dcr = s.dcr := rfl
@[simp] theorem State.setCh_ltl (n : Nat) (c : TtuChan) : (s.setCh n c).ltl = s.ltl := rfl
@[simp] theorem State.setCh_pwr (n : Nat) (c : TtuChan) : (s.setCh n c).pwr = s.pwr := rfl
@[simp] theorem State.setCh_kvs (n : Nat) (c : TtuChan) : (s.setCh n c).kvs = s.kvs := rfl
@[simp] theorem State.setCh_att (n : Nat) (c : TtuChan) : (s.setCh n c).att = s.att := rfl
@[simp] theorem State.setCh_crd (n : Nat) (c : TtuChan) : (s.setCh n c).crd = s.crd := rfl
@[simp] theorem State.setCh_boot (n : Nat) (c : TtuChan) : (s.setCh n c).boot = s.boot := rfl
@[simp] theorem State.setCh_plan (n : Nat) (c : TtuChan) : (s.setCh n c).plan = s.plan := rfl
@[simp] theorem State.setCh_jrnl (n : Nat) (c : TtuChan) : (s.setCh n c).jrnl = s.jrnl := rfl
@[simp] theorem State.setCh_amd (n : Nat) (c : TtuChan) : (s.setCh n c).amd = s.amd := rfl
@[simp] theorem State.setCh_acts (n : Nat) (c : TtuChan) : (s.setCh n c).acts = s.acts := rfl
@[simp] theorem State.setCh_bus (n : Nat) (c : TtuChan) : (s.setCh n c).bus = s.bus := rfl
@[simp] theorem State.setCh_rf (n : Nat) (c : TtuChan) : (s.setCh n c).rf = s.rf := rfl
@[simp] theorem State.setCh_mem (n : Nat) (c : TtuChan) : (s.setCh n c).mem = s.mem := rfl
@[simp] theorem State.setCh_out (n : Nat) (c : TtuChan) : (s.setCh n c).out = s.out := rfl
@[simp] theorem State.setCh_now (n : Nat) (c : TtuChan) : (s.setCh n c).now = s.now := rfl
@[simp] theorem State.setCh_freeN (n : Nat) (c : TtuChan) : (s.setCh n c).freeN = s.freeN := rfl
@[simp] theorem State.setCh_pending (n : Nat) (c : TtuChan) : (s.setCh n c).pending = s.pending := rfl

@[simp] theorem State.setCap_tb (u : Nat) (c : CapUnit) : (s.setCap u c).tb = s.tb := rfl
@[simp] theorem State.setCap_ttu (u : Nat) (c : CapUnit) : (s.setCap u c).ttu = s.ttu := rfl
@[simp] theorem State.setCap_ttuReqs (u : Nat) (c : CapUnit) : (s.setCap u c).ttuReqs = s.ttuReqs := rfl
@[simp] theorem State.setCap_edges (u : Nat) (c : CapUnit) : (s.setCap u c).edges = s.edges := rfl
@[simp] theorem State.setCap_evts (u : Nat) (c : CapUnit) : (s.setCap u c).evts = s.evts := rfl
@[simp] theorem State.setCap_ten (u : Nat) (c : CapUnit) : (s.setCap u c).ten = s.ten := rfl
@[simp] theorem State.setCap_slots (u : Nat) (c : CapUnit) : (s.setCap u c).slots = s.slots := rfl
@[simp] theorem State.setCap_ela (u : Nat) (c : CapUnit) : (s.setCap u c).ela = s.ela := rfl
@[simp] theorem State.setCap_groups (u : Nat) (c : CapUnit) : (s.setCap u c).groups = s.groups := rfl
@[simp] theorem State.setCap_awake (u : Nat) (c : CapUnit) : (s.setCap u c).awake = s.awake := rfl
@[simp] theorem State.setCap_pts (u : Nat) (c : CapUnit) : (s.setCap u c).pts = s.pts := rfl
@[simp] theorem State.setCap_pntQ (u : Nat) (c : CapUnit) : (s.setCap u c).pntQ = s.pntQ := rfl
@[simp] theorem State.setCap_sch (u : Nat) (c : CapUnit) : (s.setCap u c).sch = s.sch := rfl
@[simp] theorem State.setCap_lop (u : Nat) (c : CapUnit) : (s.setCap u c).lop = s.lop := rfl
@[simp] theorem State.setCap_adc (u : Nat) (c : CapUnit) : (s.setCap u c).adc = s.adc := rfl
@[simp] theorem State.setCap_can (u : Nat) (c : CapUnit) : (s.setCap u c).can = s.can := rfl
@[simp] theorem State.setCap_mbx (u : Nat) (c : CapUnit) : (s.setCap u c).mbx = s.mbx := rfl
@[simp] theorem State.setCap_qps (u : Nat) (c : CapUnit) : (s.setCap u c).qps = s.qps := rfl
@[simp] theorem State.setCap_links (u : Nat) (c : CapUnit) : (s.setCap u c).links = s.links := rfl
@[simp] theorem State.setCap_ports (u : Nat) (c : CapUnit) : (s.setCap u c).ports = s.ports := rfl
@[simp] theorem State.setCap_prp (u : Nat) (c : CapUnit) : (s.setCap u c).prp = s.prp := rfl
@[simp] theorem State.setCap_sw (u : Nat) (c : CapUnit) : (s.setCap u c).sw = s.sw := rfl
@[simp] theorem State.setCap_svx (u : Nat) (c : CapUnit) : (s.setCap u c).svx = s.svx := rfl
@[simp] theorem State.setCap_flt (u : Nat) (c : CapUnit) : (s.setCap u c).flt = s.flt := rfl
@[simp] theorem State.setCap_par (u : Nat) (c : CapUnit) : (s.setCap u c).par = s.par := rfl
@[simp] theorem State.setCap_sge (u : Nat) (c : CapUnit) : (s.setCap u c).sge = s.sge := rfl
@[simp] theorem State.setCap_goose (u : Nat) (c : CapUnit) : (s.setCap u c).goose = s.goose := rfl
@[simp] theorem State.setCap_evr (u : Nat) (c : CapUnit) : (s.setCap u c).evr = s.evr := rfl
@[simp] theorem State.setCap_ltl (u : Nat) (c : CapUnit) : (s.setCap u c).ltl = s.ltl := rfl
@[simp] theorem State.setCap_pwr (u : Nat) (c : CapUnit) : (s.setCap u c).pwr = s.pwr := rfl
@[simp] theorem State.setCap_kvs (u : Nat) (c : CapUnit) : (s.setCap u c).kvs = s.kvs := rfl
@[simp] theorem State.setCap_att (u : Nat) (c : CapUnit) : (s.setCap u c).att = s.att := rfl
@[simp] theorem State.setCap_crd (u : Nat) (c : CapUnit) : (s.setCap u c).crd = s.crd := rfl
@[simp] theorem State.setCap_boot (u : Nat) (c : CapUnit) : (s.setCap u c).boot = s.boot := rfl
@[simp] theorem State.setCap_plan (u : Nat) (c : CapUnit) : (s.setCap u c).plan = s.plan := rfl
@[simp] theorem State.setCap_jrnl (u : Nat) (c : CapUnit) : (s.setCap u c).jrnl = s.jrnl := rfl
@[simp] theorem State.setCap_amd (u : Nat) (c : CapUnit) : (s.setCap u c).amd = s.amd := rfl
@[simp] theorem State.setCap_acts (u : Nat) (c : CapUnit) : (s.setCap u c).acts = s.acts := rfl
@[simp] theorem State.setCap_bus (u : Nat) (c : CapUnit) : (s.setCap u c).bus = s.bus := rfl
@[simp] theorem State.setCap_rf (u : Nat) (c : CapUnit) : (s.setCap u c).rf = s.rf := rfl
@[simp] theorem State.setCap_mem (u : Nat) (c : CapUnit) : (s.setCap u c).mem = s.mem := rfl
@[simp] theorem State.setCap_out (u : Nat) (c : CapUnit) : (s.setCap u c).out = s.out := rfl
@[simp] theorem State.setCap_now (u : Nat) (c : CapUnit) : (s.setCap u c).now = s.now := rfl
@[simp] theorem State.setCap_freeN (u : Nat) (c : CapUnit) : (s.setCap u c).freeN = s.freeN := rfl
@[simp] theorem State.setCap_pending (u : Nat) (c : CapUnit) : (s.setCap u c).pending = s.pending := rfl

@[simp] theorem State.setSlot_tb (n : Nat) (k : KeySlot) : (s.setSlot n k).tb = s.tb := rfl
@[simp] theorem State.setSlot_ttu (n : Nat) (k : KeySlot) : (s.setSlot n k).ttu = s.ttu := rfl
@[simp] theorem State.setSlot_ttuReqs (n : Nat) (k : KeySlot) : (s.setSlot n k).ttuReqs = s.ttuReqs := rfl
@[simp] theorem State.setSlot_edges (n : Nat) (k : KeySlot) : (s.setSlot n k).edges = s.edges := rfl
@[simp] theorem State.setSlot_evts (n : Nat) (k : KeySlot) : (s.setSlot n k).evts = s.evts := rfl
@[simp] theorem State.setSlot_ten (n : Nat) (k : KeySlot) : (s.setSlot n k).ten = s.ten := rfl
@[simp] theorem State.setSlot_slots (n : Nat) (k : KeySlot) : (s.setSlot n k).slots = s.slots := rfl
@[simp] theorem State.setSlot_ela (n : Nat) (k : KeySlot) : (s.setSlot n k).ela = s.ela := rfl
@[simp] theorem State.setSlot_groups (n : Nat) (k : KeySlot) : (s.setSlot n k).groups = s.groups := rfl
@[simp] theorem State.setSlot_awake (n : Nat) (k : KeySlot) : (s.setSlot n k).awake = s.awake := rfl
@[simp] theorem State.setSlot_pts (n : Nat) (k : KeySlot) : (s.setSlot n k).pts = s.pts := rfl
@[simp] theorem State.setSlot_pntQ (n : Nat) (k : KeySlot) : (s.setSlot n k).pntQ = s.pntQ := rfl
@[simp] theorem State.setSlot_sch (n : Nat) (k : KeySlot) : (s.setSlot n k).sch = s.sch := rfl
@[simp] theorem State.setSlot_lop (n : Nat) (k : KeySlot) : (s.setSlot n k).lop = s.lop := rfl
@[simp] theorem State.setSlot_adc (n : Nat) (k : KeySlot) : (s.setSlot n k).adc = s.adc := rfl
@[simp] theorem State.setSlot_can (n : Nat) (k : KeySlot) : (s.setSlot n k).can = s.can := rfl
@[simp] theorem State.setSlot_mbx (n : Nat) (k : KeySlot) : (s.setSlot n k).mbx = s.mbx := rfl
@[simp] theorem State.setSlot_qps (n : Nat) (k : KeySlot) : (s.setSlot n k).qps = s.qps := rfl
@[simp] theorem State.setSlot_links (n : Nat) (k : KeySlot) : (s.setSlot n k).links = s.links := rfl
@[simp] theorem State.setSlot_ports (n : Nat) (k : KeySlot) : (s.setSlot n k).ports = s.ports := rfl
@[simp] theorem State.setSlot_prp (n : Nat) (k : KeySlot) : (s.setSlot n k).prp = s.prp := rfl
@[simp] theorem State.setSlot_sw (n : Nat) (k : KeySlot) : (s.setSlot n k).sw = s.sw := rfl
@[simp] theorem State.setSlot_svx (n : Nat) (k : KeySlot) : (s.setSlot n k).svx = s.svx := rfl
@[simp] theorem State.setSlot_flt (n : Nat) (k : KeySlot) : (s.setSlot n k).flt = s.flt := rfl
@[simp] theorem State.setSlot_par (n : Nat) (k : KeySlot) : (s.setSlot n k).par = s.par := rfl
@[simp] theorem State.setSlot_sge (n : Nat) (k : KeySlot) : (s.setSlot n k).sge = s.sge := rfl
@[simp] theorem State.setSlot_goose (n : Nat) (k : KeySlot) : (s.setSlot n k).goose = s.goose := rfl
@[simp] theorem State.setSlot_evr (n : Nat) (k : KeySlot) : (s.setSlot n k).evr = s.evr := rfl
@[simp] theorem State.setSlot_dcr (n : Nat) (k : KeySlot) : (s.setSlot n k).dcr = s.dcr := rfl
@[simp] theorem State.setSlot_ltl (n : Nat) (k : KeySlot) : (s.setSlot n k).ltl = s.ltl := rfl
@[simp] theorem State.setSlot_pwr (n : Nat) (k : KeySlot) : (s.setSlot n k).pwr = s.pwr := rfl
@[simp] theorem State.setSlot_att (n : Nat) (k : KeySlot) : (s.setSlot n k).att = s.att := rfl
@[simp] theorem State.setSlot_crd (n : Nat) (k : KeySlot) : (s.setSlot n k).crd = s.crd := rfl
@[simp] theorem State.setSlot_boot (n : Nat) (k : KeySlot) : (s.setSlot n k).boot = s.boot := rfl
@[simp] theorem State.setSlot_plan (n : Nat) (k : KeySlot) : (s.setSlot n k).plan = s.plan := rfl
@[simp] theorem State.setSlot_jrnl (n : Nat) (k : KeySlot) : (s.setSlot n k).jrnl = s.jrnl := rfl
@[simp] theorem State.setSlot_amd (n : Nat) (k : KeySlot) : (s.setSlot n k).amd = s.amd := rfl
@[simp] theorem State.setSlot_acts (n : Nat) (k : KeySlot) : (s.setSlot n k).acts = s.acts := rfl
@[simp] theorem State.setSlot_bus (n : Nat) (k : KeySlot) : (s.setSlot n k).bus = s.bus := rfl
@[simp] theorem State.setSlot_rf (n : Nat) (k : KeySlot) : (s.setSlot n k).rf = s.rf := rfl
@[simp] theorem State.setSlot_mem (n : Nat) (k : KeySlot) : (s.setSlot n k).mem = s.mem := rfl
@[simp] theorem State.setSlot_out (n : Nat) (k : KeySlot) : (s.setSlot n k).out = s.out := rfl
@[simp] theorem State.setSlot_now (n : Nat) (k : KeySlot) : (s.setSlot n k).now = s.now := rfl
@[simp] theorem State.setSlot_freeN (n : Nat) (k : KeySlot) : (s.setSlot n k).freeN = s.freeN := rfl
@[simp] theorem State.setSlot_pending (n : Nat) (k : KeySlot) : (s.setSlot n k).pending = s.pending := rfl

@[simp] theorem State.setStg_tb (n : Nat) (g : Option KeyStaging) : (s.setStg n g).tb = s.tb := rfl
@[simp] theorem State.setStg_ttu (n : Nat) (g : Option KeyStaging) : (s.setStg n g).ttu = s.ttu := rfl
@[simp] theorem State.setStg_ttuReqs (n : Nat) (g : Option KeyStaging) : (s.setStg n g).ttuReqs = s.ttuReqs := rfl
@[simp] theorem State.setStg_edges (n : Nat) (g : Option KeyStaging) : (s.setStg n g).edges = s.edges := rfl
@[simp] theorem State.setStg_evts (n : Nat) (g : Option KeyStaging) : (s.setStg n g).evts = s.evts := rfl
@[simp] theorem State.setStg_ten (n : Nat) (g : Option KeyStaging) : (s.setStg n g).ten = s.ten := rfl
@[simp] theorem State.setStg_slots (n : Nat) (g : Option KeyStaging) : (s.setStg n g).slots = s.slots := rfl
@[simp] theorem State.setStg_ela (n : Nat) (g : Option KeyStaging) : (s.setStg n g).ela = s.ela := rfl
@[simp] theorem State.setStg_groups (n : Nat) (g : Option KeyStaging) : (s.setStg n g).groups = s.groups := rfl
@[simp] theorem State.setStg_awake (n : Nat) (g : Option KeyStaging) : (s.setStg n g).awake = s.awake := rfl
@[simp] theorem State.setStg_pts (n : Nat) (g : Option KeyStaging) : (s.setStg n g).pts = s.pts := rfl
@[simp] theorem State.setStg_pntQ (n : Nat) (g : Option KeyStaging) : (s.setStg n g).pntQ = s.pntQ := rfl
@[simp] theorem State.setStg_sch (n : Nat) (g : Option KeyStaging) : (s.setStg n g).sch = s.sch := rfl
@[simp] theorem State.setStg_lop (n : Nat) (g : Option KeyStaging) : (s.setStg n g).lop = s.lop := rfl
@[simp] theorem State.setStg_adc (n : Nat) (g : Option KeyStaging) : (s.setStg n g).adc = s.adc := rfl
@[simp] theorem State.setStg_can (n : Nat) (g : Option KeyStaging) : (s.setStg n g).can = s.can := rfl
@[simp] theorem State.setStg_mbx (n : Nat) (g : Option KeyStaging) : (s.setStg n g).mbx = s.mbx := rfl
@[simp] theorem State.setStg_qps (n : Nat) (g : Option KeyStaging) : (s.setStg n g).qps = s.qps := rfl
@[simp] theorem State.setStg_links (n : Nat) (g : Option KeyStaging) : (s.setStg n g).links = s.links := rfl
@[simp] theorem State.setStg_ports (n : Nat) (g : Option KeyStaging) : (s.setStg n g).ports = s.ports := rfl
@[simp] theorem State.setStg_prp (n : Nat) (g : Option KeyStaging) : (s.setStg n g).prp = s.prp := rfl
@[simp] theorem State.setStg_sw (n : Nat) (g : Option KeyStaging) : (s.setStg n g).sw = s.sw := rfl
@[simp] theorem State.setStg_svx (n : Nat) (g : Option KeyStaging) : (s.setStg n g).svx = s.svx := rfl
@[simp] theorem State.setStg_flt (n : Nat) (g : Option KeyStaging) : (s.setStg n g).flt = s.flt := rfl
@[simp] theorem State.setStg_par (n : Nat) (g : Option KeyStaging) : (s.setStg n g).par = s.par := rfl
@[simp] theorem State.setStg_sge (n : Nat) (g : Option KeyStaging) : (s.setStg n g).sge = s.sge := rfl
@[simp] theorem State.setStg_goose (n : Nat) (g : Option KeyStaging) : (s.setStg n g).goose = s.goose := rfl
@[simp] theorem State.setStg_evr (n : Nat) (g : Option KeyStaging) : (s.setStg n g).evr = s.evr := rfl
@[simp] theorem State.setStg_dcr (n : Nat) (g : Option KeyStaging) : (s.setStg n g).dcr = s.dcr := rfl
@[simp] theorem State.setStg_ltl (n : Nat) (g : Option KeyStaging) : (s.setStg n g).ltl = s.ltl := rfl
@[simp] theorem State.setStg_pwr (n : Nat) (g : Option KeyStaging) : (s.setStg n g).pwr = s.pwr := rfl
@[simp] theorem State.setStg_att (n : Nat) (g : Option KeyStaging) : (s.setStg n g).att = s.att := rfl
@[simp] theorem State.setStg_crd (n : Nat) (g : Option KeyStaging) : (s.setStg n g).crd = s.crd := rfl
@[simp] theorem State.setStg_boot (n : Nat) (g : Option KeyStaging) : (s.setStg n g).boot = s.boot := rfl
@[simp] theorem State.setStg_plan (n : Nat) (g : Option KeyStaging) : (s.setStg n g).plan = s.plan := rfl
@[simp] theorem State.setStg_jrnl (n : Nat) (g : Option KeyStaging) : (s.setStg n g).jrnl = s.jrnl := rfl
@[simp] theorem State.setStg_amd (n : Nat) (g : Option KeyStaging) : (s.setStg n g).amd = s.amd := rfl
@[simp] theorem State.setStg_acts (n : Nat) (g : Option KeyStaging) : (s.setStg n g).acts = s.acts := rfl
@[simp] theorem State.setStg_bus (n : Nat) (g : Option KeyStaging) : (s.setStg n g).bus = s.bus := rfl
@[simp] theorem State.setStg_rf (n : Nat) (g : Option KeyStaging) : (s.setStg n g).rf = s.rf := rfl
@[simp] theorem State.setStg_mem (n : Nat) (g : Option KeyStaging) : (s.setStg n g).mem = s.mem := rfl
@[simp] theorem State.setStg_out (n : Nat) (g : Option KeyStaging) : (s.setStg n g).out = s.out := rfl
@[simp] theorem State.setStg_now (n : Nat) (g : Option KeyStaging) : (s.setStg n g).now = s.now := rfl
@[simp] theorem State.setStg_freeN (n : Nat) (g : Option KeyStaging) : (s.setStg n g).freeN = s.freeN := rfl
@[simp] theorem State.setStg_pending (n : Nat) (g : Option KeyStaging) : (s.setStg n g).pending = s.pending := rfl

@[simp] theorem State.setAmd_tb (k : Nat) (x : AmdSlot) : (s.setAmd k x).tb = s.tb := rfl
@[simp] theorem State.setAmd_ttu (k : Nat) (x : AmdSlot) : (s.setAmd k x).ttu = s.ttu := rfl
@[simp] theorem State.setAmd_ttuReqs (k : Nat) (x : AmdSlot) : (s.setAmd k x).ttuReqs = s.ttuReqs := rfl
@[simp] theorem State.setAmd_edges (k : Nat) (x : AmdSlot) : (s.setAmd k x).edges = s.edges := rfl
@[simp] theorem State.setAmd_evts (k : Nat) (x : AmdSlot) : (s.setAmd k x).evts = s.evts := rfl
@[simp] theorem State.setAmd_ten (k : Nat) (x : AmdSlot) : (s.setAmd k x).ten = s.ten := rfl
@[simp] theorem State.setAmd_slots (k : Nat) (x : AmdSlot) : (s.setAmd k x).slots = s.slots := rfl
@[simp] theorem State.setAmd_ela (k : Nat) (x : AmdSlot) : (s.setAmd k x).ela = s.ela := rfl
@[simp] theorem State.setAmd_groups (k : Nat) (x : AmdSlot) : (s.setAmd k x).groups = s.groups := rfl
@[simp] theorem State.setAmd_awake (k : Nat) (x : AmdSlot) : (s.setAmd k x).awake = s.awake := rfl
@[simp] theorem State.setAmd_pts (k : Nat) (x : AmdSlot) : (s.setAmd k x).pts = s.pts := rfl
@[simp] theorem State.setAmd_pntQ (k : Nat) (x : AmdSlot) : (s.setAmd k x).pntQ = s.pntQ := rfl
@[simp] theorem State.setAmd_sch (k : Nat) (x : AmdSlot) : (s.setAmd k x).sch = s.sch := rfl
@[simp] theorem State.setAmd_lop (k : Nat) (x : AmdSlot) : (s.setAmd k x).lop = s.lop := rfl
@[simp] theorem State.setAmd_adc (k : Nat) (x : AmdSlot) : (s.setAmd k x).adc = s.adc := rfl
@[simp] theorem State.setAmd_can (k : Nat) (x : AmdSlot) : (s.setAmd k x).can = s.can := rfl
@[simp] theorem State.setAmd_mbx (k : Nat) (x : AmdSlot) : (s.setAmd k x).mbx = s.mbx := rfl
@[simp] theorem State.setAmd_qps (k : Nat) (x : AmdSlot) : (s.setAmd k x).qps = s.qps := rfl
@[simp] theorem State.setAmd_links (k : Nat) (x : AmdSlot) : (s.setAmd k x).links = s.links := rfl
@[simp] theorem State.setAmd_ports (k : Nat) (x : AmdSlot) : (s.setAmd k x).ports = s.ports := rfl
@[simp] theorem State.setAmd_prp (k : Nat) (x : AmdSlot) : (s.setAmd k x).prp = s.prp := rfl
@[simp] theorem State.setAmd_sw (k : Nat) (x : AmdSlot) : (s.setAmd k x).sw = s.sw := rfl
@[simp] theorem State.setAmd_svx (k : Nat) (x : AmdSlot) : (s.setAmd k x).svx = s.svx := rfl
@[simp] theorem State.setAmd_flt (k : Nat) (x : AmdSlot) : (s.setAmd k x).flt = s.flt := rfl
@[simp] theorem State.setAmd_par (k : Nat) (x : AmdSlot) : (s.setAmd k x).par = s.par := rfl
@[simp] theorem State.setAmd_sge (k : Nat) (x : AmdSlot) : (s.setAmd k x).sge = s.sge := rfl
@[simp] theorem State.setAmd_goose (k : Nat) (x : AmdSlot) : (s.setAmd k x).goose = s.goose := rfl
@[simp] theorem State.setAmd_evr (k : Nat) (x : AmdSlot) : (s.setAmd k x).evr = s.evr := rfl
@[simp] theorem State.setAmd_dcr (k : Nat) (x : AmdSlot) : (s.setAmd k x).dcr = s.dcr := rfl
@[simp] theorem State.setAmd_ltl (k : Nat) (x : AmdSlot) : (s.setAmd k x).ltl = s.ltl := rfl
@[simp] theorem State.setAmd_pwr (k : Nat) (x : AmdSlot) : (s.setAmd k x).pwr = s.pwr := rfl
@[simp] theorem State.setAmd_kvs (k : Nat) (x : AmdSlot) : (s.setAmd k x).kvs = s.kvs := rfl
@[simp] theorem State.setAmd_att (k : Nat) (x : AmdSlot) : (s.setAmd k x).att = s.att := rfl
@[simp] theorem State.setAmd_crd (k : Nat) (x : AmdSlot) : (s.setAmd k x).crd = s.crd := rfl
@[simp] theorem State.setAmd_boot (k : Nat) (x : AmdSlot) : (s.setAmd k x).boot = s.boot := rfl
@[simp] theorem State.setAmd_plan (k : Nat) (x : AmdSlot) : (s.setAmd k x).plan = s.plan := rfl
@[simp] theorem State.setAmd_jrnl (k : Nat) (x : AmdSlot) : (s.setAmd k x).jrnl = s.jrnl := rfl
@[simp] theorem State.setAmd_acts (k : Nat) (x : AmdSlot) : (s.setAmd k x).acts = s.acts := rfl
@[simp] theorem State.setAmd_bus (k : Nat) (x : AmdSlot) : (s.setAmd k x).bus = s.bus := rfl
@[simp] theorem State.setAmd_rf (k : Nat) (x : AmdSlot) : (s.setAmd k x).rf = s.rf := rfl
@[simp] theorem State.setAmd_mem (k : Nat) (x : AmdSlot) : (s.setAmd k x).mem = s.mem := rfl
@[simp] theorem State.setAmd_out (k : Nat) (x : AmdSlot) : (s.setAmd k x).out = s.out := rfl
@[simp] theorem State.setAmd_now (k : Nat) (x : AmdSlot) : (s.setAmd k x).now = s.now := rfl
@[simp] theorem State.setAmd_freeN (k : Nat) (x : AmdSlot) : (s.setAmd k x).freeN = s.freeN := rfl
@[simp] theorem State.setAmd_pending (k : Nat) (x : AmdSlot) : (s.setAmd k x).pending = s.pending := rfl

@[simp] theorem State.takeCredits_tb (b o n : Nat) : (s.takeCredits b o n).tb = s.tb := rfl
@[simp] theorem State.takeCredits_ttu (b o n : Nat) : (s.takeCredits b o n).ttu = s.ttu := rfl
@[simp] theorem State.takeCredits_ttuReqs (b o n : Nat) : (s.takeCredits b o n).ttuReqs = s.ttuReqs := rfl
@[simp] theorem State.takeCredits_edges (b o n : Nat) : (s.takeCredits b o n).edges = s.edges := rfl
@[simp] theorem State.takeCredits_evts (b o n : Nat) : (s.takeCredits b o n).evts = s.evts := rfl
@[simp] theorem State.takeCredits_ten (b o n : Nat) : (s.takeCredits b o n).ten = s.ten := rfl
@[simp] theorem State.takeCredits_slots (b o n : Nat) : (s.takeCredits b o n).slots = s.slots := rfl
@[simp] theorem State.takeCredits_ela (b o n : Nat) : (s.takeCredits b o n).ela = s.ela := rfl
@[simp] theorem State.takeCredits_groups (b o n : Nat) : (s.takeCredits b o n).groups = s.groups := rfl
@[simp] theorem State.takeCredits_awake (b o n : Nat) : (s.takeCredits b o n).awake = s.awake := rfl
@[simp] theorem State.takeCredits_pts (b o n : Nat) : (s.takeCredits b o n).pts = s.pts := rfl
@[simp] theorem State.takeCredits_pntQ (b o n : Nat) : (s.takeCredits b o n).pntQ = s.pntQ := rfl
@[simp] theorem State.takeCredits_sch (b o n : Nat) : (s.takeCredits b o n).sch = s.sch := rfl
@[simp] theorem State.takeCredits_lop (b o n : Nat) : (s.takeCredits b o n).lop = s.lop := rfl
@[simp] theorem State.takeCredits_adc (b o n : Nat) : (s.takeCredits b o n).adc = s.adc := rfl
@[simp] theorem State.takeCredits_can (b o n : Nat) : (s.takeCredits b o n).can = s.can := rfl
@[simp] theorem State.takeCredits_mbx (b o n : Nat) : (s.takeCredits b o n).mbx = s.mbx := rfl
@[simp] theorem State.takeCredits_qps (b o n : Nat) : (s.takeCredits b o n).qps = s.qps := rfl
@[simp] theorem State.takeCredits_links (b o n : Nat) : (s.takeCredits b o n).links = s.links := rfl
@[simp] theorem State.takeCredits_ports (b o n : Nat) : (s.takeCredits b o n).ports = s.ports := rfl
@[simp] theorem State.takeCredits_prp (b o n : Nat) : (s.takeCredits b o n).prp = s.prp := rfl
@[simp] theorem State.takeCredits_sw (b o n : Nat) : (s.takeCredits b o n).sw = s.sw := rfl
@[simp] theorem State.takeCredits_svx (b o n : Nat) : (s.takeCredits b o n).svx = s.svx := rfl
@[simp] theorem State.takeCredits_flt (b o n : Nat) : (s.takeCredits b o n).flt = s.flt := rfl
@[simp] theorem State.takeCredits_par (b o n : Nat) : (s.takeCredits b o n).par = s.par := rfl
@[simp] theorem State.takeCredits_sge (b o n : Nat) : (s.takeCredits b o n).sge = s.sge := rfl
@[simp] theorem State.takeCredits_goose (b o n : Nat) : (s.takeCredits b o n).goose = s.goose := rfl
@[simp] theorem State.takeCredits_evr (b o n : Nat) : (s.takeCredits b o n).evr = s.evr := rfl
@[simp] theorem State.takeCredits_dcr (b o n : Nat) : (s.takeCredits b o n).dcr = s.dcr := rfl
@[simp] theorem State.takeCredits_ltl (b o n : Nat) : (s.takeCredits b o n).ltl = s.ltl := rfl
@[simp] theorem State.takeCredits_pwr (b o n : Nat) : (s.takeCredits b o n).pwr = s.pwr := rfl
@[simp] theorem State.takeCredits_kvs (b o n : Nat) : (s.takeCredits b o n).kvs = s.kvs := rfl
@[simp] theorem State.takeCredits_att (b o n : Nat) : (s.takeCredits b o n).att = s.att := rfl
@[simp] theorem State.takeCredits_boot (b o n : Nat) : (s.takeCredits b o n).boot = s.boot := rfl
@[simp] theorem State.takeCredits_plan (b o n : Nat) : (s.takeCredits b o n).plan = s.plan := rfl
@[simp] theorem State.takeCredits_jrnl (b o n : Nat) : (s.takeCredits b o n).jrnl = s.jrnl := rfl
@[simp] theorem State.takeCredits_amd (b o n : Nat) : (s.takeCredits b o n).amd = s.amd := rfl
@[simp] theorem State.takeCredits_acts (b o n : Nat) : (s.takeCredits b o n).acts = s.acts := rfl
@[simp] theorem State.takeCredits_bus (b o n : Nat) : (s.takeCredits b o n).bus = s.bus := rfl
@[simp] theorem State.takeCredits_rf (b o n : Nat) : (s.takeCredits b o n).rf = s.rf := rfl
@[simp] theorem State.takeCredits_mem (b o n : Nat) : (s.takeCredits b o n).mem = s.mem := rfl
@[simp] theorem State.takeCredits_out (b o n : Nat) : (s.takeCredits b o n).out = s.out := rfl
@[simp] theorem State.takeCredits_now (b o n : Nat) : (s.takeCredits b o n).now = s.now := rfl
@[simp] theorem State.takeCredits_freeN (b o n : Nat) : (s.takeCredits b o n).freeN = s.freeN := rfl
@[simp] theorem State.takeCredits_pending (b o n : Nat) : (s.takeCredits b o n).pending = s.pending := rfl

@[simp] theorem State.giveCredit_tb (b o : Nat) : (s.giveCredit b o).tb = s.tb := rfl
@[simp] theorem State.giveCredit_ttu (b o : Nat) : (s.giveCredit b o).ttu = s.ttu := rfl
@[simp] theorem State.giveCredit_ttuReqs (b o : Nat) : (s.giveCredit b o).ttuReqs = s.ttuReqs := rfl
@[simp] theorem State.giveCredit_edges (b o : Nat) : (s.giveCredit b o).edges = s.edges := rfl
@[simp] theorem State.giveCredit_evts (b o : Nat) : (s.giveCredit b o).evts = s.evts := rfl
@[simp] theorem State.giveCredit_ten (b o : Nat) : (s.giveCredit b o).ten = s.ten := rfl
@[simp] theorem State.giveCredit_slots (b o : Nat) : (s.giveCredit b o).slots = s.slots := rfl
@[simp] theorem State.giveCredit_ela (b o : Nat) : (s.giveCredit b o).ela = s.ela := rfl
@[simp] theorem State.giveCredit_groups (b o : Nat) : (s.giveCredit b o).groups = s.groups := rfl
@[simp] theorem State.giveCredit_awake (b o : Nat) : (s.giveCredit b o).awake = s.awake := rfl
@[simp] theorem State.giveCredit_pts (b o : Nat) : (s.giveCredit b o).pts = s.pts := rfl
@[simp] theorem State.giveCredit_pntQ (b o : Nat) : (s.giveCredit b o).pntQ = s.pntQ := rfl
@[simp] theorem State.giveCredit_sch (b o : Nat) : (s.giveCredit b o).sch = s.sch := rfl
@[simp] theorem State.giveCredit_lop (b o : Nat) : (s.giveCredit b o).lop = s.lop := rfl
@[simp] theorem State.giveCredit_adc (b o : Nat) : (s.giveCredit b o).adc = s.adc := rfl
@[simp] theorem State.giveCredit_can (b o : Nat) : (s.giveCredit b o).can = s.can := rfl
@[simp] theorem State.giveCredit_mbx (b o : Nat) : (s.giveCredit b o).mbx = s.mbx := rfl
@[simp] theorem State.giveCredit_qps (b o : Nat) : (s.giveCredit b o).qps = s.qps := rfl
@[simp] theorem State.giveCredit_links (b o : Nat) : (s.giveCredit b o).links = s.links := rfl
@[simp] theorem State.giveCredit_ports (b o : Nat) : (s.giveCredit b o).ports = s.ports := rfl
@[simp] theorem State.giveCredit_prp (b o : Nat) : (s.giveCredit b o).prp = s.prp := rfl
@[simp] theorem State.giveCredit_sw (b o : Nat) : (s.giveCredit b o).sw = s.sw := rfl
@[simp] theorem State.giveCredit_svx (b o : Nat) : (s.giveCredit b o).svx = s.svx := rfl
@[simp] theorem State.giveCredit_flt (b o : Nat) : (s.giveCredit b o).flt = s.flt := rfl
@[simp] theorem State.giveCredit_par (b o : Nat) : (s.giveCredit b o).par = s.par := rfl
@[simp] theorem State.giveCredit_sge (b o : Nat) : (s.giveCredit b o).sge = s.sge := rfl
@[simp] theorem State.giveCredit_goose (b o : Nat) : (s.giveCredit b o).goose = s.goose := rfl
@[simp] theorem State.giveCredit_evr (b o : Nat) : (s.giveCredit b o).evr = s.evr := rfl
@[simp] theorem State.giveCredit_dcr (b o : Nat) : (s.giveCredit b o).dcr = s.dcr := rfl
@[simp] theorem State.giveCredit_ltl (b o : Nat) : (s.giveCredit b o).ltl = s.ltl := rfl
@[simp] theorem State.giveCredit_pwr (b o : Nat) : (s.giveCredit b o).pwr = s.pwr := rfl
@[simp] theorem State.giveCredit_kvs (b o : Nat) : (s.giveCredit b o).kvs = s.kvs := rfl
@[simp] theorem State.giveCredit_att (b o : Nat) : (s.giveCredit b o).att = s.att := rfl
@[simp] theorem State.giveCredit_boot (b o : Nat) : (s.giveCredit b o).boot = s.boot := rfl
@[simp] theorem State.giveCredit_plan (b o : Nat) : (s.giveCredit b o).plan = s.plan := rfl
@[simp] theorem State.giveCredit_jrnl (b o : Nat) : (s.giveCredit b o).jrnl = s.jrnl := rfl
@[simp] theorem State.giveCredit_amd (b o : Nat) : (s.giveCredit b o).amd = s.amd := rfl
@[simp] theorem State.giveCredit_acts (b o : Nat) : (s.giveCredit b o).acts = s.acts := rfl
@[simp] theorem State.giveCredit_bus (b o : Nat) : (s.giveCredit b o).bus = s.bus := rfl
@[simp] theorem State.giveCredit_rf (b o : Nat) : (s.giveCredit b o).rf = s.rf := rfl
@[simp] theorem State.giveCredit_mem (b o : Nat) : (s.giveCredit b o).mem = s.mem := rfl
@[simp] theorem State.giveCredit_out (b o : Nat) : (s.giveCredit b o).out = s.out := rfl
@[simp] theorem State.giveCredit_now (b o : Nat) : (s.giveCredit b o).now = s.now := rfl
@[simp] theorem State.giveCredit_freeN (b o : Nat) : (s.giveCredit b o).freeN = s.freeN := rfl
@[simp] theorem State.giveCredit_pending (b o : Nat) : (s.giveCredit b o).pending = s.pending := rfl

@[simp] theorem State.almondAdd_tb (k n : Nat) : (s.almondAdd k n).tb = s.tb := rfl
@[simp] theorem State.almondAdd_ttu (k n : Nat) : (s.almondAdd k n).ttu = s.ttu := rfl
@[simp] theorem State.almondAdd_ttuReqs (k n : Nat) : (s.almondAdd k n).ttuReqs = s.ttuReqs := rfl
@[simp] theorem State.almondAdd_edges (k n : Nat) : (s.almondAdd k n).edges = s.edges := rfl
@[simp] theorem State.almondAdd_evts (k n : Nat) : (s.almondAdd k n).evts = s.evts := rfl
@[simp] theorem State.almondAdd_ten (k n : Nat) : (s.almondAdd k n).ten = s.ten := rfl
@[simp] theorem State.almondAdd_slots (k n : Nat) : (s.almondAdd k n).slots = s.slots := rfl
@[simp] theorem State.almondAdd_ela (k n : Nat) : (s.almondAdd k n).ela = s.ela := rfl
@[simp] theorem State.almondAdd_groups (k n : Nat) : (s.almondAdd k n).groups = s.groups := rfl
@[simp] theorem State.almondAdd_awake (k n : Nat) : (s.almondAdd k n).awake = s.awake := rfl
@[simp] theorem State.almondAdd_pts (k n : Nat) : (s.almondAdd k n).pts = s.pts := rfl
@[simp] theorem State.almondAdd_pntQ (k n : Nat) : (s.almondAdd k n).pntQ = s.pntQ := rfl
@[simp] theorem State.almondAdd_sch (k n : Nat) : (s.almondAdd k n).sch = s.sch := rfl
@[simp] theorem State.almondAdd_lop (k n : Nat) : (s.almondAdd k n).lop = s.lop := rfl
@[simp] theorem State.almondAdd_adc (k n : Nat) : (s.almondAdd k n).adc = s.adc := rfl
@[simp] theorem State.almondAdd_can (k n : Nat) : (s.almondAdd k n).can = s.can := rfl
@[simp] theorem State.almondAdd_mbx (k n : Nat) : (s.almondAdd k n).mbx = s.mbx := rfl
@[simp] theorem State.almondAdd_qps (k n : Nat) : (s.almondAdd k n).qps = s.qps := rfl
@[simp] theorem State.almondAdd_links (k n : Nat) : (s.almondAdd k n).links = s.links := rfl
@[simp] theorem State.almondAdd_ports (k n : Nat) : (s.almondAdd k n).ports = s.ports := rfl
@[simp] theorem State.almondAdd_prp (k n : Nat) : (s.almondAdd k n).prp = s.prp := rfl
@[simp] theorem State.almondAdd_sw (k n : Nat) : (s.almondAdd k n).sw = s.sw := rfl
@[simp] theorem State.almondAdd_svx (k n : Nat) : (s.almondAdd k n).svx = s.svx := rfl
@[simp] theorem State.almondAdd_flt (k n : Nat) : (s.almondAdd k n).flt = s.flt := rfl
@[simp] theorem State.almondAdd_par (k n : Nat) : (s.almondAdd k n).par = s.par := rfl
@[simp] theorem State.almondAdd_sge (k n : Nat) : (s.almondAdd k n).sge = s.sge := rfl
@[simp] theorem State.almondAdd_goose (k n : Nat) : (s.almondAdd k n).goose = s.goose := rfl
@[simp] theorem State.almondAdd_evr (k n : Nat) : (s.almondAdd k n).evr = s.evr := rfl
@[simp] theorem State.almondAdd_dcr (k n : Nat) : (s.almondAdd k n).dcr = s.dcr := rfl
@[simp] theorem State.almondAdd_pwr (k n : Nat) : (s.almondAdd k n).pwr = s.pwr := rfl
@[simp] theorem State.almondAdd_kvs (k n : Nat) : (s.almondAdd k n).kvs = s.kvs := rfl
@[simp] theorem State.almondAdd_att (k n : Nat) : (s.almondAdd k n).att = s.att := rfl
@[simp] theorem State.almondAdd_crd (k n : Nat) : (s.almondAdd k n).crd = s.crd := rfl
@[simp] theorem State.almondAdd_boot (k n : Nat) : (s.almondAdd k n).boot = s.boot := rfl
@[simp] theorem State.almondAdd_plan (k n : Nat) : (s.almondAdd k n).plan = s.plan := rfl
@[simp] theorem State.almondAdd_jrnl (k n : Nat) : (s.almondAdd k n).jrnl = s.jrnl := rfl
@[simp] theorem State.almondAdd_amd (k n : Nat) : (s.almondAdd k n).amd = s.amd := rfl
@[simp] theorem State.almondAdd_acts (k n : Nat) : (s.almondAdd k n).acts = s.acts := rfl
@[simp] theorem State.almondAdd_bus (k n : Nat) : (s.almondAdd k n).bus = s.bus := rfl
@[simp] theorem State.almondAdd_rf (k n : Nat) : (s.almondAdd k n).rf = s.rf := rfl
@[simp] theorem State.almondAdd_mem (k n : Nat) : (s.almondAdd k n).mem = s.mem := rfl
@[simp] theorem State.almondAdd_out (k n : Nat) : (s.almondAdd k n).out = s.out := rfl
@[simp] theorem State.almondAdd_now (k n : Nat) : (s.almondAdd k n).now = s.now := rfl
@[simp] theorem State.almondAdd_freeN (k n : Nat) : (s.almondAdd k n).freeN = s.freeN := rfl
@[simp] theorem State.almondAdd_pending (k n : Nat) : (s.almondAdd k n).pending = s.pending := rfl

@[simp] theorem State.pushEdge_tb (g : Nat) (x : Stamp) : (s.pushEdge g x).tb = s.tb := rfl
@[simp] theorem State.pushEdge_ttu (g : Nat) (x : Stamp) : (s.pushEdge g x).ttu = s.ttu := rfl
@[simp] theorem State.pushEdge_ttuReqs (g : Nat) (x : Stamp) : (s.pushEdge g x).ttuReqs = s.ttuReqs := rfl
@[simp] theorem State.pushEdge_evts (g : Nat) (x : Stamp) : (s.pushEdge g x).evts = s.evts := rfl
@[simp] theorem State.pushEdge_ten (g : Nat) (x : Stamp) : (s.pushEdge g x).ten = s.ten := rfl
@[simp] theorem State.pushEdge_slots (g : Nat) (x : Stamp) : (s.pushEdge g x).slots = s.slots := rfl
@[simp] theorem State.pushEdge_ela (g : Nat) (x : Stamp) : (s.pushEdge g x).ela = s.ela := rfl
@[simp] theorem State.pushEdge_groups (g : Nat) (x : Stamp) : (s.pushEdge g x).groups = s.groups := rfl
@[simp] theorem State.pushEdge_awake (g : Nat) (x : Stamp) : (s.pushEdge g x).awake = s.awake := rfl
@[simp] theorem State.pushEdge_pts (g : Nat) (x : Stamp) : (s.pushEdge g x).pts = s.pts := rfl
@[simp] theorem State.pushEdge_pntQ (g : Nat) (x : Stamp) : (s.pushEdge g x).pntQ = s.pntQ := rfl
@[simp] theorem State.pushEdge_sch (g : Nat) (x : Stamp) : (s.pushEdge g x).sch = s.sch := rfl
@[simp] theorem State.pushEdge_lop (g : Nat) (x : Stamp) : (s.pushEdge g x).lop = s.lop := rfl
@[simp] theorem State.pushEdge_adc (g : Nat) (x : Stamp) : (s.pushEdge g x).adc = s.adc := rfl
@[simp] theorem State.pushEdge_can (g : Nat) (x : Stamp) : (s.pushEdge g x).can = s.can := rfl
@[simp] theorem State.pushEdge_mbx (g : Nat) (x : Stamp) : (s.pushEdge g x).mbx = s.mbx := rfl
@[simp] theorem State.pushEdge_qps (g : Nat) (x : Stamp) : (s.pushEdge g x).qps = s.qps := rfl
@[simp] theorem State.pushEdge_links (g : Nat) (x : Stamp) : (s.pushEdge g x).links = s.links := rfl
@[simp] theorem State.pushEdge_ports (g : Nat) (x : Stamp) : (s.pushEdge g x).ports = s.ports := rfl
@[simp] theorem State.pushEdge_prp (g : Nat) (x : Stamp) : (s.pushEdge g x).prp = s.prp := rfl
@[simp] theorem State.pushEdge_sw (g : Nat) (x : Stamp) : (s.pushEdge g x).sw = s.sw := rfl
@[simp] theorem State.pushEdge_svx (g : Nat) (x : Stamp) : (s.pushEdge g x).svx = s.svx := rfl
@[simp] theorem State.pushEdge_flt (g : Nat) (x : Stamp) : (s.pushEdge g x).flt = s.flt := rfl
@[simp] theorem State.pushEdge_par (g : Nat) (x : Stamp) : (s.pushEdge g x).par = s.par := rfl
@[simp] theorem State.pushEdge_sge (g : Nat) (x : Stamp) : (s.pushEdge g x).sge = s.sge := rfl
@[simp] theorem State.pushEdge_goose (g : Nat) (x : Stamp) : (s.pushEdge g x).goose = s.goose := rfl
@[simp] theorem State.pushEdge_evr (g : Nat) (x : Stamp) : (s.pushEdge g x).evr = s.evr := rfl
@[simp] theorem State.pushEdge_dcr (g : Nat) (x : Stamp) : (s.pushEdge g x).dcr = s.dcr := rfl
@[simp] theorem State.pushEdge_ltl (g : Nat) (x : Stamp) : (s.pushEdge g x).ltl = s.ltl := rfl
@[simp] theorem State.pushEdge_pwr (g : Nat) (x : Stamp) : (s.pushEdge g x).pwr = s.pwr := rfl
@[simp] theorem State.pushEdge_kvs (g : Nat) (x : Stamp) : (s.pushEdge g x).kvs = s.kvs := rfl
@[simp] theorem State.pushEdge_att (g : Nat) (x : Stamp) : (s.pushEdge g x).att = s.att := rfl
@[simp] theorem State.pushEdge_crd (g : Nat) (x : Stamp) : (s.pushEdge g x).crd = s.crd := rfl
@[simp] theorem State.pushEdge_boot (g : Nat) (x : Stamp) : (s.pushEdge g x).boot = s.boot := rfl
@[simp] theorem State.pushEdge_plan (g : Nat) (x : Stamp) : (s.pushEdge g x).plan = s.plan := rfl
@[simp] theorem State.pushEdge_jrnl (g : Nat) (x : Stamp) : (s.pushEdge g x).jrnl = s.jrnl := rfl
@[simp] theorem State.pushEdge_amd (g : Nat) (x : Stamp) : (s.pushEdge g x).amd = s.amd := rfl
@[simp] theorem State.pushEdge_acts (g : Nat) (x : Stamp) : (s.pushEdge g x).acts = s.acts := rfl
@[simp] theorem State.pushEdge_bus (g : Nat) (x : Stamp) : (s.pushEdge g x).bus = s.bus := rfl
@[simp] theorem State.pushEdge_rf (g : Nat) (x : Stamp) : (s.pushEdge g x).rf = s.rf := rfl
@[simp] theorem State.pushEdge_mem (g : Nat) (x : Stamp) : (s.pushEdge g x).mem = s.mem := rfl
@[simp] theorem State.pushEdge_out (g : Nat) (x : Stamp) : (s.pushEdge g x).out = s.out := rfl
@[simp] theorem State.pushEdge_now (g : Nat) (x : Stamp) : (s.pushEdge g x).now = s.now := rfl
@[simp] theorem State.pushEdge_freeN (g : Nat) (x : Stamp) : (s.pushEdge g x).freeN = s.freeN := rfl
@[simp] theorem State.pushEdge_pending (g : Nat) (x : Stamp) : (s.pushEdge g x).pending = s.pending := rfl

@[simp] theorem State.memClear_tb (lo hi : Nat) : (s.memClear lo hi).tb = s.tb := rfl
@[simp] theorem State.memClear_ttu (lo hi : Nat) : (s.memClear lo hi).ttu = s.ttu := rfl
@[simp] theorem State.memClear_ttuReqs (lo hi : Nat) : (s.memClear lo hi).ttuReqs = s.ttuReqs := rfl
@[simp] theorem State.memClear_edges (lo hi : Nat) : (s.memClear lo hi).edges = s.edges := rfl
@[simp] theorem State.memClear_evts (lo hi : Nat) : (s.memClear lo hi).evts = s.evts := rfl
@[simp] theorem State.memClear_ten (lo hi : Nat) : (s.memClear lo hi).ten = s.ten := rfl
@[simp] theorem State.memClear_slots (lo hi : Nat) : (s.memClear lo hi).slots = s.slots := rfl
@[simp] theorem State.memClear_ela (lo hi : Nat) : (s.memClear lo hi).ela = s.ela := rfl
@[simp] theorem State.memClear_groups (lo hi : Nat) : (s.memClear lo hi).groups = s.groups := rfl
@[simp] theorem State.memClear_awake (lo hi : Nat) : (s.memClear lo hi).awake = s.awake := rfl
@[simp] theorem State.memClear_pts (lo hi : Nat) : (s.memClear lo hi).pts = s.pts := rfl
@[simp] theorem State.memClear_pntQ (lo hi : Nat) : (s.memClear lo hi).pntQ = s.pntQ := rfl
@[simp] theorem State.memClear_sch (lo hi : Nat) : (s.memClear lo hi).sch = s.sch := rfl
@[simp] theorem State.memClear_lop (lo hi : Nat) : (s.memClear lo hi).lop = s.lop := rfl
@[simp] theorem State.memClear_adc (lo hi : Nat) : (s.memClear lo hi).adc = s.adc := rfl
@[simp] theorem State.memClear_can (lo hi : Nat) : (s.memClear lo hi).can = s.can := rfl
@[simp] theorem State.memClear_mbx (lo hi : Nat) : (s.memClear lo hi).mbx = s.mbx := rfl
@[simp] theorem State.memClear_qps (lo hi : Nat) : (s.memClear lo hi).qps = s.qps := rfl
@[simp] theorem State.memClear_links (lo hi : Nat) : (s.memClear lo hi).links = s.links := rfl
@[simp] theorem State.memClear_ports (lo hi : Nat) : (s.memClear lo hi).ports = s.ports := rfl
@[simp] theorem State.memClear_prp (lo hi : Nat) : (s.memClear lo hi).prp = s.prp := rfl
@[simp] theorem State.memClear_sw (lo hi : Nat) : (s.memClear lo hi).sw = s.sw := rfl
@[simp] theorem State.memClear_svx (lo hi : Nat) : (s.memClear lo hi).svx = s.svx := rfl
@[simp] theorem State.memClear_flt (lo hi : Nat) : (s.memClear lo hi).flt = s.flt := rfl
@[simp] theorem State.memClear_par (lo hi : Nat) : (s.memClear lo hi).par = s.par := rfl
@[simp] theorem State.memClear_sge (lo hi : Nat) : (s.memClear lo hi).sge = s.sge := rfl
@[simp] theorem State.memClear_goose (lo hi : Nat) : (s.memClear lo hi).goose = s.goose := rfl
@[simp] theorem State.memClear_evr (lo hi : Nat) : (s.memClear lo hi).evr = s.evr := rfl
@[simp] theorem State.memClear_dcr (lo hi : Nat) : (s.memClear lo hi).dcr = s.dcr := rfl
@[simp] theorem State.memClear_ltl (lo hi : Nat) : (s.memClear lo hi).ltl = s.ltl := rfl
@[simp] theorem State.memClear_pwr (lo hi : Nat) : (s.memClear lo hi).pwr = s.pwr := rfl
@[simp] theorem State.memClear_kvs (lo hi : Nat) : (s.memClear lo hi).kvs = s.kvs := rfl
@[simp] theorem State.memClear_att (lo hi : Nat) : (s.memClear lo hi).att = s.att := rfl
@[simp] theorem State.memClear_crd (lo hi : Nat) : (s.memClear lo hi).crd = s.crd := rfl
@[simp] theorem State.memClear_boot (lo hi : Nat) : (s.memClear lo hi).boot = s.boot := rfl
@[simp] theorem State.memClear_plan (lo hi : Nat) : (s.memClear lo hi).plan = s.plan := rfl
@[simp] theorem State.memClear_jrnl (lo hi : Nat) : (s.memClear lo hi).jrnl = s.jrnl := rfl
@[simp] theorem State.memClear_amd (lo hi : Nat) : (s.memClear lo hi).amd = s.amd := rfl
@[simp] theorem State.memClear_acts (lo hi : Nat) : (s.memClear lo hi).acts = s.acts := rfl
@[simp] theorem State.memClear_bus (lo hi : Nat) : (s.memClear lo hi).bus = s.bus := rfl
@[simp] theorem State.memClear_rf (lo hi : Nat) : (s.memClear lo hi).rf = s.rf := rfl
@[simp] theorem State.memClear_out (lo hi : Nat) : (s.memClear lo hi).out = s.out := rfl
@[simp] theorem State.memClear_now (lo hi : Nat) : (s.memClear lo hi).now = s.now := rfl
@[simp] theorem State.memClear_freeN (lo hi : Nat) : (s.memClear lo hi).freeN = s.freeN := rfl
@[simp] theorem State.memClear_pending (lo hi : Nat) : (s.memClear lo hi).pending = s.pending := rfl

@[simp] theorem State.regReset_tb (lo hi : Nat) (p : Retention → Bool) : (s.regReset lo hi p).tb = s.tb := rfl
@[simp] theorem State.regReset_ttu (lo hi : Nat) (p : Retention → Bool) : (s.regReset lo hi p).ttu = s.ttu := rfl
@[simp] theorem State.regReset_ttuReqs (lo hi : Nat) (p : Retention → Bool) : (s.regReset lo hi p).ttuReqs = s.ttuReqs := rfl
@[simp] theorem State.regReset_edges (lo hi : Nat) (p : Retention → Bool) : (s.regReset lo hi p).edges = s.edges := rfl
@[simp] theorem State.regReset_evts (lo hi : Nat) (p : Retention → Bool) : (s.regReset lo hi p).evts = s.evts := rfl
@[simp] theorem State.regReset_ten (lo hi : Nat) (p : Retention → Bool) : (s.regReset lo hi p).ten = s.ten := rfl
@[simp] theorem State.regReset_slots (lo hi : Nat) (p : Retention → Bool) : (s.regReset lo hi p).slots = s.slots := rfl
@[simp] theorem State.regReset_ela (lo hi : Nat) (p : Retention → Bool) : (s.regReset lo hi p).ela = s.ela := rfl
@[simp] theorem State.regReset_groups (lo hi : Nat) (p : Retention → Bool) : (s.regReset lo hi p).groups = s.groups := rfl
@[simp] theorem State.regReset_awake (lo hi : Nat) (p : Retention → Bool) : (s.regReset lo hi p).awake = s.awake := rfl
@[simp] theorem State.regReset_pts (lo hi : Nat) (p : Retention → Bool) : (s.regReset lo hi p).pts = s.pts := rfl
@[simp] theorem State.regReset_pntQ (lo hi : Nat) (p : Retention → Bool) : (s.regReset lo hi p).pntQ = s.pntQ := rfl
@[simp] theorem State.regReset_sch (lo hi : Nat) (p : Retention → Bool) : (s.regReset lo hi p).sch = s.sch := rfl
@[simp] theorem State.regReset_lop (lo hi : Nat) (p : Retention → Bool) : (s.regReset lo hi p).lop = s.lop := rfl
@[simp] theorem State.regReset_adc (lo hi : Nat) (p : Retention → Bool) : (s.regReset lo hi p).adc = s.adc := rfl
@[simp] theorem State.regReset_can (lo hi : Nat) (p : Retention → Bool) : (s.regReset lo hi p).can = s.can := rfl
@[simp] theorem State.regReset_mbx (lo hi : Nat) (p : Retention → Bool) : (s.regReset lo hi p).mbx = s.mbx := rfl
@[simp] theorem State.regReset_qps (lo hi : Nat) (p : Retention → Bool) : (s.regReset lo hi p).qps = s.qps := rfl
@[simp] theorem State.regReset_links (lo hi : Nat) (p : Retention → Bool) : (s.regReset lo hi p).links = s.links := rfl
@[simp] theorem State.regReset_ports (lo hi : Nat) (p : Retention → Bool) : (s.regReset lo hi p).ports = s.ports := rfl
@[simp] theorem State.regReset_prp (lo hi : Nat) (p : Retention → Bool) : (s.regReset lo hi p).prp = s.prp := rfl
@[simp] theorem State.regReset_sw (lo hi : Nat) (p : Retention → Bool) : (s.regReset lo hi p).sw = s.sw := rfl
@[simp] theorem State.regReset_svx (lo hi : Nat) (p : Retention → Bool) : (s.regReset lo hi p).svx = s.svx := rfl
@[simp] theorem State.regReset_flt (lo hi : Nat) (p : Retention → Bool) : (s.regReset lo hi p).flt = s.flt := rfl
@[simp] theorem State.regReset_par (lo hi : Nat) (p : Retention → Bool) : (s.regReset lo hi p).par = s.par := rfl
@[simp] theorem State.regReset_sge (lo hi : Nat) (p : Retention → Bool) : (s.regReset lo hi p).sge = s.sge := rfl
@[simp] theorem State.regReset_goose (lo hi : Nat) (p : Retention → Bool) : (s.regReset lo hi p).goose = s.goose := rfl
@[simp] theorem State.regReset_evr (lo hi : Nat) (p : Retention → Bool) : (s.regReset lo hi p).evr = s.evr := rfl
@[simp] theorem State.regReset_dcr (lo hi : Nat) (p : Retention → Bool) : (s.regReset lo hi p).dcr = s.dcr := rfl
@[simp] theorem State.regReset_ltl (lo hi : Nat) (p : Retention → Bool) : (s.regReset lo hi p).ltl = s.ltl := rfl
@[simp] theorem State.regReset_pwr (lo hi : Nat) (p : Retention → Bool) : (s.regReset lo hi p).pwr = s.pwr := rfl
@[simp] theorem State.regReset_kvs (lo hi : Nat) (p : Retention → Bool) : (s.regReset lo hi p).kvs = s.kvs := rfl
@[simp] theorem State.regReset_att (lo hi : Nat) (p : Retention → Bool) : (s.regReset lo hi p).att = s.att := rfl
@[simp] theorem State.regReset_crd (lo hi : Nat) (p : Retention → Bool) : (s.regReset lo hi p).crd = s.crd := rfl
@[simp] theorem State.regReset_boot (lo hi : Nat) (p : Retention → Bool) : (s.regReset lo hi p).boot = s.boot := rfl
@[simp] theorem State.regReset_plan (lo hi : Nat) (p : Retention → Bool) : (s.regReset lo hi p).plan = s.plan := rfl
@[simp] theorem State.regReset_jrnl (lo hi : Nat) (p : Retention → Bool) : (s.regReset lo hi p).jrnl = s.jrnl := rfl
@[simp] theorem State.regReset_amd (lo hi : Nat) (p : Retention → Bool) : (s.regReset lo hi p).amd = s.amd := rfl
@[simp] theorem State.regReset_acts (lo hi : Nat) (p : Retention → Bool) : (s.regReset lo hi p).acts = s.acts := rfl
@[simp] theorem State.regReset_bus (lo hi : Nat) (p : Retention → Bool) : (s.regReset lo hi p).bus = s.bus := rfl
@[simp] theorem State.regReset_mem (lo hi : Nat) (p : Retention → Bool) : (s.regReset lo hi p).mem = s.mem := rfl
@[simp] theorem State.regReset_out (lo hi : Nat) (p : Retention → Bool) : (s.regReset lo hi p).out = s.out := rfl
@[simp] theorem State.regReset_now (lo hi : Nat) (p : Retention → Bool) : (s.regReset lo hi p).now = s.now := rfl
@[simp] theorem State.regReset_freeN (lo hi : Nat) (p : Retention → Bool) : (s.regReset lo hi p).freeN = s.freeN := rfl
@[simp] theorem State.regReset_pending (lo hi : Nat) (p : Retention → Bool) : (s.regReset lo hi p).pending = s.pending := rfl

end Sys2Proof.Machine
end

