-- ==== Sys2Proof/Laws/Ops.lean ====
section
/-! SUPPORT. The shared operations: for each, once, everything it can do. -/
namespace Sys2Proof.Machine

/-! Commands end in a state -/

@[simp] theorem done_next (s : State) : done s = .next s := rfl

theorem runs_done {i : Instr} {s t : State} {P : State → Prop} (h : exec i s = done t) (hP : P t) : Runs i s P := ⟨t, h, hP⟩

/-- A command's next state is the one it ends in. -/
theorem next_of_done {i : Instr} {s t u : State} (h : exec i s = done t) (hu : exec i s = .next u) : u = t := by
  rw [h] at hu
  cases hu
  rfl

/-! Updates of one component -/

@[simp] theorem tenant_setTenant_same (s : State) (t : Nat) (x : Tenant) : (s.setTenant t x).tenant t = x := by
  simp [State.tenant, State.setTenant]
theorem tenant_setTenant_ne (s : State) {t u : Nat} (x : Tenant) (h : t ≠ u) : (s.setTenant t x).tenant u = s.tenant u := by
  simp [State.tenant, State.setTenant, Tbl.get_put_ne _ _ _ h]
@[simp] theorem elaT_setEla_same (s : State) (t : Nat) (x : ElaTen) : (s.setEla t x).elaT t = x := by simp [State.elaT, State.setEla]
theorem elaT_setEla_ne (s : State) {t u : Nat} (x : ElaTen) (h : t ≠ u) : (s.setEla t x).elaT u = s.elaT u := by
  simp [State.elaT, State.setEla, Tbl.get_put_ne _ _ _ h]
@[simp] theorem stream_setStream_same (s : State) (n : Nat) (x : Stream) : (s.setStream n x).stream n = x := by
  simp [State.stream, State.setStream]
theorem stream_setStream_ne (s : State) {n m : Nat} (x : Stream) (h : n ≠ m) : (s.setStream n x).stream m = s.stream m := by
  simp [State.stream, State.setStream, Tbl.get_put_ne _ _ _ h]
@[simp] theorem prt_setPrt_same (s : State) (n : Nat) (p : Port) : (s.setPrt n p).prt n = p := by simp [State.prt, State.setPrt]
theorem prt_setPrt_ne (s : State) {n m : Nat} (p : Port) (h : n ≠ m) : (s.setPrt n p).prt m = s.prt m := by
  simp [State.prt, State.setPrt, Tbl.get_put_ne _ _ _ h]
@[simp] theorem ch_setCh_same (s : State) (n : Nat) (c : TtuChan) : (s.setCh n c).ch n = c := by simp [State.ch, State.setCh]
theorem ch_setCh_ne (s : State) {n m : Nat} (c : TtuChan) (h : n ≠ m) : (s.setCh n c).ch m = s.ch m := by
  simp [State.ch, State.setCh, Tbl.get_put_ne _ _ _ h]
@[simp] theorem canC_setCan_same (s : State) (k : Nat) (c : Can) : (s.setCan k c).canC k = c := by simp [State.canC, State.setCan]
theorem canC_setCan_ne (s : State) {k l : Nat} (c : Can) (h : k ≠ l) : (s.setCan k c).canC l = s.canC l := by
  simp [State.canC, State.setCan, Tbl.get_put_ne _ _ _ h]
@[simp] theorem cap_setCap_same (s : State) (u : Nat) (c : CapUnit) : (s.setCap u c).cap u = c := by simp [State.cap, State.setCap]
theorem cap_setCap_ne (s : State) {u v : Nat} (c : CapUnit) (h : u ≠ v) : (s.setCap u c).cap v = s.cap v := by
  simp [State.cap, State.setCap, Tbl.get_put_ne _ _ _ h]
@[simp] theorem mailbox_setMailbox_same (s : State) (w : Nat) (m : Mailbox) : (s.setMailbox w m).mailbox w = m := by
  simp [State.mailbox, State.setMailbox]
theorem mailbox_setMailbox_ne (s : State) {w v : Nat} (m : Mailbox) (h : w ≠ v) : (s.setMailbox w m).mailbox v = s.mailbox v := by
  simp [State.mailbox, State.setMailbox, Tbl.get_put_ne _ _ _ h]
@[simp] theorem qp_setQp_same (s : State) (w q : Nat) (x : QPair) : (s.setQp w q x).qp w q = x := by simp [State.qp, State.setQp]
theorem qp_setQp_ne (s : State) {w q v p : Nat} (x : QPair) (h : qpKey w q ≠ qpKey v p) : (s.setQp w q x).qp v p = s.qp v p := by
  simp [State.qp, State.setQp, Tbl.get_put_ne _ _ _ h]
@[simp] theorem link_setLink_same (s : State) (h : Nat) (l : HostLink) : (s.setLink h l).link h = l := by simp [State.link, State.setLink]
theorem link_setLink_ne (s : State) {h k : Nat} (l : HostLink) (e : h ≠ k) : (s.setLink h l).link k = s.link k := by
  simp [State.link, State.setLink, Tbl.get_put_ne _ _ _ e]
@[simp] theorem slot_setSlot_same (s : State) (n : Nat) (k : KeySlot) : (s.setSlot n k).slot n = k := by simp [State.slot, State.setSlot]
theorem slot_setSlot_ne (s : State) {n m : Nat} (k : KeySlot) (h : n ≠ m) : (s.setSlot n k).slot m = s.slot m := by
  simp [State.slot, State.setSlot, Tbl.get_put_ne _ _ _ h]
@[simp] theorem schT_setSch_same (s : State) (t : Nat) (c : SchTen) : (s.setSch t c).schT t = c := by simp [State.schT, State.setSch]
theorem schT_setSch_ne (s : State) {t u : Nat} (c : SchTen) (h : t ≠ u) : (s.setSch t c).schT u = s.schT u := by
  simp [State.schT, State.setSch, Tbl.get_put_ne _ _ _ h]
@[simp] theorem pub_setPub_same (s : State) (i : Nat) (p : Pub) : (s.setPub i p).pub i = p := by simp [State.pub, State.setPub]
theorem pub_setPub_ne (s : State) {i j : Nat} (p : Pub) (h : i ≠ j) : (s.setPub i p).pub j = s.pub j := by
  simp [State.pub, State.setPub, Tbl.get_put_ne _ _ _ h]
@[simp] theorem sub_setSub_same (s : State) (i : Nat) (p : Sub) : (s.setSub i p).sub i = p := by simp [State.sub, State.setSub]
theorem sub_setSub_ne (s : State) {i j : Nat} (p : Sub) (h : i ≠ j) : (s.setSub i p).sub j = s.sub j := by
  simp [State.sub, State.setSub, Tbl.get_put_ne _ _ _ h]
@[simp] theorem loop_setLoop_same (s : State) (n : Nat) (l : Loop) : (s.setLoop n l).loop n = l := by simp [State.loop, State.setLoop]
theorem loop_setLoop_ne (s : State) {n m : Nat} (l : Loop) (h : n ≠ m) : (s.setLoop n l).loop m = s.loop m := by
  simp [State.loop, State.setLoop, Tbl.get_put_ne _ _ _ h]
@[simp] theorem conv_setConv_same (s : State) (k : Nat) (c : Adc) : (s.setConv k c).conv k = c := by simp [State.conv, State.setConv]
theorem conv_setConv_ne (s : State) {k l : Nat} (c : Adc) (h : k ≠ l) : (s.setConv k c).conv l = s.conv l := by
  simp [State.conv, State.setConv, Tbl.get_put_ne _ _ _ h]
@[simp] theorem parTen_setParTen_same (s : State) (t : Nat) (p : PairTen) : (s.setParTen t p).parTen t = p := by
  simp [State.parTen, State.setParTen]
theorem parTen_setParTen_ne (s : State) {t u : Nat} (p : PairTen) (h : t ≠ u) : (s.setParTen t p).parTen u = s.parTen u := by
  simp [State.parTen, State.setParTen, Tbl.get_put_ne _ _ _ h]
@[simp] theorem amdSlot_setAmd_same (s : State) (k : Nat) (x : AmdSlot) : (s.setAmd k x).amdSlot k = x := by simp [State.amdSlot, State.setAmd]
theorem amdSlot_setAmd_ne (s : State) {k l : Nat} (x : AmdSlot) (h : k ≠ l) : (s.setAmd k x).amdSlot l = s.amdSlot l := by
  simp [State.amdSlot, State.setAmd, Tbl.get_put_ne _ _ _ h]
@[simp] theorem stg_setStg_same (s : State) (n : Nat) (g : Option KeyStaging) : Tbl.get none (s.setStg n g).kvs.stg n = g := by
  simp [State.setStg]
theorem stg_setStg_ne (s : State) {n m : Nat} (g : Option KeyStaging) (h : n ≠ m) :
    Tbl.get none (s.setStg n g).kvs.stg m = Tbl.get none s.kvs.stg m := by simp [State.setStg, Tbl.get_put_ne _ _ _ h]
@[simp] theorem slots_setStg (s : State) (n : Nat) (g : Option KeyStaging) : (s.setStg n g).kvs.slots = s.kvs.slots := rfl
@[simp] theorem edges_pushEdge_same (s : State) (g : Nat) (x : Stamp) :
    Tbl.get [] (s.pushEdge g x).edges g = Tbl.get [] s.edges g ++ [⟨x, s.frc⟩] := by simp [State.pushEdge]
@[simp] theorem out_emit (s : State) (o : Out) : (s.emit o).out = s.out ++ [o] := rfl

/-! What a requester reads -/

theorem busGet_busSet (l : List (Requester × BusPort)) (q r : Requester) (p : BusPort) :
    busGet (busSet l q p) r = if q = r then p else busGet l r := by
  induction l with
  | nil => simp [busSet, busGet]
  | cons e l ih =>
    obtain ⟨a, x⟩ := e
    by_cases ha : a = q
    · subst ha
      by_cases hr : a = r <;> simp [busSet, busGet, hr]
    · by_cases hr : a = r
      · subst hr
        simp [busSet, busGet, ha, Ne.symm ha]
      · simp [busSet, busGet, ha, hr, ih]

@[simp] theorem port_setPort_same (s : State) (q : Requester) (p : BusPort) : (s.setPort q p).port q = p := by
  simp [State.port, State.setPort, busGet_busSet]
theorem port_setPort_ne (s : State) {q r : Requester} (p : BusPort) (h : q ≠ r) : (s.setPort q p).port r = s.port r := by
  simp [State.port, State.setPort, busGet_busSet, h]

/-- An answer changes what that requester's read returned, and nothing else. -/
theorem answer_spec (s : State) (q : Requester) (v : Nat) :
    s.answer q v = { s with bus := (s.answer q v).bus } ∧ ((s.answer q v).port q).data = BitVec.ofNat 32 v ∧
    ((s.answer q v).port q).latch = (s.port q).latch ∧ ((s.answer q v).port q).held = (s.port q).held ∧
    ∀ r, r ≠ q → (s.answer q v).port r = s.port r := by
  refine ⟨rfl, ?_, ?_, ?_, fun r hr => ?_⟩ <;> simp [State.answer]
  exact port_setPort_ne s _ (Ne.symm hr)

/-- A clear of a counter register keeps what the present FRC count has counted (R9). -/
theorem clrCount_spec (s : State) (r : Reg) (i j : Nat) :
    s.clrCount r i j = { s with rf := (s.clrCount r i j).rf, now := (s.clrCount r i j).now } ∧
    (s.clrCount r i j).rg r i j = s.countedNow r i j ∧
    ∀ bl : List Nat, regAddr r i j / 0x10000 ∈ bl → RegsKept bl s (s.clrCount r i j) := by
  refine ⟨rfl, ?_, fun bl hb => (regsKept_setRg s r _ i j hb).trans (RegsKept.of_rf bl rfl)⟩
  show (s.setRg r (s.countedNow r i j) i j).rg r i j = _
  rw [rg_setRg_same]
  exact Nat.mod_eq_of_lt (Nat.lt_of_le_of_lt (Nat.sub_le _ _) (rg_lt s r i j))

/-- A read of RC flags returns the register as it reads and clears its RC bits; a read of RC counters returns and clears what
they held before the events of the present FRC count (R7, R9). -/
theorem readClear_spec (s : State) (q : Requester) (r : Reg) (i j : Nat) :
    s.readClear q r i j = { s with bus := (s.readClear q r i j).bus, rf := (s.readClear q r i j).rf
                                   now := (s.readClear q r i j).now } ∧
    (rcCounts r = false → ((s.readClear q r i j).port q).data = BitVec.ofNat 32 (readReg s r i j) ∧
      (s.readClear q r i j).rg r i j = (s.rg r i j - (s.rg r i j &&& (regInfo r).rc))) ∧
    (rcCounts r = true → ((s.readClear q r i j).port q).data = BitVec.ofNat 32 (readReg s r i j - s.countedNow r i j) ∧
      (s.readClear q r i j).rg r i j = s.countedNow r i j) ∧
    ∀ bl : List Nat, regAddr r i j / 0x10000 ∈ bl → RegsKept bl s (s.readClear q r i j) := by
  unfold State.readClear
  have hp : ∀ v, ((s.answer q v).port q).data = BitVec.ofNat 32 v := fun v => (answer_spec s q v).2.1
  cases h : rcCounts r with
  | true =>
    refine ⟨rfl, fun hf => absurd hf (by decide), fun _ => ⟨hp _, ?_⟩, fun bl hb => ?_⟩
    · exact (clrCount_spec (s.answer q _) r i j).2.1
    · exact (RegsKept.of_rf bl rfl).trans ((clrCount_spec (s.answer q _) r i j).2.2 bl hb)
  | false =>
    refine ⟨rfl, fun _ => ⟨hp _, ?_⟩, fun hf => absurd hf (by decide), fun bl hb => ?_⟩
    · show ((s.answer q _).setRg r _ i j).rg r i j = _
      rw [rg_setRg_same]
      exact Nat.mod_eq_of_lt (Nat.lt_of_le_of_lt (Nat.sub_le _ _) (rg_lt s r i j))
    · exact (RegsKept.of_rf bl rfl).trans (regsKept_setRg _ r _ i j hb)

/-! Almond, credits and drops -/

/-- Almond counts at one key and nowhere else; MRAM waits for a flush (R382, R383). -/
theorem almondAdd_spec (s : State) (k n : Nat) :
    s.almondAdd k n = { s with ltl := (s.almondAdd k n).ltl } ∧
    Tbl.get 0 (s.almondAdd k n).ltl.cur k = satAdd 64 (Tbl.get 0 s.ltl.cur k) n ∧
    (s.almondAdd k n).ltl.mram = s.ltl.mram ∧
    ∀ j, j ≠ k → Tbl.get 0 (s.almondAdd k n).ltl.cur j = Tbl.get 0 s.ltl.cur j := by
  refine ⟨rfl, by simp [State.almondAdd], rfl, fun j hj => ?_⟩
  simp [State.almondAdd, Tbl.get_upd_ne _ _ _ (Ne.symm hj)]

/-- Taking n credits of an owner (R17). -/
theorem takeCredits_spec (s : State) (b o n : Nat) :
    s.takeCredits b o n = { s with crd := (s.takeCredits b o n).crd } ∧
    Tbl.get 0 (s.takeCredits b o n).crd.used (crdKey b o) = Tbl.get 0 s.crd.used (crdKey b o) + n ∧
    (s.takeCredits b o n).crd.drops = s.crd.drops ∧ (s.takeCredits b o n).avail b o = s.avail b o - n ∧
    ∀ k, k ≠ crdKey b o → Tbl.get 0 (s.takeCredits b o n).crd.used k = Tbl.get 0 s.crd.used k := by
  refine ⟨rfl, by simp [State.takeCredits], rfl, ?_, fun k hk => ?_⟩
  · simp [State.avail, State.takeCredits]
    omega
  · simp [State.takeCredits, Tbl.get_upd_ne _ _ _ (Ne.symm hk)]

/-- Returning one credit of an owner (R25). -/
theorem giveCredit_spec (s : State) (b o : Nat) :
    s.giveCredit b o = { s with crd := (s.giveCredit b o).crd } ∧
    Tbl.get 0 (s.giveCredit b o).crd.used (crdKey b o) = Tbl.get 0 s.crd.used (crdKey b o) - 1 ∧
    (s.giveCredit b o).crd.drops = s.crd.drops ∧
    ∀ k, k ≠ crdKey b o → Tbl.get 0 (s.giveCredit b o).crd.used k = Tbl.get 0 s.crd.used k := by
  refine ⟨rfl, by simp [State.giveCredit], rfl, fun k hk => ?_⟩
  simp [State.giveCredit, Tbl.get_upd_ne _ _ _ (Ne.symm hk)]

/-- A drop: the owner's counter and the boundary's bit of QCR_EXH (R18). -/
theorem countDrop_spec (s : State) (b o : Nat) (hb : b < 64) :
    s.countDrop b o = { s with crd := (s.countDrop b o).crd, rf := (s.countDrop b o).rf, now := (s.countDrop b o).now } ∧
    Tbl.get 0 (s.countDrop b o).crd.drops (crdKey b o) = satInc 32 (Tbl.get 0 s.crd.drops (crdKey b o)) ∧
    (s.countDrop b o).crd.used = s.crd.used ∧ (s.countDrop b o).flag .QCR_EXH b = true ∧
    ∀ bl : List Nat, 30 ∈ bl → RegsKept bl s (s.countDrop b o) := by
  refine ⟨rfl, by simp [State.countDrop, State.setFlag, State.orRg], rfl, flag_setFlag_same _ _ _ _ hb, fun bl h => ?_⟩
  exact (RegsKept.of_rf bl rfl).trans (regsKept_setFlag _ .QCR_EXH b 0 0 h)

/-! Walnut -/

/-- A fire of a disabled source does nothing. -/
theorem fireRaw_off (s : State) (src arg arg2 : Nat) (p : Bool) (k : Nat) (h : s.flag .EVR_SRCCFG 31 src = false) :
    s.fireRaw src arg arg2 p k = s := by
  simp only [State.flag] at h
  simp [State.fireRaw, h]

/-- A fire of an enabled source is suppressed, or takes its place in the trigger queue, of which the last beyond 64 is lost
(R369). -/
theorem fireRaw_on (s : State) (src arg arg2 : Nat) (p : Bool) (k : Nat) (h : s.flag .EVR_SRCCFG 31 src = true) :
    let quiet := s.fld .EVR_SRCCFG 7 0 src * ms
    let t := s.fireRaw src arg arg2 p k
    let put (f : Fire) : State := { s with evr := { s.evr with queue := (fireInsert f s.evr.queue).take 64
                                                               last := Tbl.put none s.evr.last src (some s.frc) } }
    (∃ f, Tbl.get none s.evr.last src = some f ∧ s.frc < f + quiet ∧ t = s.incRg .EVR_CNT 1) ∨
    ((∀ f, Tbl.get none s.evr.last src = some f → f + quiet ≤ s.frc) ∧
      ∃ f, f.source = src ∧ f.arg = arg % 2 ^ 32 ∧ f.arg2 = arg2 ∧ f.powerOn = p ∧ f.stampSrc = k ∧ f.frc = s.frc ∧
        f.before = Tbl.get none s.evr.last src ∧
        f.stamp = (if k = 3 then 0 else s.dt) ∧ f.supDown = !s.pwr.supRuns ∧ f.set = s.fld .EVR_SRCCFG 10 8 src ∧
        f.words = (s.snapSet f.set).map (busPeek s) ∧
        t = match (fireInsert f s.evr.queue).drop 64 with
          | [] => put f
          | x :: _ => (put f).fireLost x) := by
  have h' : bit (s.rg .EVR_SRCCFG src) 31 = true := h
  intro quiet t put
  by_cases he : ∃ f, Tbl.get none s.evr.last src = some f ∧ s.frc < f + quiet
  · obtain ⟨f, hf, hq⟩ := he
    refine .inl ⟨f, hf, hq, ?_⟩
    simp only [t, State.fireRaw, h', hf]
    rw [if_neg (by simp), if_pos (by simpa [quiet, State.fld] using hq)]
  · have hq : ∀ f, Tbl.get none s.evr.last src = some f → f + quiet ≤ s.frc := fun f hf =>
      Nat.le_of_not_lt fun hl => he ⟨f, hf, hl⟩
    refine .inr ⟨hq, ?_⟩
    refine ⟨{ source := src, arg := arg % 2 ^ 32, arg2 := arg2, stamp := if k = 3 then 0 else s.dt, stampSrc := k, frc := s.frc
              before := Tbl.get none s.evr.last src, set := s.fld .EVR_SRCCFG 10 8 src
              words := (s.snapSet (s.fld .EVR_SRCCFG 10 8 src)).map (busPeek s), powerOn := p, supDown := !s.pwr.supRuns
              boots := Tbl.get 0 s.ltl.cur (almondCounter 0) % 2 ^ 32 },
            rfl, rfl, rfl, rfl, rfl, rfl, rfl, rfl, rfl, rfl, rfl, ?_⟩
    simp only [t, State.fireRaw, h']
    rw [if_neg (by simp), if_neg (by cases hl : Tbl.get none s.evr.last src with
      | none => simp
      | some f => simpa [quiet, State.fld] using hq f hl)]
    rfl

/-- A fire that finds a queue of fewer than 64 entries is accepted. -/
theorem fireInsert_length (f : Fire) (l : List Fire) : (fireInsert f l).length = l.length + 1 := by
  induction l with
  | nil => rfl
  | cons x l ih =>
    unfold fireInsert
    split <;> simp [ih]

/-- A lost fire changes Walnut and its registers alone. -/
theorem fireLost_frame (s : State) (f : Fire) :
    s.fireLost f = { s with evr := (s.fireLost f).evr, rf := (s.fireLost f).rf, now := (s.fireLost f).now } ∧
    ∀ bl : List Nat, 64 ∈ bl → RegsKept bl s (s.fireLost f) :=
  ⟨rfl, fun bl h => ((RegsKept.of_rf bl rfl).trans (regsKept_incRg _ .EVR_CNT 0 0 h)).trans (regsKept_setFlag _ .EVR_STAT 1 0 0 h)⟩

/-- A fire changes Walnut and its registers alone. -/
theorem fireRaw_frame (s : State) (src arg arg2 : Nat) (p : Bool) (k : Nat) :
    s.fireRaw src arg arg2 p k = { s with evr := (s.fireRaw src arg arg2 p k).evr, rf := (s.fireRaw src arg arg2 p k).rf
                                          now := (s.fireRaw src arg arg2 p k).now } ∧
    ∀ bl : List Nat, 64 ∈ bl → RegsKept bl s (s.fireRaw src arg arg2 p k) := by
  cases hf : s.flag .EVR_SRCCFG 31 src with
  | false =>
    rw [fireRaw_off s _ _ _ _ _ hf]
    exact ⟨rfl, fun bl _ => RegsKept.refl bl s⟩
  | true =>
    rcases fireRaw_on s src arg arg2 p k hf with ⟨f, -, -, e⟩ | ⟨-, f, -, -, -, -, -, -, -, -, -, -, -, e⟩ <;> rw [e]
    · exact ⟨rfl, fun bl h => regsKept_incRg s .EVR_CNT 1 0 h⟩
    · split
      · exact ⟨rfl, fun bl _ => RegsKept.of_rf bl rfl⟩
      · exact ⟨by rw [(fireLost_frame _ _).1], fun bl h => (RegsKept.of_rf bl rfl).trans ((fireLost_frame _ _).2 bl h)⟩

theorem fire_frame (s : State) (src arg : Nat) :
    s.fire src arg = { s with evr := (s.fire src arg).evr, rf := (s.fire src arg).rf, now := (s.fire src arg).now } ∧
    ∀ bl : List Nat, 64 ∈ bl → RegsKept bl s (s.fire src arg) := fireRaw_frame s src arg 0 false 1

/-- A fire after updates of registers. -/
theorem fire_after {s x : State} (hx : rfOnly s x) (src arg : Nat) :
    x.fire src arg = { s with evr := (x.fire src arg).evr, rf := (x.fire src arg).rf, now := (x.fire src arg).now } := by
  have e := (fire_frame x src arg).1
  generalize x.fire src arg = t at e ⊢
  unfold rfOnly at hx
  rw [hx] at e
  exact e

/-- A refusal counts as a drop and fires Walnut source 9 (R19). -/
theorem refuse_frame (s : State) (b o : Nat) :
    s.refuse b o = { s with crd := (s.countDrop b o).crd, evr := (s.refuse b o).evr, rf := (s.refuse b o).rf
                            now := (s.refuse b o).now } ∧
    ∀ bl : List Nat, 30 ∈ bl → 64 ∈ bl → RegsKept bl s (s.refuse b o) := by
  have h := fire_frame (s.countDrop b o) 9 (b * 2 ^ 16 + o)
  refine ⟨?_, fun bl h1 h2 => ?_⟩
  · rw [State.refuse, h.1]
    rfl
  · exact ((RegsKept.of_rf bl rfl).trans (regsKept_setFlag _ .QCR_EXH b 0 0 h1)).trans (h.2 bl h2)

/-! Mailboxes, alerts and tenant commands -/

/-- TEN_CNT(k) counts in tenant windows alone. -/
theorem tenCount_spec (s : State) (w k : Nat) :
    s.tenCount w k = { s with rf := (s.tenCount w k).rf } ∧
    (w < 4096 → (s.tenCount w k).rg .TEN_CNT w k = satInc 32 (s.rg .TEN_CNT w k)) ∧ (4096 ≤ w → s.tenCount w k = s) := by
  unfold State.tenCount
  split
  · exact ⟨rfl, fun _ => rg_incRg_same _ _ _ _, fun h => by omega⟩
  · exact ⟨rfl, fun h => by omega, fun _ => rfl⟩

/-- A reply always joins the items on their way; a notification joins them while fewer than 16 are held, or takes the place of
the oldest held notification, or is lost where all 16 are replies (R337). Nothing but that mailbox and the registers of its
window changes. -/
theorem mbxPush_spec (s : State) (w : Nat) (i : MbxItem) :
    s.mbxPush w i = { s with mbx := (s.mbxPush w i).mbx, rf := (s.mbxPush w i).rf, now := (s.mbxPush w i).now } ∧
    (∀ v, v ≠ w → (s.mbxPush w i).mailbox v = s.mailbox v) ∧
    ((s.mbxPush w i).mailbox w).taken = (s.mailbox w).taken ∧ ((s.mbxPush w i).mailbox w).order = (s.mailbox w).order ∧
    ((s.mbxPush w i).mailbox w).late = (s.mailbox w).late ∧
    (i.reply = true ∨ s.mbxHeld w < 16 → s.mbxPush w i = s.setMailbox w { s.mailbox w with held := (s.mailbox w).held ++ [i] }) := by
  unfold State.mbxPush
  by_cases h : i.reply = true ∨ s.mbxHeld w < 16
  · have hb : (i.reply || decide (s.mbxHeld w < 16)) = true := by simpa using h
    simp only [hb, if_true]
    refine ⟨rfl, fun v hv => mailbox_setMailbox_ne _ _ (Ne.symm hv), ?_, ?_, ?_, ?_⟩ <;> simp
  · have hb : (i.reply || decide (s.mbxHeld w < 16)) = false := by simpa using h
    have hm : ∀ v, ((s.setFlag .MBX_STAT 1 w).tenCount w 3).mailbox v = s.mailbox v := by
      intro v
      rw [(tenCount_spec (s.setFlag .MBX_STAT 1 w) w 3).1]
      rfl
    have he := (tenCount_spec (s.setFlag .MBX_STAT 1 w) w 3).1
    simp only [hb]
    cases dropNotice ((s.mailbox w).held.drop (((s.setFlag .MBX_STAT 1 w).tenCount w 3).mbxFree w)) with
    | none =>
      refine ⟨by rw [he]; rfl, fun v _ => hm v, ?_, ?_, ?_, fun hc => absurd hc h⟩ <;> simp [hm]
    | some r =>
      refine ⟨by rw [he]; rfl, fun v hv => ?_, ?_, ?_, ?_, fun hc => absurd hc h⟩ <;> simp
      rw [mailbox_setMailbox_ne _ _ (Ne.symm hv), hm]

/-- An alert bit: it is set, enabled it raises vector 3, and the physical function sees it (R325). -/
theorem alertBit_spec (s : State) (t b : Nat) (hb : b < 64) :
    s.alertBit t b = { s with rf := (s.alertBit t b).rf, now := (s.alertBit t b).now, out := (s.alertBit t b).out } ∧
    (s.alertBit t b).flag .TEN_ALERT b t = true ∧ (s.alertBit t b).rf = (s.setFlag .TEN_ALERT b t).rf := by
  have hrf : (s.alertBit t b).rf = (s.setFlag .TEN_ALERT b t).rf := by
    unfold State.alertBit
    by_cases hi : (s.setFlag .TEN_ALERT b t).flag .TEN_ALERT_IE b t = true
    · simp only [hi, if_true]; rfl
    · simp only [hi]; rfl
  refine ⟨?_, ?_, hrf⟩
  · unfold State.alertBit
    by_cases hi : (s.setFlag .TEN_ALERT b t).flag .TEN_ALERT_IE b t = true
    · simp only [hi, if_true]; rfl
    · simp only [hi]; rfl
  · have := flag_setFlag_same s .TEN_ALERT t 0 hb
    unfold State.flag State.rg at *
    rw [hrf]
    exact this

/-- The change of the state that an alert with its notification makes: registers, mailboxes and what leaves the module. -/
theorem alert_frame (s : State) (t b c : Nat) :
    s.alert t b c = { s with rf := (s.alert t b c).rf, mbx := (s.alert t b c).mbx, out := (s.alert t b c).out
                             now := (s.alert t b c).now } := by
  have h1 : s.alertBit t b = { s with rf := (s.alertBit t b).rf, now := (s.alertBit t b).now, out := (s.alertBit t b).out } := by
    unfold State.alertBit
    by_cases hi : (s.setFlag .TEN_ALERT b t).flag .TEN_ALERT_IE b t = true
    · simp only [hi, if_true]; rfl
    · simp only [hi]; rfl
  have h2 := fun i => (mbxPush_spec (s.alertBit t b) t i).1
  unfold State.alert State.mbxNotify
  simp only
  rw [h2, h1]

/-- A tenant command ends: its code and result, CMD_DONE, its notification, and for RESET, FREEZE, SAVE and RESTORE
Walnut source 40 (R331). -/
theorem cmdEnd_frame (s : State) (t code result : Nat) :
    s.cmdEnd t code result = { s with ten := (s.cmdEnd t code result).ten, rf := (s.cmdEnd t code result).rf,
                                      mbx := (s.cmdEnd t code result).mbx, out := (s.cmdEnd t code result).out,
                                      evr := (s.cmdEnd t code result).evr, now := (s.cmdEnd t code result).now } := by
  have h1 : ∀ (u : State) (b : Nat), u.alertBit t b = { u with rf := (u.alertBit t b).rf, now := (u.alertBit t b).now, out := (u.alertBit t b).out } := by
    intro u b
    unfold State.alertBit
    by_cases hi : (u.setFlag .TEN_ALERT b t).flag .TEN_ALERT_IE b t = true
    · simp only [hi, if_true]; rfl
    · simp only [hi]; rfl
  unfold State.cmdEnd State.mbxNotify
  simp only
  split <;> (try rw [(fire_frame _ 40 _).1]) <;> rw [(mbxPush_spec _ t _).1, h1] <;> rfl

/-! Register spans, memory spans, domains -/

/-- What a reset of a span of registers leaves: registers outside it, and those of a class that is kept (R400). -/
theorem regReset_get (s : State) (lo hi : Nat) (keep : Retention → Bool) (d : W64) (a : Nat) :
    Tbl.get d (s.regReset lo hi keep).rf a =
      if (decide (a < lo ∨ hi ≤ a) || match regFind a with | some w => keep (regInfo w.reg).cls | none => keep .ten) = true
      then Tbl.get d s.rf a else d := by
  exact Tbl.get_filter_key d s.rf (fun k => decide (k < lo ∨ hi ≤ k) || match regFind k with
    | some w => keep (regInfo w.reg).cls
    | none => keep .ten) a

/-- Bytes in the span read zero afterwards, all others as before. -/
theorem memClear_byte (s : State) (lo hi a : Nat) :
    memByte (s.memClear lo hi).mem a = if a < lo ∨ hi ≤ a then memByte s.mem a else 0 := by
  have h := Tbl.get_filter_key 0 s.mem (fun k => decide (k < lo ∨ hi ≤ k)) a
  simpa [State.memClear, memByte] using h

/-- A domain command acts where the domain takes it, is in use, and none is in transition; else it sets DCMD_REFUSED
(R389). -/
theorem domCommand_spec (s : State) (d : Nat) (ds : List Nat) (body : State → State) :
    (d ∈ ds ∧ bit s.pwr.mask d = true ∧ s.pwr.trans = [] → s.domCommand d ds body = body s) ∧
    (d ∉ ds ∨ bit s.pwr.mask d = false ∨ s.pwr.trans ≠ [] → s.domCommand d ds body = s.setFlag .PWR_STAT 4) := by
  unfold State.domCommand
  refine ⟨fun ⟨h1, h2, h3⟩ => ?_, fun h => ?_⟩
  · rw [if_pos (by simp [h1, h2, h3])]
  · rw [if_neg (by rcases h with h | h | h <;> simp [h])]

/-- A Hazel command: BUSY while one runs; TAMPER or VAULT where those hold it off; else its effect with the result that
KEY_COMMAND_DONE will report (R356, R362). -/
theorem kvsCommand_spec (s : State) (cmd : Nat) (free : Bool) (body : State → State × Nat) :
    let start (u : State) (r : Nat) : State :=
      { u with kvs := { u.kvs with run := some { cmd := cmd, slot := s.fld .KVS_SEL 13 0, result := r } } }.setRg .KVS_RESULT (2 ^ 31 + cmd * 16)
    (s.kvs.run ≠ none → s.kvsCommand cmd free body =
      ((s.setRg .KVS_RESULT (2 ^ 31 + cmd * 16 + 1)).setFlag .KVS_STAT 0).setFlag .KVS_STAT 1) ∧
    (s.kvs.run = none →
      (s.tamperActive = true → free = false → s.kvsCommand cmd free body = start s 8) ∧
      (s.tamperActive = false → s.kvs.vault ≠ .ready → free = false → s.kvsCommand cmd free body = start s 9) ∧
      (free = true ∨ (s.tamperActive = false ∧ s.kvs.vault = .ready) → s.kvsCommand cmd free body = start (body s).1 (body s).2)) := by
  intro start
  unfold State.kvsCommand
  refine ⟨fun h => ?_, fun h => ⟨fun h1 h2 => ?_, fun h1 h2 h3 => ?_, fun h1 => ?_⟩⟩
  · have : s.kvs.run.isSome = true := by simpa [Option.isSome_iff_ne_none] using h
    simp [this]
  · simp [h, h1, h2, start]
  · simp [h, h1, h2, h3, start]
  · rcases h1 with rfl | ⟨h1, h2⟩
    · simp [h, start]
    · simp [h, h1, h2, start]

/-! Queue pairs and mailbox requests -/

/-- Without a fetched descriptor a queue pair does nothing. -/
theorem qpServe_nil (s : State) (w q : Nat) (fits : Nat → Bool) (body : State → Fetched → Option (State × Nat × Nat))
    (h : (s.qp w q).fetched = []) : s.qpServe w q fits body = s := by
  simp [State.qpServe, h]

/-- A descriptor of an older generation is discarded and counted (Table 15-9). -/
theorem qpServe_stale (s : State) (w q : Nat) (fits : Nat → Bool) (body : State → Fetched → Option (State × Nat × Nat))
    {f : Fetched} {rest : List Fetched} (h : (s.qp w q).fetched = f :: rest) (hg : f.gen ≠ s.windowGen w) :
    s.qpServe w q fits body = (s.setQp w q { s.qp w q with fetched := rest }).staleCompletion w := by
  simp [State.qpServe, h, hg]

/-- The oldest descriptor of the present generation is carried out and completes, when its OP fits, the ring is enabled and
without ERROR, the completion ring has room, and it has not to wait (R342, R343). -/
theorem qpServe_front (s : State) (w q : Nat) (fits : Nat → Bool) (body : State → Fetched → Option (State × Nat × Nat))
    {f : Fetched} {rest : List Fetched} {n : Nat} (h : (s.qp w q).fetched = f :: rest) (hg : f.gen = s.windowGen w)
    (hn : s.qpSize w q = some n) (he : (s.qp w q).error = false) (hf : fits f.desc.op = true) (hr : s.cqRoom w q n = true) :
    s.qpServe w q fits body = match body (s.setQp w q { s.qp w q with fetched := rest }) f with
      | none => s
      | some (t, status, did) => t.qpComplete w q n f status did := by
  simp only [State.qpServe, h, hg, hn, he, hf, hr, ne_eq, not_true_eq_false, if_false, Bool.not_true, Bool.or_self, Bool.false_eq_true]
  try rfl

/-- The oldest request is served when it has the OP: STALE, BADLEN, or the message's own answer (R334, R336). -/
theorem mbxServe_front (s : State) (w op lo hi : Nat) (body : State → List Byte → MbxAnswer) {r : MbxReq} {rest : List MbxReq}
    (hs : s.pwr.supRuns = true) (hl : (s.mailbox w).late = []) (ht : (s.mailbox w).taken = r :: rest) (ho : r.msg.op = op) :
    s.mbxServe w op lo hi body = (s.setMailbox w { s.mailbox w with taken := rest }).mbxAnswer w r.msg
      (if r.msg.gen ≠ s.windowGen w then { status := 4, next := fun s => s.tenCount w 1 }
       else if r.msg.len < lo ∨ hi < r.msg.len then mbxOnly 3 else body s (r.msg.payload.take r.msg.len)) := by
  simp [State.mbxServe, hs, hl, ht, ho]

end Sys2Proof.Machine
end

