-- ==== Sys2Proof/Laws/Blocks.lean ====
section
/-! SUPPORT. Operations that several blocks share: for each, once, what it can change. -/
namespace Sys2Proof.Machine

/-- What every round of a fold does, the fold does. -/
theorem foldl_rel {β : Type} (R : State → State → Prop) (hr : ∀ s, R s s) (ht : ∀ s t u, R s t → R t u → R s u)
    (f : State → β → State) (hf : ∀ s x, R s (f s x)) (l : List β) (s : State) : R s (l.foldl f s) := by
  induction l generalizing s with
  | nil => exact hr s
  | cons x l ih => exact ht _ _ _ (hf s x) (ih _)

/-! Memory -/

theorem reset_mem_wf : Memory.wf State.reset.mem = true := rfl

theorem memClear_wf (s : State) (lo hi : Nat) (h : Memory.wf s.mem = true) : Memory.wf (s.memClear lo hi).mem = true :=
  Memory.wf_filter s.mem _ h

/-! Points (R197 to R199) -/

/-- A point write: the point as it is kept, and the events of its watchers. -/
theorem putPoint_spec (s : State) (h : Nat) (p : Point) :
    s.putPoint h p = { s with pts := Tbl.put {} s.pts h p.kept, evts := (s.putPoint h p).evts } ∧
    (badHandle h = false → (s.putPoint h p).point h = p.kept) ∧ ∀ k, k ≠ h → (s.putPoint h p).point k = s.point k := by
  have e : s.putPoint h p = { s with pts := Tbl.put {} s.pts h p.kept, evts := (s.putPoint h p).evts } := by
    unfold State.putPoint
    simp only
    split <;> rfl
  refine ⟨e, fun hb => ?_, fun k hk => ?_⟩
  · rw [e]; simp [State.point, hb]
  · rw [e]; simp [State.point, Tbl.get_put_ne _ _ _ (Ne.symm hk)]

theorem pointRefused_frame (s : State) (h : Nat) :
    s.pointRefused h = { s with evr := (s.pointRefused h).evr, rf := (s.pointRefused h).rf, now := (s.pointRefused h).now } := by
  unfold State.pointRefused
  exact fire_after ((rfOnly_incRg ..).trans (rfOnly_setFlag ..)) 16 h

theorem putPoint_now (s : State) (h : Nat) (p : Point) : (s.putPoint h p).now = s.now := by
  unfold State.putPoint
  simp only
  split <;> rfl

/-- A write is applied unless one of a later place in its cycle was; of the present count it is remembered (R199). -/
theorem writePoint_spec (s : State) (at_ cls h : Nat) (p : Point) :
    s.writePoint at_ cls h p =
      if at_ ≠ s.frc then s.putPoint h p
      else if cls < Tbl.get 0 s.now.pts h then s
      else { s.putPoint h p with now := { s.now with pts := Tbl.put 0 s.now.pts h cls } } := by
  simp only [State.writePoint, putPoint_now]

theorem writePoint_frame (s : State) (at_ cls h : Nat) (p : Point) :
    s.writePoint at_ cls h p = { s with pts := (s.writePoint at_ cls h p).pts, evts := (s.writePoint at_ cls h p).evts
                                        now := (s.writePoint at_ cls h p).now } := by
  unfold State.writePoint
  split
  · rw [(putPoint_spec s h p).1]
  · split
    · rfl
    · simp only
      rw [(putPoint_spec s h p).1]

/-- A tenant's point write is applied, refused, or discarded for its handle; nothing else happens. -/
theorem tenantPoint_spec (s : State) (at_ cls t h : Nat) (p : Point) :
    (badHandle h = true → s.tenantPoint at_ cls t h p = (s.pointBad, false)) ∧
    (badHandle h = false → s.canPoint t h true = true → s.tenantPoint at_ cls t h p = (s.writePoint at_ cls h p, true)) ∧
    (badHandle h = false → s.canPoint t h true = false → s.tenantPoint at_ cls t h p = (s.pointRefused h, false)) := by
  refine ⟨fun hb => ?_, fun hb hc => ?_, fun hb hc => ?_⟩ <;> simp [State.tenantPoint, *]

theorem tenantPoint_frame (s : State) (at_ cls t h : Nat) (p : Point) :
    (s.tenantPoint at_ cls t h p).1 =
      { s with pts := (s.tenantPoint at_ cls t h p).1.pts, evts := (s.tenantPoint at_ cls t h p).1.evts
               evr := (s.tenantPoint at_ cls t h p).1.evr, rf := (s.tenantPoint at_ cls t h p).1.rf
               now := (s.tenantPoint at_ cls t h p).1.now } := by
  unfold State.tenantPoint
  split
  · rfl
  · split
    · show s.writePoint at_ cls h p = _
      rw [writePoint_frame]
    · show s.pointRefused h = _
      rw [pointRefused_frame]

/-! Loops, element counters, captures -/

theorem loopsOwner_frame (s : State) (t : Nat) : s.loopsOwner t = { s with lop := (s.loopsOwner t).lop } := by
  unfold State.loopsOwner
  simp only
  exact foldl_rel (fun a b => b = { a with lop := b.lop }) (fun _ => rfl) (fun a b c h g => by rw [g, h])
    _ (fun a x => by split <;> rfl) _ _

theorem elaAdd_spec (s : State) (t k n : Nat) :
    s.elaAdd t k n = { s with ela := (s.elaAdd t k n).ela } ∧
    Tbl.get 0 ((s.elaAdd t k n).elaT t).cnt k = satAdd 32 (Tbl.get 0 (s.elaT t).cnt k) n ∧
    ∀ u, u ≠ t → (s.elaAdd t k n).elaT u = s.elaT u := by
  refine ⟨rfl, ?_, fun u hu => ?_⟩
  · simp [State.elaAdd]
  · exact elaT_setEla_ne s _ (Ne.symm hu)

/-- A capture record completes: it joins the records of its unit, counts, sets DONE and counts in Almond (R377, R380). -/
theorem capComplete_spec (s : State) (u : Nat) (f : CapRecord → CapRecord) :
    let r := f { (s.cap u).cur with rows := (s.cap u).rows.reverse, seq := (s.cap u).recSeq + 1, cfg := (s.cap u).cfg
                                    skews := s.capSkews u }
    let t := s.capComplete u f
    t = { s with dcr := t.dcr, rf := t.rf, ltl := t.ltl, now := t.now } ∧ (t.cap u).records = (s.cap u).records ++ [r] ∧
    (t.cap u).rows = [] ∧ (t.cap u).slot = none ∧ (t.cap u).st = (s.cap u).st ∧ t.rf = (s.setFlag .DCR_STAT 0).rf ∧
    ∀ v, v ≠ u → t.cap v = s.cap v := by
  have hc : ∀ v, (s.capComplete u f).cap v = (s.setCap u ((s.cap u).complete (s.capSkews u) f)).cap v := fun v => rfl
  refine ⟨rfl, ?_, ?_, ?_, ?_, rfl, fun v hv => ?_⟩
  · rw [hc]; simp [CapUnit.complete, CapUnit.inc]
  · rw [hc]; simp [CapUnit.complete, CapUnit.inc]
  · rw [hc]; simp [CapUnit.complete, CapUnit.inc]
  · rw [hc]; simp [CapUnit.complete, CapUnit.inc]
  · rw [hc]; exact cap_setCap_ne s _ (Ne.symm hv)

/-- What a group fire may change, Walnut apart. -/
def capOnly (s t : State) : Prop := t = { s with dcr := t.dcr, rf := t.rf, ltl := t.ltl, now := t.now }

theorem capTake_frame (s : State) (u : Nat) (c : CapUnit) (g : CapCfg) (f : CapFire) (b : Bool) :
    capOnly s (s.capTake u c g f b) := by
  unfold capOnly State.capTake applyIf
  simp only
  split <;> rfl

theorem capFireUnit_frame (f : CapFire) (s : State) (u : Nat) : capOnly s (State.capFireUnit f s u) := by
  unfold State.capFireUnit
  simp only
  split
  · exact capTake_frame _ _ _ _ _ _
  · rfl
  · split <;> rfl
  · rfl

theorem capRefix_frame (f : CapFire) (s : State) (u : Nat) : capOnly s (State.capRefix f s u) := by
  unfold State.capRefix
  simp only
  split
  · exact capTake_frame _ _ _ _ _ _
  · exact capTake_frame _ _ _ _ _ _
  · rfl

theorem capFold_frame {β : Type} (f : State → β → State) (hf : ∀ s x, capOnly s (f s x)) (l : List β) (s : State) :
    capOnly s (l.foldl f s) :=
  foldl_rel capOnly (fun _ => rfl) (fun a b c h g => by unfold capOnly at *; rw [g, h]) f hf l s

theorem capFire_frame (s : State) (m : Nat) (t : Stamp) (unit : Nat) (p : Bool) :
    s.capFire m t unit p = { s with dcr := (s.capFire m t unit p).dcr, rf := (s.capFire m t unit p).rf
                                    ltl := (s.capFire m t unit p).ltl, evr := (s.capFire m t unit p).evr
                                    now := (s.capFire m t unit p).now } := by
  unfold State.capFire
  split
  · have h := capFold_frame (State.capFireUnit { stamp := t, unit := unit, partner := p, armed := s.capAnyArmed m })
      (fun a x => capFireUnit_frame _ a x) (s.capGroup m) s
    unfold capOnly at h
    unfold applyIf State.capTell
    simp only
    split
    · rw [(fire_frame _ 43 _).1, setFlag_eq, State.noteFire, h]
    · rw [State.noteFire, h]
  · split
    · rfl
    · rename_i old _ _
      have h := capFold_frame (State.capRefix { stamp := t, unit := unit, partner := p, armed := old.armed })
        (fun a x => capRefix_frame _ a x) (s.capGroup m) s
      unfold capOnly at h
      simp only
      rw [State.noteFire, h]

/-! Frames from within the module (R120 to R122) -/

theorem pruneDown_frame (s : State) (cls : Nat) (ports : List Nat) :
    (s.pruneDown cls ports).1 = { s with rf := (s.pruneDown cls ports).1.rf } := by
  unfold State.pruneDown
  exact foldl_rel (fun a b => b = { a with rf := b.rf }) (fun _ => rfl) (fun a b c h g => by rw [g, h])
    _ (fun a x => rfl) _ _

theorem ingestDrop_frame (s : State) (b o : Nat) :
    s.ingestDrop b o = { s with crd := (s.ingestDrop b o).crd, rf := (s.ingestDrop b o).rf, now := (s.ingestDrop b o).now } := by
  unfold State.ingestDrop
  simp only
  split <;> rfl

theorem pruneHosts_frame (cls : Nat) (hosts : List Nat) (s : State) :
    (State.pruneHosts cls hosts s).1 = { s with crd := (State.pruneHosts cls hosts s).1.crd,
                                                rf := (State.pruneHosts cls hosts s).1.rf, now := (State.pruneHosts cls hosts s).1.now } := by
  induction hosts generalizing s with
  | nil => rfl
  | cons h hs ih =>
    unfold State.pruneHosts
    simp only
    split
    · rw [ih]; rfl
    · rw [ih, ingestDrop_frame]

end Sys2Proof.Machine
end

