-- ==== Sys2Proof/Tests/Slice0.lean ====
section
/-! SUPPORT. Tests of the model. The first group shows each check of WellFormed refusing an ill-formed command; the others
show, for each clause of a statement that has hypotheses, a concrete state that meets them together, and that the command
does there what the clause says. Expected values come from the rules that the statement cites. -/
namespace Sys2Proof.Tests
open Sys2Proof Sys2Proof.Machine

set_option Elab.async false

/-- The state at the beginning of its FRC count: no event of this count has come yet. -/
def fresh (s : State) : State := { s with now := s.instant }

/-- In s the command answers a next state of which p holds. -/
def runsIn (i : Instr) (s : State) (p : State → Bool) : Bool :=
  match exec i s with
  | .next t => p t
  | _ => false

/-- The same of s as its FRC count begins. -/
def runs (i : Instr) (s : State) (p : State → Bool) : Bool := runsIn i (fresh s) p

/-- The command leaves the state as it was. -/
def keeps (i : Instr) (s : State) : Bool := runs i s fun t => decide (t = fresh s)

/-- The state after reset with main domains on, a running supervisor and a loaded image. -/
def base : State :=
  { State.reset with
    pwr := { State.reset.pwr with on := 0xFFFF, phases := 7, supRuns := true }
    boot := { State.reset.boot with loaded := true } }

/-- A state with the registers listed (register, value, index) set in addition. -/
def regs (s : State) (l : List (Reg × Nat × Nat)) : State :=
  l.foldl (fun s e => s.setRg e.1 e.2.1 e.2.2) s

/-- The same state at FRC count f; without a time commit the device time then is f nanoseconds. -/
def atFrc (s : State) (f : Nat) : State := { s with tb := { s.tb with frc := f } }
/-! Every check of WellFormed refuses a command that breaks it, and passes the largest value it admits -/

theorem smoke_port : (Instr.pauseHoldEnd 8).wellFormed = false ∧ (Instr.pauseHoldEnd 7).wellFormed = true := by decide
theorem smoke_tenant : (Instr.freezeTimeout 4096).wellFormed = false ∧ (Instr.freezeTimeout 4095).wellFormed = true := by decide
theorem smoke_link : (Instr.perstRelease 4).wellFormed = false ∧ (Instr.perstRelease 3).wellFormed = true := by decide
theorem smoke_stream : (Instr.filterStep 4096).wellFormed = false ∧ (Instr.filterStep 4095).wellFormed = true := by decide
theorem smoke_channel : (Instr.ttuSet 32).wellFormed = false ∧ (Instr.ttuSet 31).wellFormed = true := by decide
theorem smoke_phi : (Instr.frameTransmit 0 256).wellFormed = false ∧ (Instr.frameTransmit 0 255).wellFormed = true := by decide
theorem smoke_tile : (Instr.fetch 128 0).wellFormed = false ∧ (Instr.fetch 127 0).wellFormed = true := by decide
theorem smoke_slot : (Instr.fetch 0 32).wellFormed = false ∧ (Instr.fetch 0 31).wellFormed = true := by decide
theorem smoke_group : (Instr.armPreset 4).wellFormed = false ∧ (Instr.armPreset 3).wellFormed = true := by decide
theorem smoke_tap : (Instr.outputCreditExpiry 0 4).wellFormed = false ∧ (Instr.outputCreditExpiry 0 3).wellFormed = true := by decide
theorem smoke_boundary : (Instr.creditReturn 16 0 0).wellFormed = false ∧ (Instr.creditReturn 15 0 0).wellFormed = true := by decide
theorem smoke_loop : (Instr.loopRun 64).wellFormed = false ∧ (Instr.loopRun 63).wellFormed = true := by decide
theorem smoke_conv : (Instr.adcScan 2).wellFormed = false ∧ (Instr.adcScan 1).wellFormed = true := by decide
theorem smoke_input : (Instr.adcResRead .walnut 16).wellFormed = false ∧ (Instr.adcResRead .walnut 15).wellFormed = true := by decide
theorem smoke_can : (Instr.initClear 4).wellFormed = false ∧ (Instr.initClear 3).wellFormed = true := by decide
theorem smoke_pub : (Instr.pendingRelease 8192).wellFormed = false ∧ (Instr.pendingRelease 8191).wellFormed = true := by decide
theorem smoke_sub : (Instr.subscriptionTimeout 16384).wellFormed = false ∧ (Instr.subscriptionTimeout 16383).wellFormed = true := by decide
theorem smoke_unit : (Instr.rowClose 16).wellFormed = false ∧ (Instr.rowClose 15).wellFormed = true := by decide
theorem smoke_domain : (Instr.domainOff 16).wellFormed = false ∧ (Instr.domainOff 15).wellFormed = true := by decide
theorem smoke_pll : (Instr.pllStop 7).wellFormed = false ∧ (Instr.pllStop 6).wellFormed = true := by decide
theorem smoke_queue : (Instr.nop 0 8).wellFormed = false ∧ (Instr.nop 0 7).wellFormed = true := by decide
theorem smoke_class : (Instr.rxBuf 0 8).wellFormed = false ∧ (Instr.rxBuf 0 7).wellFormed = true := by decide
theorem smoke_byte : (Instr.zeroise 256).wellFormed = false ∧ (Instr.zeroise 255).wellFormed = true := by decide
theorem smoke_half : (Instr.ltlInc 0 65536).wellFormed = false ∧ (Instr.ltlInc 0 65535).wellFormed = true := by decide
theorem smoke_word : (Instr.rrdWrite 0 (2 ^ 32)).wellFormed = false ∧ (Instr.rrdWrite 0 (2 ^ 32 - 1)).wellFormed = true := by decide
theorem smoke_double : (Instr.rollfloorWrite (2 ^ 64)).wellFormed = false ∧ (Instr.rollfloorWrite (2 ^ 64 - 1)).wellFormed = true := by decide
theorem smoke_key : (Instr.graceEnd 16384).wellFormed = false ∧ (Instr.graceEnd 16383).wellFormed = true := by decide
theorem smoke_task : (Instr.wdogAbort 0 24).wellFormed = false ∧ (Instr.wdogAbort 0 23).wellFormed = true := by decide
theorem smoke_three : (Instr.sysrstRelease ⟨1, 8⟩).wellFormed = false ∧ (Instr.powerOn 0 ⟨0, 8⟩ true true).wellFormed = false := by decide
theorem smoke_fourteen : (Instr.dcFreeze true 16384).wellFormed = false ∧ (Instr.dcFreeze true 16383).wellFormed = true := by decide
theorem smoke_side : (Instr.sysrstRelease ⟨2, 0⟩).wellFormed = false ∧ (Instr.sysrstRelease ⟨1, 7⟩).wellFormed = true := by decide
theorem smoke_amd_slot : (Instr.stageDone 4).wellFormed = false ∧ (Instr.stageDone 3).wellFormed = true := by decide
theorem smoke_nibble : (Instr.swtrig 16 0).wellFormed = false ∧ (Instr.swtrig 15 0).wellFormed = true := by decide
theorem smoke_two : (Instr.histogramSample 4).wellFormed = false ∧ (Instr.histogramSample 3).wellFormed = true := by decide
theorem smoke_six : (Instr.ltlHadd 0 64 0).wellFormed = false ∧ (Instr.ltlHadd 0 63 0).wellFormed = true := by decide
theorem smoke_in : (Instr.swcIcntRead .walnut 15 0).wellFormed = false ∧ (Instr.swcIcntRead .walnut 14 0).wellFormed = true := by decide
theorem smoke_tamper : (Instr.tamper 7).wellFormed = false ∧ (Instr.tamper 6).wellFormed = true := by decide
theorem smoke_mailer : (Instr.canError 0 8 none true).wellFormed = false ∧ (Instr.canError 0 7 (some { sof := 0 }) true).wellFormed = true := by decide
theorem smoke_size : (Instr.registerWrite .supervisor 0 3 0).wellFormed = false ∧ (Instr.registerWrite .supervisor 0 4 0).wellFormed = true := by decide
theorem smoke_window : (Instr.mailboxReply 4097).wellFormed = false ∧ (Instr.mailboxReply 4144).wellFormed = true := by decide
theorem smoke_ring : (Instr.cqHeadWrite 0 8 0).wellFormed = false ∧ (Instr.cqHeadWrite 4096 68 0).wellFormed = true := by decide
theorem smoke_vf : (Instr.functionLevelReset 0 1025).wellFormed = false ∧ (Instr.functionLevelReset 0 1024).wellFormed = true := by decide
theorem smoke_option : (Instr.start 0 (some 8)).wellFormed = false ∧ (Instr.start 0 (some 7)).wellFormed = true := by decide
theorem smoke_requester : (Instr.svxParseRead (.vf 4 1)).wellFormed = false ∧ (Instr.svxParseRead (.pf 3)).wellFormed = true := by decide
theorem smoke_can_frame : (Instr.canFrameRx 0 { idw := 0, dlc := 16, data := [] } 0).wellFormed = false ∧
    (Instr.canFrameRx 0 { idw := 0, dlc := 15, data := [] } 0).wellFormed = true := by decide

/-- No row of the table has bits, so no word spells a command. -/
theorem test_no_table_word : decodeTableWord 32 0 = none ∧ (State.reset.withFetchWord 32 0).pending = [] := by decide +kernel

/-- The queue: its front command runs on the rest; on an empty queue the FRC counts. -/
theorem wit_queue :
    (base.pending = []) ∧ (match step { base with pending := [.wdogKick 0x5A, .seal] } with
      | .next t => decide (t.pending = [.seal]) | _ => false) = true ∧
    (match step (atFrc base (2 ^ 64 - 1)) with | .next t => decide (t.frc = 0) | _ => false) = true := by
  decide +kernel

/-- The invariant holds after reset, and its memory clause of a listed byte. -/
theorem wit_invariant : State.reset.Inv ∧ ({ base with mem := [(5, 1), (9, 2)] } : State).Inv ∧ ¬ ({ base with mem := [(5, 0)] } : State).Inv := by
  unfold State.Inv
  decide +kernel

/-- The CRC of R436 over its check string. -/
theorem test_crc64 : crc64 [0x31, 0x32, 0x33, 0x34, 0x35, 0x36, 0x37, 0x38, 0x39] = 0x995DC9BBDF1939FA := by decide +kernel

/-! The management space -/

theorem wit_wide_low_read :
    let s := base.setRg .TMB_CMT_AT 0x123456789
    s.busAddr .supervisor (regAddr .TMB_CMT_AT 0 0) = some (regAddr .TMB_CMT_AT 0 0) ∧
    s.regAt (regAddr .TMB_CMT_AT 0 0) = some ⟨.TMB_CMT_AT, 0, 0, false⟩ ∧ (regInfo .TMB_CMT_AT).wide = true ∧
    runs (.reg64LowRead .supervisor (regAddr .TMB_CMT_AT 0 0)) s (fun t =>
      decide ((t.port .supervisor).data = 0x23456789 ∧ (t.port .supervisor).latch = [(regAddr .TMB_CMT_AT 0 0, 1)])) = true := by
  decide +kernel

theorem wit_wide_high_read :
    let s := base.setRg .TMB_CMT_AT 0x123456789
    let u := s.setPort .supervisor { latch := [(regAddr .TMB_CMT_AT 0 0, 7)] }
    s.busAddr .supervisor (regAddr .TMB_CMT_AT 0 0 + 4) = some (regAddr .TMB_CMT_AT 0 0 + 4) ∧
    s.regAt (regAddr .TMB_CMT_AT 0 0 + 4) = some ⟨.TMB_CMT_AT, 0, 0, true⟩ ∧
    runs (.reg64HighRead .supervisor (regAddr .TMB_CMT_AT 0 0 + 4)) s (fun t => decide ((t.port .supervisor).data = 1)) = true ∧
    runs (.reg64HighRead .supervisor (regAddr .TMB_CMT_AT 0 0 + 4)) u (fun t =>
      decide ((t.port .supervisor).data = 7 ∧ (t.port .supervisor).latch = [])) = true := by
  decide +kernel

theorem wit_wide_writes :
    let a := regAddr .TMB_CMT_AT 0 0
    let s := base.setPort .supervisor { held := [(a, 0xFFFFFFFF)] }
    runs (.reg64LowWrite .supervisor a 5) base (fun t => decide ((t.port .supervisor).held = [(a, 5)] ∧ t.rf = base.rf)) = true ∧
    runs (.reg64HighWrite .supervisor (a + 4) 2) s (fun t => decide (t.rg .TMB_CMT_AT = 0x2FFFFFFFF)) = true ∧
    runs (.reg64HighWrite .supervisor (a + 4) 2) (base.setRg .TMB_CMT_AT 3) (fun t =>
      decide (t.rg .TMB_CMT_AT = 0x200000003)) = true := by
  decide +kernel

theorem wit_register_writes :
    let s := (base.setRg .TMB_STAT 0xFFFFFFFF).setRg .LOP_FBSRC 9 63
    let u := { s with boot := { s.boot with sealed := true, rwsIgn := 254 } }
    runs (.registerWrite .supervisor (regAddr .TMB_STAT 0 0) 4 1) s (fun t => decide (t.rg .TMB_STAT = 0xFFFFFFFE)) ∧
    runs (.registerWrite .supervisor (regAddr .TMB_HOLD 0 0) 4 77) s (fun t => decide (t.rg .TMB_HOLD = 77)) ∧
    runs (.registerWrite .supervisor (regAddr .LOP_FBSRC 63 0) 4 5) s (fun t => decide (t.rg .LOP_FBSRC 63 = 5)) ∧
    runs (.registerWrite .supervisor (regAddr .LOP_FBSRC 63 0) 4 5) u (fun t =>
      decide (t.rg .LOP_FBSRC 63 = 9 ∧ t.boot.rwsIgn = 255)) ∧
    runs (.registerWrite .supervisor (regAddr .LOP_FBSRC 63 0) 4 9) u (fun t => decide (t.boot.rwsIgn = 254)) := by
  decide +kernel

theorem wit_writes_nowhere :
    let a := regAddr .TMB_HOLD 0 0 + 0xF000
    base.busAddr .supervisor a = some a ∧ base.regAt a = none ∧ base.ramAt a = false ∧
    keeps (.registerWrite .supervisor a 4 1) base ∧ keeps (.registerWrite .supervisor (regAddr .TMB_HOLD 0 0) 2 1) base := by
  decide +kernel

theorem wit_filter_entry_write :
    let s := base.setPort .supervisor { held := [(regAddr .MAC_FENT 7 15, 0x11223344)] }
    let u := { s with ports := [(7, { heldMask := [(15, some 0xF)] })] }
    runs (.filterEntryWrite .supervisor 7 15 0x8000AABB) u (fun t =>
      decide (t.rg .MAC_FENT 7 15 = 0x8000AABB11223344 ∧ t.rg .MAC_FMASK 7 15 = 0xF ∧ (t.prt 7).heldMask = [])) := by
  decide +kernel

theorem wit_credit_return :
    let s := { base with
      crd := { share := [(crdKey 0 7, 4), (crdKey 6 4095, 2)], used := [(crdKey 0 7, 4), (crdKey 6 4095, 1)] }
      ten := [(4095, { gen := 3 })] }
    tenantBnd 0 = false ∧ tenantBnd 6 = true ∧
    runs (.creditReturn 0 7 0) s (fun t => decide (t.avail 0 7 = 1 ∧ t.avail 6 4095 = 1)) ∧
    runs (.creditReturn 6 4095 3) s (fun t => decide (t.avail 6 4095 = 2 ∧ t.avail 0 7 = 0)) ∧
    keeps (.creditReturn 6 4095 2) s := by
  decide +kernel

theorem wit_output_credit_expiry :
    let e : OutEntry := { rec_ := OutRec.mk [1] [0] 0 1 0 0, expires := 0 }
    let s := { base with
      flt := { chains := [(4095, { outs := [(192, some e)] })] }, crd := { used := [(crdKey 5 4095, 1)] } }
    Tbl.get none (s.chain 4095).outs (64 * 3) = some e ∧
    runs (.outputCreditExpiry 4095 3) s (fun t => decide (Tbl.get 0 t.crd.used (crdKey 5 4095) = 0 ∧
      Tbl.get none (t.chain 4095).outs 192 = some { e with credit := false })) := by
  decide +kernel

theorem wit_drop_counters :
    let s := regs { base with crd := { drops := [(crdKey 2 0, 5), (crdKey 2 1, 6), (crdKey 3 0, 7)] } } [(.QCR_SEL, 0x20000, 0)]
    qcrSel s = some (2, 0) ∧
    runs .qcrClrSel s (fun t => decide (t.crd.drops = [(crdKey 2 1, 6), (crdKey 3 0, 7)])) ∧
    runs .qcrClrBnd s (fun t => decide (t.crd.drops = [(crdKey 3 0, 7)])) := by
  decide +kernel

theorem wit_empty_queue :
    let p : LoopPass := { stamp := 0, from_ := 0 }
    let s := { atFrc base 600 with lop := { pass := some p } }
    let off := { base with pwr := { base.pwr with main := false } }
    s.domOn 11 = true ∧ (match step s with | .next t => decide (t.frc = 601 ∧ t.lop.pass = none) | _ => false) = true ∧
    (match step off with | .next t => decide (t = off) | _ => false) = true := by
  decide +kernel

/-- Events of the FRC count of a clear outlast it (R9, R26). -/
theorem wit_same_count :
    let s := base.setRg .TMB_STAT 3
    let s := { s with now := { s.instant with raised := [(regAddr .TMB_STAT 0 0, 1)] } }
    let u := regs { base with crd := { drops := [(crdKey 2 0, 5)] } } [(.QCR_SEL, 0x20000, 0)]
    let u := { u with now := { u.instant with drops := [(crdKey 2 0, 3)] } }
    (match exec (.registerWrite .supervisor (regAddr .TMB_STAT 0 0) 4 3) s with
      | .next t => decide (t.flag .TMB_STAT 0 = true ∧ t.flag .TMB_STAT 1 = false) | _ => false) = true ∧
    (match exec .qcrClrSel u with | .next t => decide (t.crd.drops = [(crdKey 2 0, 2)]) | _ => false) = true := by
  decide +kernel
/-! Amendments -/

/-- A record of a kind for a tenant with a TEN_SEQ (Table 02-4): one empty section of an unknown type. -/
def recordBytes (kind tenant seq : Nat) : Bytes :=
  let put (o n v : Nat) : Bytes := (List.range n).map fun i => (o + i, BitVec.ofNat 8 (v / 256 ^ i))
  put 0 4 0x444D4156 ++ put 4 2 1 ++ put 6 2 kind ++ put 0x38 2 tenant ++ put 0x3C 4 seq ++ put 0x40 4 0x128 ++
    put 0x44 4 1 ++ put 0x48 4 0xC0 ++ put 0x80 2 0x8000 ++ put 0x84 4 0xC0 ++ put 0xC0 4 1

/-- The record, signed under root 7 unless forged. -/
def record (kind tenant seq : Nat) (forged : Bool) : AmdObj :=
  let b := recordBytes kind tenant seq
  { obj := { bytes := b, sig := { root := some 7, ok := !forged, over_ := blist b 0 0xC0 } } }

/-- A structure with tenant 5, of class H or C, at slot 0 of tile 0. -/
def plan5 (classC : Bool) : Plan :=
  { ports := [{ role := 6 }], banks := [0, 1], domains := 0x20, tileOn := 1, tiles := [{ budgets := [100] }], nvf := [1]
    tens := [(5, some { classC := classC })], pair := { port := 0, pairKey := 4, snapKey := 5 }
    keys := [(4, some ⟨2, 8, 0xFFFF⟩), (5, some ⟨3, 16, 0xFFFF⟩)] }

/-- A module OWNED by root 7 with that structure and one amendment slot. -/
def amdBase (classC : Bool) (x : AmdSlot) : State :=
  regs { base with
    plan := plan5 classC, att := { ownerRoot := some 7 }, amd := [(0, x)], ten := [(5, { cfg := some { classC := classC } })] }
    [(.ATT_LC, 1, 0)]

theorem wit_stage_and_discard :
    let s (st : AmdSt) : State := amdBase false { st := st }
    let r := record 1 5 0 false
    runs (.stage (some r)) (s .failed) (fun t => decide ((t.amdSlot 0).st = .verifying ∧ (t.amdSlot 0).rec_ = some r)) ∧
    keeps (.stage (some r)) (s .staged) ∧ keeps .discard (s .committing) ∧
    runs .discard (s .staged) (fun t => decide (t.amdSlot 0 = {})) := by
  decide +kernel

theorem wit_stage_done :
    let s (forged : Bool) (seq : Nat) : State := amdBase false { st := .verifying, rec_ := some (record 1 5 seq forged), tenant := 5 }
    let busy : State := { s false 0 with amd := [(0, (s false 0).amdSlot 0), (3, { st := .staged, tenant := 5 })] }
    runs (.stageDone 0) (s true 0) (fun t => decide ((t.amdSlot 0).st = .failed ∧ (t.amdSlot 0).result = 5)) ∧
    runs (.stageDone 0) (s false 1) (fun t => decide ((t.amdSlot 0).st = .failed ∧ (t.amdSlot 0).result = 0x11)) ∧
    runs (.stageDone 0) (s false 0) (fun t => decide ((t.amdSlot 0).st = .staged ∧ (t.amdSlot 0).result = 0 ∧
      (t.amdSlot 0).kind = 1)) ∧
    runs (.stageDone 0) busy (fun t => decide ((t.amdSlot 0).st = .failed ∧ (t.amdSlot 0).result = 0x14)) := by
  decide +kernel

theorem wit_commit_refused :
    let s (classC : Bool) (kind act : Nat) : State :=
      let u := amdBase classC { st := .staged, rec_ := some (record kind 5 0 false), tenant := 5, kind := kind }
      { u with boot := { u.boot with amdAct := [(0, act)] } }
    let full : State := { s true 1 0 with jrnl := { entries := [⟨.amd (record 1 5 0 false), 2 ^ 30, true⟩] } }
    let inSvc : State := { s true 0 0 with ten := [(5, { svc := .in_ })] }
    runs .commit full (fun t => decide ((t.amdSlot 0).st = .staged ∧ (t.amdSlot 0).result = 0x16)) ∧
    runs .commit inSvc (fun t => decide ((t.amdSlot 0).st = .staged ∧ (t.amdSlot 0).result = 0x13)) ∧
    runs .commit (s false 1 0) (fun t => decide ((t.amdSlot 0).st = .staged ∧ (t.amdSlot 0).result = 0x17)) ∧
    runs .commit (s false 1 1) (fun t => decide ((t.amdSlot 0).st = .staged ∧ (t.amdSlot 0).result = 0x15)) := by
  decide +kernel

theorem wit_commit_taken :
    let s (classC : Bool) (kind act : Nat) : State :=
      let u := amdBase classC { st := .staged, rec_ := some (record kind 5 0 false), tenant := 5, kind := kind }
      { u with boot := { u.boot with amdAct := [(0, act)] } }
    let drain : State := { s true 0 0 with ten := [(5, { svc := .drain })] }
    runs .commit (s false 1 2) (fun t => decide ((t.amdSlot 0).st = .committing ∧ (t.amdSlot 0).act = 2 ∧
      t.jrnl.entries = [⟨.amd (record 1 5 0 false), 0x128, false⟩])) ∧
    runs .commit (s true 1 0) (fun t => decide ((t.amdSlot 0).st = .committing ∧ (t.amdSlot 0).act = 0)) ∧
    runs .commit drain (fun t => decide ((t.amdSlot 0).st = .committing ∧ (t.amdSlot 0).waits = true ∧
      (t.tenant 5).commit = true)) := by
  decide +kernel

theorem wit_commit_done :
    let s (seq : Nat) : State :=
      let u := amdBase false { st := .committing, rec_ := some (record 1 5 seq false), tenant := 5, kind := 1, act := 2 }
      { u with jrnl := { entries := [⟨.amd (record 1 5 seq false), 0x128, false⟩] } }
    runs (.commitDone 0) (s 0) (fun t => decide ((t.amdSlot 0).st = .done ∧ t.acts = [⟨5, 2, record 1 5 0 false, 0⟩] ∧
      (t.tenant 5).seq = 1 ∧ t.boot.amdCount = 1 ∧ t.jrnl.entries = [⟨.amd (record 1 5 0 false), 0x128, true⟩])) ∧
    runs (.commitDone 0) (s 1) (fun t => decide ((t.amdSlot 0).st = .failed ∧ (t.amdSlot 0).result = 0x11 ∧
      t.acts = [] ∧ t.jrnl.entries = [])) := by
  decide +kernel

theorem wit_activation :
    let s (act : Nat) : State := { amdBase false {} with acts := [⟨5, act, record 1 5 0 false, 0⟩], groups := [(0, { start := some ⟨0, 0⟩ })] }
    runs (.amdActivation 5) (s 0) (fun t => decide (t.acts = [])) ∧ keeps (.amdActivation 5) (s 2) := by
  decide +kernel

theorem wit_commit_kind_0 :
    let s (st : AmdSt) (svc : Svc) : State :=
      let u := amdBase false { st := st, rec_ := some (record 0 5 0 false), tenant := 5, kind := 0 }
      { u with ten := [(5, { cfg := some {}, svc := svc, gen := 0xFFFF })]
               jrnl := if st = .committing then { entries := [⟨.amd (record 0 5 0 false), 0x128, false⟩] } else {} }
    runs .commit (s .staged .out) (fun t => decide ((t.amdSlot 0).st = .committing ∧ (t.tenant 5).svc = .drain ∧
      (t.tenant 5).gen = 1 ∧ (t.tenant 5).commit = true)) ∧
    runs (.commitDone 0) (s .committing .out) (fun t => decide ((t.amdSlot 0).st = .done ∧
      t.jrnl.entries = [⟨.amd (record 0 5 0 false), 0x128, true⟩])) ∧
    keeps (.commitDone 0) (s .committing .drain) := by
  decide +kernel
/-! Time and Thyme -/

theorem wit_time_commit_now :
    let s := regs (atFrc base 1000) [(.TMB_OFS_NX, 5, 0), (.TMB_ANC_NX, 6, 0), (.TMB_RATE_NX, 7, 0)]
    s.tb.pending = none ∧
    runs (.timeCommitNow false true) s (fun t => decide (t.rg .TMB_OFS = 5 ∧ t.rg .TMB_ANC = 6 ∧ t.rg .TMB_RATE = 7 ∧
      t.tb.holdFrom = 1000)) ∧
    runs (.timeCommitNow true false) s (fun t => decide (t.rg .TMB_ANC = 1000 ∧ t.rg .TMB_RATE = 7 ∧ t.tb.holdFrom = 0)) := by
  decide +kernel

theorem wit_time_commit_at :
    let s := regs (atFrc base 999) [(.TMB_CMT_AT, 1000, 0), (.TMB_RATE_NX, 7, 0), (.TMB_OFS_NX, 5, 0)]
    let p : PendingCommit := { at_ := 1000, fold := false, servo := true }
    s.frc < s.rg .TMB_CMT_AT ∧
    runs (.timeCommitAt false true) s (fun t => decide (t.tb.pending = some p ∧ t.rf = s.rf)) ∧
    runs (.timeCommitAt false true) (atFrc s 1000) (fun t => decide (t.flag .TMB_STAT 2 = true ∧ t.rg .TMB_RATE = 7)) ∧
    keeps (.timeCommitNow false true) { s with pwr := { s.pwr with warm := true } } ∧
    keeps (.timeCommitAt true true) { s with pwr := { s.pwr with warm := true } } ∧
    runs .timeCommitCancel { s with tb := { s.tb with pending := some p } } (fun t => decide (t.tb.pending = none)) ∧
    runs .timeCommitApply { atFrc s 1000 with tb := { s.tb with frc := 1000, pending := some p } } (fun t =>
      decide (t.tb.pending = none ∧ t.rg .TMB_OFS = 5 ∧ t.rg .TMB_RATE = 7)) ∧
    runs (.timeCommitNow false false) { s with tb := { s.tb with pending := some p } } (fun t =>
      decide (t.flag .TMB_STAT 3 = true ∧ t.rg .TMB_RATE = 0 ∧ t.tb.pending = some p)) := by
  decide +kernel

theorem wit_sync_requests :
    let s (x : SyncState) (f : Nat) : State := { base with tb := { sync := x, frc := f } }
    runs .claimLock (s .free 9) (fun t => decide (t.tb.sync = .locked ∧ t.tb.holdFrom = 9 ∧ t.flag .TMB_STAT 5 = true)) ∧
    keeps .claimLock (s .locked 9) ∧ keeps .enterHoldover (s .free 9) ∧ keeps .declareLost (s .free 9) ∧
    runs .enterHoldover (s .locked 9) (fun t => decide (t.tb.sync = .holdover ∧ t.tb.holdoverAt = 9)) ∧
    runs .declareLost (s .holdover 9) (fun t => decide (t.tb.sync = .lost ∧ t.flag .TMB_STAT 5 = true)) := by
  decide +kernel

theorem wit_sync_timers :
    let s (x : SyncState) (f h : Nat) : State := regs { base with tb := { sync := x, frc := f } } [(.TMB_HOLD, h, 0)]
    runs .holdTimerExpiry (s .locked (100 * ms) 7) (fun t => decide (t.tb.sync = .holdover)) ∧
    keeps .holdTimerExpiry (s .locked (100 * ms - 1) 7) ∧
    runs .holdoverLimitExpiry (s .holdover sec 0) (fun t => decide (t.tb.sync = .lost)) ∧
    keeps .holdoverLimitExpiry (s .holdover (sec - 1) 0) ∧
    runs .referenceLost (s .locked 0 0) (fun t => decide (t.tb.sync = .holdover ∧ t.flag .CLK_STAT 0 = true ∧
      t.flag .TMB_STAT 0 = true ∧ t.pwr.refOk = false)) := by
  decide +kernel

theorem wit_seconds_and_pps_out :
    let s := regs { base with tb := { sync := .locked, frc := 3 * sec } } [(.TMB_PPSCFG, 0x640003, 0)]
    s.locked = true ∧ s.newSecond s.tb.rtcSecond = true ∧ s.atSecond = true ∧ s.newSecond s.tb.ppsRise = true ∧ s.flag .TMB_PPSCFG 0 = true ∧
    runs .rtcSecond s (fun t => decide (t.tb.rtc = 3 * 32768 ∧ t.tb.rtcValid = true)) ∧
    runs .ppsOutRise s (fun t => decide (t.tb.ppsHigh = true ∧ t.tb.ppsFall = 3 * sec + 100 * ms ∧ t.out = [.pps true])) ∧
    keeps .ppsOutRise { s with tb := { s.tb with sync := .lost } } ∧ keeps .rtcSecond { s with tb := { s.tb with sync := .lost } } ∧
    keeps .rtcSecond (atFrc s (3 * sec + 1000)) ∧ keeps .rtcSecond { s with tb := { s.tb with rtcSecond := some (3 * sec) } } ∧
    runs .declareLost { s with tb := { s.tb with ppsHigh := true } } (fun t =>
      decide (t.tb.ppsHigh = false ∧ t.out = [.pps false])) ∧
    runs .ppsOutFall { s with tb := { s.tb with ppsHigh := true, ppsFall := 3 * sec } } (fun t =>
      decide (t.tb.ppsHigh = false ∧ t.out = [.pps false])) := by
  decide +kernel

theorem wit_pps_in :
    let s (f : Nat) : State := { base with tb := { frc := f, ppsIn := some 0 } }
    runs .ppsInEdge (s (900 * ms)) (fun t => decide (t.rg .TMB_PPSIN_NS = 900 * ms ∧ t.flag .TMB_STAT 7 = true ∧
      t.tb.ppsIn = some (900 * ms))) ∧
    runs .ppsInEdge (s (900 * ms - 1)) (fun t => decide (t.tb = (s (900 * ms - 1)).tb ∧ t.fld .TMB_PPSCFG 15 8 = 1)) ∧
    runs .ppsLost (s (1500 * ms)) (fun t => decide (t.flag .TMB_STAT 6 = true ∧ t.tb.ppsLost = true)) ∧
    keeps .ppsLost (s (1500 * ms - 1)) := by
  decide +kernel

/-- A PTP message of type y on port 7. -/
def ptpRx (y : PtpType) (two : Bool) : RxFrame :=
  let m : PtpMsg := { type := y, twoStep := two, seq := 9, corr := 512 }
  { port := 7, frc := 5000, stamp := 5000 * 256, frame := { da := 1, sa := 2, etherType := 0x88F7, len := 64, payload := .ptp m } }

theorem wit_ptp_frames :
    let s (y : PtpType) (two : Bool) : State := regs { base with tb := { frc := 5000, ptpRx := [ptpRx y two] } }
      [(.TMB_SRVCFG, 15, 0)]
    runs .syncRx (s .sync false) (fun t => decide (t.tb.ptpRx = [] ∧ t.fld .TMB_SRVCFG 31 16 = 9 ∧ t.flag .TMB_STAT 8 = true)) ∧
    runs .pdelayReq (s .pdelayReq false) (fun t => decide (t.tb.ptpRx = [])) ∧
    runs .ptpUnsupported (s .sync true) (fun t => decide (t.tb.ptpRx = [] ∧ t.rg .TMB_PTPUNS = 1)) ∧
    runs .ptpUnsupported (s .delayResp false) (fun t => decide (t.rg .TMB_PTPUNS = 1)) ∧
    runs .ptpUnsupported { base with tb := { ptpRx := [{ ptpRx PtpType.sync true with frame := { da := 1, sa := 2, etherType := 0x88F7, len := 64, payload := .other [] } }] } } (fun t =>
      decide (t.tb.ptpRx = [] ∧ t.rg .TMB_PTPUNS = 1)) ∧
    runs .ptpGeneral (s .announce false) (fun t => decide (t.tb.ptpRx = [] ∧ t.out.length = 1)) := by
  decide +kernel

theorem wit_pdelay :
    let s := { base with tb := { frc := 5000, ptpRx := [ptpRx .pdelayResp false], pdOut := [(7, some ⟨9, some (1000 * 256)⟩)] } }
    let u := regs { s with ports := [(7, { up := true })] } [(.TMB_PTPCFG, 0x1000080, 0)]
    runs .pdelayResp s (fun t => decide (t.tb.ptpRx = [] ∧ t.rg .TMB_PDRAW 7 = 2 ^ 31 + (4000 * 256 - 2) / 2)) ∧
    runs (.pdelayInterval 7) u (fun t => decide ((Tbl.get none t.tb.pdOut 7).map (·.seq) = some 1 ∧
      t.rg .TMB_PDRAW 7 = 2 ^ 24 ∧ Tbl.get 0 t.tb.pdNext 7 = 5000 + sec)) := by
  decide +kernel

theorem wit_thyme_requests :
    let s := regs (atFrc base 1000) [(.TTU_CHCFG, 0x40000000, 31), (.TTU_SCHED_NS, 1200, 0)]
    let late := s.setRg .TTU_SCHED_NS 1199
    s.chOwnerKind 31 = 1 ∧ s.schedInstant = s.dt + 200 * 256 ∧
    runs (.ttuSet 31) s (fun t => decide ((t.ch 31).q.map (·.act) = [.set] ∧ t.rg .TTU_SCHED_STAT = 0)) ∧
    runs (.ttuFire 31) late (fun t => decide ((t.ch 31).q.map (·.late) = [true] ∧ t.rg .TTU_SCHED_STAT = 1)) ∧
    runs (.ttuPulse 31 1) s (fun t => decide ((t.ch 31).q.map (·.act) = [.pulse 1])) ∧
    runs (.ttuSet 30) s (fun t => decide (t.rg .TTU_SCHED_STAT = 2 ∧ (t.ch 30).refused = 1 ∧ (t.ch 30).q = [])) := by
  decide +kernel

theorem wit_thyme_periodic :
    let s := regs (atFrc base 1000) [(.TTU_CHCFG, 0x40000004, 0), (.TTU_SCHED_NS, 1200, 0), (.TTU_CHPER, 1000, 0)]
    let u := { s with ttu := [(0, { run := some ⟨1000 * 256, 0, 1000, 1, 5, false⟩, q := [⟨0, .set, none, false, false⟩] })] }
    s.chPeriodic 0 = true ∧
    runs (.ttuStartPeriodic 0 5) s (fun t => decide ((t.ch 0).run.map (fun r => (r.base, r.k, r.num, r.den, r.width)) =
      some (1200 * 256, 0, 1000, 1, 5))) ∧
    runs (.ttuStop 0) u (fun t => decide ((t.ch 0).run = none)) ∧
    runs (.ttuFlush 0) u (fun t => decide ((t.ch 0).q = [])) ∧
    runs (.periodicInstant 0) u (fun t => decide ((t.ch 0).run.map (·.k) = some 1)) := by
  decide +kernel

theorem wit_thyme_entries :
    let s (a : TtuAct) (f : Nat) : State := { atFrc base f with ttu := [(31, { q := [⟨1000 * 256 + 1, a, none, false, false⟩], level := true })] }
    (s .set 1000).dueAt (1000 * 256 + 1) = false ∧ (s .set 1001).dueAt (1000 * 256 + 1) = true ∧
    keeps (.entryExecute 31) (s .clear 1000) ∧
    runs (.entryExecute 31) (s .set 1001) (fun t => decide ((t.ch 31).q = [] ∧ (t.ch 31).level = true)) ∧
    runs (.entryExecute 31) (s .clear 1001) (fun t => decide ((t.ch 31).q = [] ∧ (t.ch 31).level = false)) := by
  decide +kernel

theorem wit_timed_output_request :
    let s (g : Nat) : State := regs { atFrc base 1000 with
      ttuReqs := [⟨4095, g, 31, .set, 1200 * 256⟩], ten := [(4095, { gen := 2 })], crd := { used := [(crdKey 8 4095, 1)] } }
      [(.TTU_CHCFG, 0x80000000 + 4095 * 2 ^ 18, 31)]
    (s 2).chOwnerKind 31 = 2 ∧ (s 2).chOwner 31 = 4095 ∧
    runs .timedOutputRequest (s 2) (fun t => decide (t.ttuReqs = [] ∧ (t.ch 31).q.map (·.owner) = [some (4095, 2)] ∧
      t.crd.used = [])) ∧
    runs .timedOutputRequest (s 1) (fun t => decide (t.ttuReqs = [] ∧ (t.ch 31).q = [])) := by
  decide +kernel
/-! Ports, redundancy and the switch -/

/-- Port n in a state, with the role and MAC_CFG bits given. -/
def withPort (n cfg : Nat) (p : Port) : State := { base with ports := [(n, p)] }.setRg .MAC_CFG cfg n

/-- A frame of an EtherType, destination and length. -/
def eth (da ty len : Nat) : Frame := { da := da, sa := 2, etherType := ty, len := len, payload := .other [] }

/-- A frame in the fabric from input 3 to the outputs given. -/
def swf (len : Nat) (outs : List Nat) : SwFrame :=
  { frame := eth 1 0x88B8 len, origin := .port, input := 3, cls := 4, vid := 1, pri := 4, cells := 1, outs := outs }

theorem wit_pause :
    let s (cfg : Nat) : State := atFrc (withPort 7 cfg { up := true }) 1000
    let h : Port := { up := true, pause := some ⟨0, 2000 * us, none⟩, heldFrom := some 0 }
    (s 0x400).pauseActs 7 = true ∧ 0 < (s 0x400).quantaNs 7 1 ∧
    runs (.pause 7 1) (s 0) (fun t => decide (t.rg .MAC_CNT 7 9 = 1 ∧ t.ports = (s 0).ports)) ∧
    runs (.pause 7 1) (s 0x400) (fun t => decide ((t.prt 7).pause = some ⟨1000, 1021, none⟩ ∧ (t.prt 7).heldClass 7 1000 = true)) ∧
    runs (.pfc 7 0xFF [1, 1, 1, 1, 1, 1, 1, 1]) (s 0) (fun t => decide (t.rg .MAC_CNT 7 10 = 1 ∧ t.ports = (s 0).ports)) ∧
    runs (.pfc 7 255 [0, 0, 0, 0, 0, 0, 0, 1]) (s 0x800800) (fun t => decide ((t.prt 7).heldClass 7 1000 = true ∧
      (t.prt 7).heldClass 6 1000 = false)) ∧
    runs (.pause 7 1) ((s 0x400).setPrt 7 { up := true, tx := some (swf 64 []) }) (fun t =>
      decide ((t.prt 7).pause = some ⟨1000, 1000, some 21⟩)) ∧
    runs (.frameTransmitted 7) ((s 0).setPrt 7 { up := true, tx := some (swf 64 []), pause := some ⟨1000, 1000, some 21⟩ }) (fun t =>
      decide ((t.prt 7).pause = some ⟨1000, 1021, none⟩)) ∧
    runs (.pauseHoldEnd 7) (atFrc (withPort 7 0 h) (2000 * us)) (fun t => decide ((t.prt 7).pause = none ∧
      (t.prt 7).heldFrom = none)) := by
  decide +kernel

theorem wit_pause_cap :
    let h : Port := { up := true, pause := some ⟨0, 2000 * us, none⟩, heldFrom := some 0 }
    let s (f : Nat) : State := (atFrc (withPort 7 0x400 h) f).setRg .MAC_PAUSECFG 1000 7
    let c : Port := { up := true, pfc := [(3, some ⟨0, 2000 * us, none⟩)], heldFrom := some 0 }
    keeps (.pauseCapEnd 7) (s (1000 * us - 1)) ∧
    runs (.pauseCapEnd 7) ((atFrc (withPort 7 0x400 c) (1000 * us)).setRg .MAC_PAUSECFG 1000 7) (fun t =>
      decide ((t.prt 7).pfc = [] ∧ t.flag .MAC_STAT 10 7 = true)) ∧
    runs (.pauseCapEnd 7) (s (1000 * us)) (fun t => decide ((t.prt 7).pause = none ∧ t.flag .MAC_STAT 10 7 = true ∧
      (t.prt 7).ignoreTo = 1000 * us + ms)) ∧
    runs (.pauseIgnoreEnd 7) (atFrc (withPort 7 0 { ignoreTo := 5 }) 5) (fun t => decide ((t.prt 7).ignoreTo = 0)) := by
  decide +kernel

theorem wit_filter_modes :
    let s (lc : Nat) : State := (withPort 7 1 {}).setRg .ATT_LC lc
    runs (.filtReqNormal 7) (s 2) (fun t => decide ((t.prt 7).filt = .normal)) ∧
    runs (.filtReqRecovery 7) (s 2) (fun t => decide ((t.prt 7).filt = .recovery)) ∧
    runs (.filtReqTest 7) (s 0) (fun t => decide ((t.prt 7).filt = .test)) ∧
    keeps (.filtReqTest 7) ((withPort 7 1 { filt := .test }).setRg .ATT_LC 1) ∧
    runs (.filtReqTest 7) (s 1) (fun t => decide ((t.prt 7).filt = .start ∧ t.flag .MAC_STAT 11 7 = true)) := by
  decide +kernel

theorem wit_frame_outcomes :
    let s : State := withPort 7 5 { up := true }
    let on (k : Nat) (t : State) : Bool := decide (t.rg .MAC_CNT 7 k = 1 ∧ t.svx = s.svx ∧ t.sw = s.sw ∧ t.crd = s.crd)
    s.receives 7 = true ∧ s.role 7 = Role.spare ∧ s.admitted 7 1 = false ∧
    runs (.frameReceive 7 0 (eth 1 0x88BA 64) true true 0 0) s (on 5) ∧
    runs (.frameReceive 7 0 (eth 1 0x88BA 16384) false true 0 0) s (on 4) ∧
    runs (.frameReceive 7 0 (eth 1 0x88BA 63) false true 0 0) s (on 2) ∧
    runs (.frameReceive 7 0 (eth 1 0x88BA 64) false false 0 0) s (on 3) ∧
    runs (.frameReceive 7 0 (eth 1 0x88BA 64) false true 0 0) s (on 6) ∧
    keeps (.frameReceive 7 0 (eth 1 0x88BA 64) false true 0 0) (withPort 7 5 {}) := by
  decide +kernel

theorem wit_frame_consumers :
    let crd : Credits := { share := [(crdKey 0 7, 1), (crdKey 1 7, 1)] }
    let s (role : Nat) : State := regs { withPort 7 role { up := true } with crd := crd }
      [(.MAC_FENT, 2 ^ 63 + 1, 7), (.TMB_PTPCFG, 0x80, 0), (.SWC_DEFACT, 0, 7)]
    (s 5).admitted 7 1 = true ∧ 0 < (s 5).avail 0 7 ∧ 0 < (s 5).avail 1 7 ∧
    (s 5).lookup 7 ((s 5).vidOf 7 (eth 1 0x88BA 64)) 1 = {} ∧
    runs (.frameReceive 7 255 (eth 1 0x88F7 64) false true 0 0) (s 5) (fun t =>
      decide (t.tb.ptpRx.map (fun r => (r.port, r.frame.etherType, r.stamp)) = [(7, 0x88F7, (s 5).rxStamp 7 255)])) ∧
    runs (.frameReceive 7 0 (eth 1 0x88B5 64) false true 0 0) (s 6) (fun t =>
      decide (t.par.rx.map (·.frame) = [eth 1 0x88B5 64] ∧ t.rg .MAC_CNT 7 0 = 1)) ∧
    runs (.frameReceive 7 0 (eth 1 0x88BA 1522) false true 0 0) (s 5) (fun t =>
      decide (t.svx.queue.map (·.frame) = [eth 1 0x88BA 1522] ∧ Tbl.get 0 t.crd.used (crdKey 1 7) = 1)) := by
  decide +kernel

theorem wit_link_states :
    let s (f : Nat) (p : Port) : State := atFrc (withPort 7 5 p) f
    runs (.lossOfLock 7 false {} false) (s 9 { lock := true, up := true }) (fun t => decide ((t.prt 7).lock = true)) ∧
    runs (.lossOfLock 7 false {} true) (s 9 { lock := true, up := true }) (fun t =>
      decide ((t.prt 7).lock = false ∧ (t.prt 7).lockAt = 9 ∧ (t.prt 7).up = true ∧
        t.flag .MAC_STAT 7 7 = true ∧ t.out = [.line 7 .remoteFault])) ∧
    runs (.lockRegained ⟨7, {}⟩) (s (10 * us - 1) { up := true }) (fun t => decide ((t.prt 7).lock = true ∧ (t.prt 7).up = true ∧
      t.flag .MAC_STAT 3 7 = true ∧ t.rg .MAC_CNT 7 21 = 1)) ∧
    runs (.upHoldExpiry 7) (s ms { lock := true }) (fun t => decide ((t.prt 7).up = true ∧ (t.prt 7).upAt = ms ∧
      t.flag .MAC_STAT 2 7 = true)) ∧
    keeps (.upHoldExpiry 7) (s (ms - 1) { lock := true }) ∧
    runs (.downFiltExpiry 7) (s (10 * us) { up := true }) (fun t => decide ((t.prt 7).up = false ∧ t.flag .MAC_STAT 1 7 = true)) ∧
    runs (.adminDown 7 false) (s 0 { lock := true, up := true }) (fun t =>
      decide ((t.prt 7).up = false ∧ t.flag .MAC_CFG 31 7 = true)) := by
  decide +kernel

theorem wit_link_events :
    let s (f : Nat) (p : Port) : State := atFrc ((withPort 7 0xA0 p).setRg .MAC_LINKCFG 1 7) f
    runs (.rxIdleTimeout 7) (s ms { up := true }) (fun t => decide (t.flag .MAC_STAT 5 7 = true ∧ (t.prt 7).rxIdleSeen = true)) ∧
    keeps (.rxIdleTimeout 7) (s (ms - 1) { up := true }) ∧
    runs (.autonegFail 7 3) (s 0 {}) (fun t => decide (t.flag .MAC_STAT 9 7 = true ∧ (t.prt 7).anRf = 3)) ∧
    runs (.macCntclr 7 0x200000) (((s 0 {}).setRg .MAC_CNT 5 7 21).setRg .MAC_CNT 6 7 0) (fun t =>
      decide (t.rg .MAC_CNT 7 21 = 0 ∧ t.rg .MAC_CNT 7 0 = 6)) := by
  decide +kernel

theorem wit_egress :
    let s (p : Port) : State := withPort 7 5 { p with up := true }
    let f := swf 64 []
    (s {}).egressFrame 7 f = { eth 1 0x88B8 68 with vlan := some ⟨4, 1⟩ } ∧
    runs (.frameTransmit 7 0) (s { waiting := some f }) (fun t => decide ((t.prt 7).waiting = none ∧
      (t.prt 7).tx.map (fun g => (g.frame.len, g.frame.da)) = some (68, 1))) ∧
    runs (.frameTransmit 7 0) (s { waiting := some (swf 1522 []) }) (fun t => decide ((t.prt 7).waiting = none ∧
      (t.prt 7).tx = none ∧ t.rg .MAC_CNT 7 15 = 1)) ∧
    keeps (.frameTransmit 7 0) (s { waiting := some f, pfc := [(4, some ⟨0, 9, none⟩)] }) ∧
    runs (.frameTransmitted 7) (s { tx := some f }) (fun t => decide ((t.prt 7).tx = none ∧ t.rg .MAC_CNT 7 13 = 1 ∧
      t.out = [.frame 7 f.frame 64 false])) := by
  decide +kernel

theorem wit_cell_time :
    let s (m : List Match) : State := { withPort 7 5 { up := true } with sw := { frames := [(0, some (swf 64 [7]))], matched := m } }
    runs .cellTime (s []) (fun t => decide (t.sw.frames = (s []).sw.frames ∧ t.ports = (s []).ports)) ∧
    runs .cellTime (s [⟨3, 7, 4, 0, 0⟩]) (fun t => decide ((t.prt 7).waiting = some (swf 64 [7]) ∧ t.sw.matched = [])) := by
  decide +kernel

theorem wit_discard_window :
    let w : SeqWindow := { top := 65535, marks := [] }
    (w.decideSeq 0 5).2 = .fresh ∧ ((w.decideSeq 0 5).1.decideSeq 0 21).2 = .dup ∧
    ((w.decideSeq 0 5).1.decideSeq 0 22).2 ≠ .dup ∧
    runs .discardTick { atFrc base (17 * 25 * ms) with prp := { pb := [⟨2, some { marks := [(0, 0)] }, none, none⟩] } } (fun t =>
      decide (t.prp.pb = [])) := by
  decide +kernel

theorem wit_station_mode :
    let s (a b : Nat) (up : Bool) : State := regs { base with ports := [(5, { up := up })] } [(.MAC_CFG, a, 4), (.MAC_CFG, b, 5)]
    (s 3 4 true).role 4 = Role.stA ∧ (s 3 4 true).role 5 = Role.stB ∧
    keeps (.stModeWrite false) (s 3 4 true) ∧ runs (.stModeWrite true) (s 3 0 false) (fun t => decide (t.hsr = false ∧ t.flag .PRP_STAT 1 = true)) ∧
    runs (.stModeWrite true) (s 3 4 true) (fun t => decide (t.hsr = false ∧ t.flag .PRP_STAT 1 = true)) ∧
    runs (.stModeWrite true) (s 3 4 false) (fun t => decide (t.hsr = true)) ∧
    runs (.stModeWrite false) ((s 3 0 false).setRg .PRP_NODECFG 1) (fun t => decide (t.hsr = false)) := by
  decide +kernel

theorem wit_forwarding_writes :
    let e : FdbEntry := { key := 2 ^ 63 + 7, act := 3 }
    let s (i key : Nat) : State := regs { base with sw := { fdb := [(5, e)] } }
      [(.SWC_FDBSEL, i, 0), (.SWC_FDBKEY, key, 0), (.SWC_FDBACT, 9, 0)]
    runs .fdbRead (s 5 0) (fun t => decide (t.rg .SWC_FDBKEY = 2 ^ 63 + 7 ∧ t.rg .SWC_FDBACT = 3)) ∧
    runs .fdbWrite (s 4095 (2 ^ 63 + 7)) (fun t => decide (t.sw.fdb = [(5, e)] ∧ t.flag .SWC_STAT 0 = true)) ∧
    runs .fdbWrite (s 5 (2 ^ 63 + 7)) (fun t => decide (t.sw.fdb = [(5, { e with act := 9 })])) ∧
    runs .fdbWrite (s 4095 7) (fun t => decide (t.sw.fdb = [(5, e), (4095, ⟨7, 9⟩)] ∧ t.flag .SWC_STAT 0 = false)) := by
  decide +kernel

theorem wit_inbuf_and_counters :
    let s : State := ((base.setRg .SWC_ICNT 5 14 7).setRg .PRP_CNT 3 0 12).setRg .PRP_CNT 4 1 12
    runs (.inbufWrite 14 7 1025) (s.setRg .SWC_INBUF 1023 0 0) (fun t => decide (t.rg .SWC_INBUF 14 7 = 1025)) ∧
    runs (.inbufWrite 14 7 1025) s (fun t => decide (t.flag .SWC_STAT 1 = true ∧ t.rg .SWC_INBUF 14 7 = 1024)) ∧
    runs (.inbufWrite 14 7 131072) s (fun t => decide (t.flag .SWC_STAT 1 = true ∧ t.rg .SWC_INBUF 14 7 = 1024)) ∧
    runs (.swcIcntRead .supervisor 14 7) s (fun t => decide ((t.port .supervisor).data = 5 ∧ t.rg .SWC_ICNT 14 7 = 0)) ∧
    runs .prpClearPb s (fun t => decide (t.rg .PRP_CNT 0 12 = 0 ∧ t.rg .PRP_CNT 1 12 = 4)) ∧
    runs .prpClearSt s (fun t => decide (t.rg .PRP_CNT 0 12 = 3 ∧ t.rg .PRP_CNT 1 12 = 0)) := by
  decide +kernel

theorem wit_supervisor_frame :
    let s : State := { withPort 7 5 { up := true } with sw := { fdb := [(0, ⟨2 ^ 63 + 2 ^ 48 + 1, 0x80⟩)] } }
    let f := eth 1 0x0800 64
    (s.lookup 13 (s.vidOf 13 f) f.da).ports = [7] ∧ s.twin 7 = none ∧ s.priOf 13 f = 0 ∧
    runs (.supervisorFrameSend f false) s (fun t => decide (2 ∈ t.prp.supSas ∧
      (Tbl.get none t.sw.frames 0).map (fun g => (g.frame, g.outs, g.cls)) = some (f, [7], 0) ∧
      Tbl.get [] t.sw.voq (voqKey 13 7 0) = [0])) := by
  decide +kernel
/-! Sampled values, filters and points -/

/-- A stream of 4000 samples a second with one channel and svID 1. -/
def sc1 : StreamCfg :=
  { appid := 0x4000, rate := 0, asdus := 1, legacy := false, nch := 1, chtype := 0, auth := 0, syncAcc := 7, simAcc := false, confRev := 1, keySlot := 0, tmo := 2, gapMax := 4, depth := 0, iwin := 2, uwin := 2, svid := [1] }

/-- A frame of that stream with one sample. -/
def svRx (appid smp : Nat) (parses : Bool) : RxFrame :=
  let p : SvPdu := { appid := appid, parses := parses, noAsdu := 1, asdus := [⟨[1], smp, 1, 2, [⟨-5, 0⟩]⟩] }
  { port := 7, frc := 0, stamp := 0, frame := { da := 1, sa := 2, etherType := 0x88BA, len := 100, payload := .sv p } }

/-- The stream is number 4095, its previous sample was number 3999; one frame waits. -/
def svState (rx : RxFrame) (st : StreamSt) : State :=
  let x : Stream := { st := st, goodRun := 1, prev := some ⟨3999, 2, false⟩, widx := 9, expiry := some 10 }
  { atFrc base 10 with
    svx := { queue := [rx], cfg := [(4095, some sc1)], streams := [(4095, x)] }
    crd := { share := [(crdKey 1 7, 2), (crdKey 4 4095, 1)], used := [(crdKey 1 7, 1)] } }

theorem wit_sv_frame :
    let s (smp : Nat) : State := svState (svRx 0x4000 smp true) .valid
    (s 0).svLookup 0x4000 [1] = some (4095, sc1) ∧ 0 < (s 0).avail 4 4095 ∧
    runs .svFrame (s 0) (fun t => decide (t.svx.queue = [] ∧ t.crd.used = [(crdKey 4 4095, 1)] ∧
      (t.stream 4095).widx = 10 ∧ (t.stream 4095).prev.map (·.smp) = some 0 ∧
      (Tbl.get none (t.stream 4095).ring 1).map (fun r => (r.smp, r.vals)) = some (0, [-5]) ∧
      Tbl.get 0 (t.stream 4095).cnt 0 = 1 ∧ (Tbl.get [] t.svx.descs 4095).map (·.smp) = [0])) ∧
    runs .svFrame (s 3999) (fun t => decide ((t.stream 4095).widx = 9 ∧ Tbl.get 0 (t.stream 4095).cnt 1 = 1)) := by
  decide +kernel

theorem wit_sv_unknown_and_parse :
    runs .svFrame (svState (svRx 0x3FFF 0 true) .valid) (fun t => decide (t.rg .SVX_UNKNOWN = 1 ∧ t.flag .SVX_STAT 0 = true)) ∧
    runs .svFrame (svState (svRx 0x8000 0 true) .valid) (fun t => decide (t.rg .SVX_UNKNOWN = 1)) ∧
    runs .svFrame (svState (svRx 0x7FFF 0 false) .valid) (fun t => decide (t.rg .SVX_PARSE = 1 ∧ t.rg .SVX_UNKNOWN = 0)) := by
  decide +kernel

theorem wit_stream_timeout :
    let s (st : StreamSt) : State := svState (svRx 0x4000 0 true) st
    runs (.streamTimeout 4095) (s .valid) (fun t => decide ((t.stream 4095).st = .lost ∧ (t.stream 4095).prev = none ∧
      t.flag .SVX_STAT 3 = true)) ∧
    runs (.streamTimeout 4095) (s .acquire) (fun t => decide ((t.stream 4095).st = .acquire ∧ (t.stream 4095).goodRun = 0)) ∧
    keeps (.streamTimeout 4095) (atFrc (s .valid) 9) := by
  decide +kernel

theorem wit_sesame_clears :
    let x : Stream := { st := .valid, cnt := [(0, 5)] }
    let s := regs { base with svx := { streams := [(4095, x), (1, x)], disc := [⟨1, [], 2, 3, 4, 5, 6, 7, 1⟩] } }
      [(.SVX_SSEL, 4095, 0), (.SVX_UNKNOWN, 6, 0), (.SVX_PARSE, 2 ^ 32 - 1, 0)]
    runs .svxClearSel s (fun t => decide (Tbl.get 0 (t.stream 4095).cnt 0 = 0 ∧ (t.stream 4095).st = .valid ∧ t.stream 1 = x)) ∧
    runs .svxClearAll s (fun t => decide (Tbl.get 0 (t.stream 1).cnt 0 = 0)) ∧
    runs .discoveryPop s (fun t => decide (t.svx.disc = [])) ∧
    runs (.svxUnknownRead .supervisor) s (fun t => decide ((t.port .supervisor).data = 6 ∧ t.rg .SVX_UNKNOWN = 0)) ∧
    runs (.svxParseRead .supervisor) s (fun t => decide ((t.port .supervisor).data = 0xFFFFFFFF ∧ t.rg .SVX_PARSE = 0)) := by
  decide +kernel

theorem wit_filter :
    let tc : TopoCfg := { engine := 0, ret := 1, share := 1, offset := 0, hold := false, taps := [], stages := [] }
    let x : Stream := { ring := [(1, some ⟨[-5], [0], 0, 1, 0, false, 0, 0, 0⟩)] }
    let s := regs { base with
      svx := { cfg := [(4095, some sc1)], streams := [(4095, x)], descs := [(4095, [⟨1, 0, 0⟩])] }
      flt := { topo := [(4095, some tc)], chains := [(4095, { last := some 3999, pend := some ⟨false, none⟩, cnt := [(1, 2)] })] }
      crd := { used := [(crdKey 4 4095, 1)] } } [(.FLT_SSEL, 4095, 0)]
    let removed (c : Bool) : State := { base with
      svx := { streams := [(4095, { x with st := .lost })] }
      flt := { gone := [(4095, some (sc1, tc))], chains := [(4095, { cnt := [(1, 2)], outs := [(0, some ⟨⟨[], [], 0, 0, 0, 0⟩, 0, c, 0, 0⟩)] })] } }
    runs (.filterStep 4095) (removed false) (fun t => decide (Tbl.get none t.flt.gone 4095 = none ∧ (t.chain 4095).outs = [] ∧
      (t.stream 4095).st = .disabled ∧ (t.chain 4095).cnt = [(1, 2)])) ∧
    runs (.filterStep 4095) s (fun t => decide ((t.chain 4095).last = some 0 ∧ t.svx.descs = [] ∧ (t.chain 4095).taken = 1 ∧
      t.crd.used = [])) ∧
    keeps (.filterStep 0) s ∧
    runs (.dcFreeze true 0) s (fun t => decide ((t.chain 4095).pend = some ⟨false, none⟩)) ∧
    runs (.dcRelease false 3999) s (fun t => decide ((t.chain 4095).pend = some ⟨true, some 3999⟩)) ∧
    keeps (.dcRelease false 4000) s ∧ runs .dcCancel s (fun t => decide ((t.chain 4095).pend = none)) ∧
    runs .fltClearSel s (fun t => decide ((t.chain 4095).cnt = [] ∧ (t.chain 4095).last = some 3999)) ∧
    runs .fltClearAll s (fun t => decide ((t.chain 4095).cnt = [])) := by
  decide +kernel

theorem wit_point_commands :
    let s (h lc : Nat) : State := regs { base with pts := [(7, { value := 5, quality := 0, type := 4, info := 1, time := 9 })] }
      [(.PNT_HANDLE, h, 0), (.ATT_LC, lc, 0), (.PNT_DATA, 0x0004000011223344, 0), (.PNT_TIME, 77, 0)]
    let big := 2 ^ 25
    runs .pntRead (s 7 0) (fun t => decide (t.rg .PNT_DATA = (t.point 7).word ∧ t.rg .PNT_TIME = 9)) ∧
    runs .pntWrite (s (big - 1) 0) (fun t => decide ((t.point (big - 1)).value = 0x11223344 ∧ (t.point (big - 1)).time = 77 ∧
      t.point 7 = (s 7 0).point 7)) ∧
    (let u := { s (big - 1) 0 with now := { pts := [(big - 1, 4)] } }; runsIn .pntWrite u fun t => decide (t = u)) ∧
    runs .pntWrite (s big 0) (fun t => decide (t.rg .PNT_BADHANDLE = 1 ∧ t.pts = (s 7 0).pts)) ∧ keeps .pntWrite (s 7 1) := by
  decide +kernel

theorem wit_point_write :
    let p : Point := { value := 1, quality := 0, type := 1, info := 0, time := 3 }
    let s (g h : Nat) : State := { base with
      pntQ := [⟨5, g, 6, h, p, 0, 0⟩], ten := [(5, { gen := 2, cfg := some {} })], crd := { used := [(crdKey 6 5, 1)] } }
    let l (u g : Nat) : State := { atFrc (s g 40960) 9 with pntQ := [⟨u, g, Bnd.loopPort, 40960, p, 8, 4⟩] }
    (s 2 40960).canPoint 5 40960 true = true ∧ (s 2 40960).canPoint 5 49152 true = false ∧
    runs .pointWrite (s 2 40960) (fun t => decide (t.point 40960 = p ∧ t.pntQ = [] ∧ t.crd.used = [])) ∧
    runs .pointWrite (s 2 49152) (fun t => decide (t.pts = [] ∧ t.pntQ = [] ∧ t.rg .PNT_REFUSED = 1)) ∧
    (s 2 40960).pointWatchers 40960 = [] ∧
    runs .pointWrite (l noOwner 0) (fun t => decide (t.point 40960 = p ∧ t.pntQ = [])) ∧
    runs .pointWrite (l 5 2) (fun t => decide (t.point 40960 = p)) ∧
    runs .pointWrite (l 5 1) (fun t => decide (t.pts = [] ∧ t.pntQ = [] ∧ t.rg .PNT_STALE = 1)) ∧
    runs .pointWrite (s 1 40960) (fun t => decide (t.pts = [] ∧ t.crd = (s 1 40960).crd ∧ t.rg .PNT_STALE = 1)) := by
  decide +kernel

theorem wit_point_counters :
    let s := regs base [(.PNT_REFUSED, 1, 0), (.PNT_BADHANDLE, 2, 0), (.PNT_STALE, 2 ^ 32 - 1, 0)]
    runs (.pntRefusedRead .supervisor) s (fun t => decide ((t.port .supervisor).data = 1 ∧ t.rg .PNT_REFUSED = 0)) ∧
    runs (.pntBadhandleRead .supervisor) s (fun t => decide ((t.port .supervisor).data = 2 ∧ t.rg .PNT_BADHANDLE = 0)) ∧
    runs (.pntStaleRead .supervisor) s (fun t => decide ((t.port .supervisor).data = 0xFFFFFFFF ∧ t.rg .PNT_STALE = 0)) := by
  decide +kernel
/-! The element array -/

theorem wit_group_start :
    let e (f : Nat) : Edge := ⟨f * 256, f⟩
    let s (es : List Edge) (g : Group) (f : Nat) : State := regs { atFrc base f with edges := [(8, es)], groups := [(3, g)] }
      [(.ELA_GRPCFG, 0x80000000, 3), (.ELA_GRPCNT, 41, 3), (.ELA_GRPPRE, 77, 3)]
    (s [] {} 0).groupOn 3 = true ∧ (s [] {} 0).groupHz 3 = 4000 ∧
    runs (.groupCycleStart 3) (s [e 5] {} 5) (fun t => decide (t.rg .ELA_GRPCNT 3 = 42 ∧ (t.group 3).start = some (e 5) ∧ t.edges = [])) ∧
    runs (.groupCycleStart 3) (s [e 5] { armed := some 9 } 5) (fun t => decide (t.rg .ELA_GRPCNT 3 = 9 ∧ (t.group 3).armed = none)) ∧
    runs (.groupCycleStart 3) (s [e 124999] { start := some (e 0) } 124999) (fun t => decide (t.rg .ELA_GRPCNT 3 = 41 ∧
      t.fld .ELA_GRPEV 15 0 3 = 1 ∧ t.flag .ELA_STAT 5 = true)) ∧
    runs (.groupCycleStart 3) (s [e 2000] { start := some (e 0), free := true } 2000) (fun t =>
      decide (t.rg .ELA_GRPCNT 3 = 41 ∧ t.edges = [] ∧ t.fld .ELA_GRPEV 15 0 3 = 0)) ∧
    runs (.freewheelStart 3) (s [] { start := some (e 0) } 252000) (fun t => decide (t.rg .ELA_GRPCNT 3 = 42 ∧
      (t.group 3).free = true ∧ t.flag .ELA_STAT 4 = true)) ∧
    keeps (.freewheelStart 3) (s [] { start := some (e 0) } 251999) ∧
    runs (.armPreset 3) (s [] {} 0) (fun t => decide ((t.group 3).armed = some 77)) ∧
    runs (.elaGrpevRead .supervisor 3) ((s [] {} 0).setRg .ELA_GRPEV 3 3) (fun t =>
      decide ((t.port .supervisor).data = 3 ∧ t.rg .ELA_GRPEV 3 = 0)) := by
  decide +kernel

/-- A program of one constant node, bound to stream 0, with one point input. -/
def prog1 : ElaProg := { bindings := [⟨0, 0, false⟩], nodes := [⟨.const true 0x3F800000, []⟩], ptins := [40960] }

/-- Tenant 5 in tile 127, slot 31, with a BUDGET and array state; its group's cycle started at FRC 0. -/
def elaState (f budget : Nat) (e : ElaTen) : State :=
  regs { atFrc base f with
    slots := [(32 * 127 + 31, some (5, budget))], ela := [(5, e)], groups := [(3, { start := some ⟨0, 0⟩ })]
    ten := [(5, { cfg := some { tile := 127, slot := 31, elem := some prog1 } })], pts := [(40960, { value := 6, quality := 0 })]
    pwr := { base.pwr with on := 0xFFFF } }
    [(.ELA_GRPCFG, 0x80000000, 3), (.ELA_TILECFG, 0x8003000A, 127)]

theorem wit_fetch_and_wake :
    let o := 31 * 7800
    let s (f : Nat) : State := elaState f 100 { st := .run }
    (s 0).slotInUse 127 31 = some 5 ∧ (s 0).openAt 3 31 = some o ∧ (s 0).tileOn 127 = true ∧
    runs (.fetch 127 31) (s (o - 1000)) (fun t => decide ((t.elaT 5).fetched = [(40960, { value := 6, quality := 0 })])) ∧
    runs (.coreWake 127 31) (s (o - 100)) (fun t => decide (Tbl.get false t.awake 127 = true)) := by
  decide +kernel

theorem wit_window_open :
    let s (f : Nat) : State := (elaState f 100 { st := .run }).setRg .ELA_GRPCNT 9 3
    runs (.windowOpen 127 31) (s (31 * 7800)) (fun t => decide ((t.elaT 5).openedAt = some 0 ∧
      (t.elaT 5).window.map (fun w => (w.openFrc, w.cycle, w.runs, w.ended)) = some (31 * 7800, 9, true, false))) ∧
    keeps (.windowOpen 127 31) (s (31 * 7800 - 1)) ∧ keeps (.windowOpen 127 31) (s (32 * 7800)) := by
  decide +kernel

/-- A window opened at FRC 0. -/
def win0 : Window := { openFrc := 0, openDt := 0, cycle := 9, binds := [{}], points := [] }

theorem wit_program_end :
    let s (f budget consec : Nat) : State := elaState f budget { st := .run, window := some win0, consec := consec }
    let r := runNodes ((s 0 0 0).envOf 5 prog1 win0) none prog1.nodes 0 { cycles := 32, nodes := [] }
    let total := r.cycles + 16
    r.reqs = [] ∧ (s 0 total 0).running 127 31 = some (5, total, prog1, win0) ∧
    runs (.programCommit 127 31 0) (s (tileNs total) total 2) (fun t => decide ((t.elaT 5).consec = 0 ∧
      (t.elaT 5).window = some { win0 with ended := true } ∧ Tbl.get 0 (t.elaT 5).cnt 0 = 1)) ∧
    keeps (.programCommit 127 31 0) (s (tileNs total - 1) total 2) ∧
    runs (.budgetStop 127 31 0) (s (tileNs (total - 1)) (total - 1) 2) (fun t => decide ((t.elaT 5).pendBlock = true ∧
      Tbl.get 0 (t.elaT 5).cnt 1 = 1 ∧ t.flag .ELA_STAT 0 = true)) ∧
    runs (.budgetStop 127 31 0) (s (tileNs (total - 1)) (total - 1) 1) (fun t => decide ((t.elaT 5).pendBlock = false ∧
      (t.elaT 5).consec = 2)) := by
  decide +kernel

theorem wit_window_close_and_errors :
    let s (st : ElaSt) (w : Option Window) (pb : Bool) : State := elaState 7800 100 { st := st, window := w, pendBlock := pb }
    runs (.windowClose 127 31) (s .run (some win0) true) (fun t => decide ((t.elaT 5).st = .blocked ∧ (t.elaT 5).window = none)) ∧
    runs (.windowClose 127 31) (s .run (some win0) false) (fun t => decide ((t.elaT 5).st = .run ∧ (t.elaT 5).window = none)) ∧
    runs (.slotEccError 5) (s .seat (some win0) false) (fun t => decide ((t.elaT 5).pendBlock = true ∧
      (t.elaT 5).window = some { win0 with ended := true })) ∧
    runs (.slotEccError 5) (s .run none false) (fun t => decide ((t.elaT 5).st = .blocked)) ∧
    keeps (.slotEccError 5) (s .frozen none false) := by
  decide +kernel

theorem wit_array_clears :
    let e : ElaTen := { st := .run, cnt := [(0, 5)], peak := 6 }
    let s (lc : Nat) : State := regs { base with ela := [(5, e), (4095, e)] } [(.ELA_TSEL, 4095, 0), (.ATT_LC, lc, 0)]
    runs .elaClearSel (s 0) (fun t => decide ((t.elaT 4095).cnt = [] ∧ (t.elaT 4095).peak = 0 ∧ (t.elaT 4095).st = .run ∧
      t.elaT 5 = e)) ∧
    runs .elaClearAll (s 0) (fun t => decide ((t.elaT 5).cnt = [])) ∧
    runs (.tinjWrite 65535 255) (s 0) (fun t => decide ((t.elaT 4095).injExtra = 65535 ∧ (t.elaT 4095).injCount = 255)) ∧
    runs (.tinjWrite 1 1) (s 2) (fun t => decide ((t.elaT 4095).injExtra = 0 ∧ t.flag .ELA_STAT 7 = true)) := by
  decide +kernel
/-! GOOSE -/

/-- A publication of tenant 5 with one boolean, sent every 8 to 64 cycles. -/
def pc1 : PubCfg :=
  { tenant := 5, pubno := 9, scheme := false, appid := 0, st := false, nmem := 1, da := 1, sa := 2, pcp := 4, vid := 1, valueOnly := true, sim := false, confRev := 1, mint := 8, talx := 2, auth := 0, maxt := 64, keySlot := 0, mtypes := [.b], gocbRef := [1], datSet := [2], goId := [3] }

/-- Entry 8191 publishes it; a request with value v waits. -/
def pubState (p : Pub) (gen v : Nat) : State :=
  { base with
    goose := { pubs := [(8191, { p with cfg := some pc1 })], reqs := [⟨5, gen, 9, [BitVec.ofNat 32 v], [0], 256, 1, some 7, 0, 0⟩] }
    ten := [(5, { gen := 2, cfg := some {} })], crd := { used := [(crdKey 7 5, 1)] } }

theorem wit_publication_request :
    let x : PubState := { vals := [1], quals := [0], stNum := 4294967295 }
    let s (gen v : Nat) : State := pubState { cur := some x, stNum := 4294967295 } gen v
    (s 2 0).pubOf 5 9 = some 8191 ∧
    runs .publicationRequest (s 2 0) (fun t => decide (t.goose.reqs = [] ∧ (t.pub 8191).stNum = 1 ∧
      ((t.pub 8191).cur.map (fun y => (y.vals, y.quals, y.stNum))) = some ([0], [0], 1))) ∧
    runs .publicationRequest (s 2 1) (fun t => decide ((t.pub 8191).stNum = 4294967295 ∧ Tbl.get 0 (t.pub 8191).cnt 3 = 1 ∧
      t.crd.used = [])) ∧
    runs .publicationRequest (s 1 0) (fun t => decide (t.goose.reqs = [] ∧ (t.pub 8191).stNum = 4294967295 ∧
      t.crd = (s 1 0).crd)) := by
  decide +kernel

theorem wit_publication_frames :
    let x : PubState := { vals := [1], quals := [0], stNum := 3 }
    let s (p : Pub) : State := (pubState p 2 0).setRg .ELA_GRPCNT 100 0
    let p : Pub := { cur := some x, due := some 100, interval := 40, sq := 4294967295, frameCycle := some 60 }
    (s p).cycleOf 5 = 100 ∧
    runs (.pendingRelease 8191) (s { pending := some x, stateCycle := some 0, frameCycle := some 99 }) (fun t =>
      decide ((t.pub 8191).pending = none ∧ (t.pub 8191).cur = some x ∧ (t.pub 8191).sq = 0 ∧ (t.pub 8191).interval = 8)) ∧
    runs (.retransmission 8191) (s p) (fun t => decide ((t.pub 8191).sq = 1 ∧ (t.pub 8191).interval = 64 ∧
      (t.pub 8191).due = some 164)) ∧
    (let two : State := let u := s { pending := some x, stateCycle := some 0, frameCycle := some 99 }
      { u with goose := { u.goose with pubs := (1, { pending := some x, stateCycle := some 0, cfg := some { pc1 with pubno := 1 } }) :: u.goose.pubs } }
     two.pubFirst two.pubReady 8191 = false ∧ keeps (.pendingRelease 8191) two ∧ keeps (.retransmission 8191) two) ∧
    keeps (.retransmission 8191) (s { p with due := some 101 }) := by
  decide +kernel

theorem wit_publisher_clears :
    let p : Pub := { stNum := 3, cnt := [(0, 5)] }
    let s := { base with goose := { pubs := [(8191, p), (1, p)], subs := [(16383, { stNum := 4, cnt := [(9, 6)] })] } }
    runs .gpbClearSel (s.setRg .GPB_PSEL 8191) (fun t => decide ((t.pub 8191).cnt = [] ∧ (t.pub 8191).stNum = 3 ∧ t.pub 1 = p)) ∧
    runs .gpbClearAll s (fun t => decide ((t.pub 1).cnt = [])) ∧
    runs .gsbClearSel (s.setRg .GSB_SSEL 16383) (fun t => decide ((t.sub 16383).cnt = [] ∧ (t.sub 16383).stNum = 4)) ∧
    runs .gsbClearAll s (fun t => decide ((t.sub 16383).cnt = [])) ∧
    runs (.gsbUnknownRead .supervisor) (s.setRg .GSB_UNKNOWN 7) (fun t =>
      decide ((t.port .supervisor).data = 7 ∧ t.rg .GSB_UNKNOWN = 0)) := by
  decide +kernel

/-- A subscription of tenant 5 to control block [1]; its boolean goes to point 40960. -/
def su1 : SubCfg :=
  { tenant := 5, appid := 0, sa := 2, auth := 0, simAcc := false, event := false, confRev := 1, keySlot := 0, gocbRef := [1], nds := 1, maps := [⟨40960, 0, none, 1⟩], grace := 0, tmoMax := 0 }

/-- Entry 16383 subscribes to it; a frame with the numbers given waits. -/
def subState (x : Sub) (conf stNum sq : Nat) (ref : List Byte) : State :=
  let g : GoosePdu := { appid := 0, gocbRef := ref, tal := 10, stNum := stNum, sqNum := sq, confRev := conf, entries := 1, allData := [.value .b 1] }
  let rx : RxFrame := { port := 7, frc := 1000, stamp := 0, frame := { da := 1, sa := 2, etherType := 0x88B8, len := 100, payload := .goose g } }
  { atFrc base 1000 with
    goose := { queue := [rx], subs := [(16383, { x with cfg := some su1 })] }
    ten := [(5, { cfg := some {} })], crd := { used := [(crdKey 2 7, 1)], share := [(crdKey 11 5, 1)] } }

theorem wit_goose_frame :
    let old : Sub := { st := .valid, stNum := 4, sqNum := 1, data := [.value .b 1] }
    runs .gooseFrame (subState {} 1 4 0 [9]) (fun t => decide (t.goose.queue = [] ∧ t.rg .GSB_UNKNOWN = 1 ∧ t.crd.used = [])) ∧
    runs .gooseFrame (subState {} 2 4 0 [1]) (fun t => decide ((t.sub 16383).st = .none ∧ Tbl.get 0 (t.sub 16383).cnt 9 = 1)) ∧
    runs .gooseFrame (subState {} 1 4 0 [1]) (fun t => decide ((t.sub 16383).st = .valid ∧ (t.sub 16383).stNum = 4 ∧
      (t.sub 16383).data = [.value .b 1] ∧ (t.sub 16383).expiry = some (1000 + su1.timeout 10))) ∧
    runs .gooseFrame (subState old 1 4 2 [1]) (fun t => decide ((t.sub 16383).st = .valid ∧
      Tbl.get 0 (t.sub 16383).cnt 2 = 1 ∧ t.pts = [] ∧ (t.sub 16383).expiry = some (1000 + su1.timeout 10))) := by
  decide +kernel

theorem wit_subscription_timeout :
    let s (e : Nat) : State := subState { st := .valid, stNum := 4, expiry := some e } 1 4 0 [1]
    runs (.subscriptionTimeout 16383) (s 1000) (fun t => decide ((t.sub 16383).st = .stale ∧ (t.sub 16383).expiry = none ∧
      t.flag .GSB_STAT 5 = true)) ∧
    keeps (.subscriptionTimeout 16383) (s 1001) := by
  decide +kernel
/-! Pairing and Sage -/

/-- A module with partner port 0 and usable keys 77 (PAIRKEY) and 78 (SNAPKEY), at FRC f. -/
def pairBase (f : Nat) (p : Pairing) : State :=
  regs { atFrc base f with
    par := { p with cfg := some { port := 0, pairKey := 4, snapKey := 5 } }
    kvs := { vault := .ready, attrs := [(4, some ⟨2, 8, 0xFFFF⟩), (5, some ⟨3, 16, 0xFFFF⟩)]
             slots := [(4, { st := .active, mat := 77 }), (5, { st := .active, mat := 78 })] }
    ports := [(0, { up := true })] } [(.MAC_CFG, 6, 0)]

/-- A partner frame with one message on a port, its counter and the key of its tag. -/
def pRx (port ctr key : Nat) (m : PartnerMsg) : RxFrame :=
  let f : PartnerFrame := { ctr := ctr, msgs := [m], tag := { key := key } }
  { port := port, frc := 0, stamp := 1000 * 256, frame := { da := 1, sa := 2, etherType := 0x88B5, len := 200, payload := .partner f } }

/-- That frame at the front of the queue, above the floor 4, with the rest of the pairing state. -/
def pGot (f : Nat) (m : PartnerMsg) (p : Pairing) : State := pairBase f { p with rx := [pRx 0 5 77 m], floor := some 4 }

/-- The frame was taken and restarted the silence timer. -/
def took (f : Nat) (t : State) : Bool := decide (t.par.rx = [] ∧ t.par.heard = some f)

theorem wit_partner_checks :
    let s (ctr key : Nat) : State := pairBase 9 { rx := [pRx 0 ctr key (.supmsg 0 1 [1])], floor := some 4 }
    (s 5 77).checkTag { key := 77 } 4 Use.pair none = some true ∧ (s 5 76).checkTag { key := 76 } 4 Use.pair none = some false ∧
    runs .supmsg (s 5 76) (fun t => decide (t.par.rx = [] ∧ t.par.heard = none ∧ t.rg .PAR_LCNT 2 = 1 ∧ t.flag .PAR_STAT 7 = true)) ∧
    runs .supmsg (s 4 77) (fun t => decide (t.par.rx = [] ∧ t.par.heard = none ∧ t.rg .PAR_LCNT 3 = 1)) ∧
    runs .supmsg (s 5 77) (fun t => took 9 t && decide (t.par.sup = [[1]] ∧ t.par.floor = some 5)) ∧
    runs .supmsg (pGot 9 (.supmsg 0 2 [1]) {}) (fun t => took 9 t && decide (t.par.sup = [] ∧ t.par.supPart = some (1, [1]))) ∧
    runs .supmsg (pGot 9 (.supmsg 1 2 [2]) { supPart := some (1, [1]) }) (fun t => took 9 t &&
      decide (t.par.sup = [[1, 2]] ∧ t.par.supPart = none)) := by
  decide +kernel

theorem wit_hello :
    let s (st : PairSt) (side : Nat) : State := pGot 9 (.hello side 1 0 0 0 66) { st := st }
    let group (side : Nat) : State := (s .seek side).setRg .ELA_GRPCFG 0x80000000 0
    (s .seek 1).helloOk ⟨1, 1, 0, 0, 0, 66⟩ = true ∧ (s .seek 1).allAligned = true ∧ (group 1).allAligned = false ∧
    runs .hello (s .seek 1) (fun t => took 9 t && decide (t.par.st = .paired ∧ t.flag .PAR_STAT 0 = true)) ∧
    runs .hello (group 1) (fun t => decide (t.par.st = .handshake)) ∧
    runs .hello (s .lost 0) (fun t => decide (t.par.st = .mismatch ∧ t.par.partner = some ⟨0, 1, 0, 0, 0, 66⟩)) ∧
    runs .hello (s .paired 1) (fun t => took 9 t && decide (t.par.st = .paired ∧ t.par.floor = some 5)) := by
  decide +kernel

theorem wit_heartbeat_and_beacon :
    let x : HbStamps := ⟨some (100 * 256, 500 * 256), 600 * 256⟩
    let b (st : PairSt) : State := pairBase 9 { rx := [pRx 4 5 77 (.heartbeat none 3 [] [])], st := st }
    runs .heartbeat (pGot 9 (.heartbeat (some x) 3 [] [5]) { st := .paired }) (fun t => took 9 t && decide (
      t.par.peerRun = [5] ∧ t.par.peerSt = 3 ∧ t.par.hbIn = some (600 * 256, 1000 * 256) ∧ t.rg .PAR_POFS = 0 ∧
      t.rg .PAR_PDLY = 400 * 256)) ∧
    (b .lost).onPartner (pRx 4 5 77 (.heartbeat none 3 [] [])) = false ∧
    runs .beacon (b .lost) (fun t => decide (t.par.st = .isolated ∧ t.par.beacon = some 9 ∧ t.par.heard = none)) ∧
    runs .beacon (b .isolated) (fun t => decide (t.par.st = .isolated ∧ t.par.rx = [])) := by
  decide +kernel

theorem wit_digest :
    let d : DigestRec := ⟨5, 9, 0, false, 7, 1, 0, 0, 42⟩
    let s (f cdig : Nat) : State := pGot f (.digest d) { agree := [⟨8191, 5, 9, 7, cdig, 0, 1, 100⟩] }
    let late := 100 + 20 * 1000
    runs .digest (s late 42) (fun t => took late t && decide (t.par.agree = [] ∧ Tbl.get 0 (t.parTen 5).cnt 0 = 1)) ∧
    runs .digest (s late 43) (fun t => decide (t.par.agree = [] ∧ (t.parTen 5).open_ = true ∧ t.flag .PAR_STAT 1 = true ∧
      Tbl.get 0 (t.parTen 5).cnt 1 = 1 ∧ Tbl.get 0 t.ltl.cur (almondCounter 9) = 1)) ∧
    runs .digest (pGot 9 (.digest d) {}) (fun t => took 9 t && decide (t.par.digs.map (·.rec_) = [d])) := by
  decide +kernel

theorem wit_summary_and_notice :
    let s (cy : Nat) : State := pGot 9 (.summary 5 false cy [(9, 1)] 0) { ten := [(5, { open_ := true, own := some (7, [(9, 1)]) })] }
    let h : HeldNotice := { tenant := 5, sub := 8, stNum := 3, ddig := 2, arrival := 20, cycle := 0, points := [(1, {})] }
    runs .summary (s 7) (fun t => took 9 t && decide ((t.parTen 5).open_ = false ∧ t.flag .PAR_STAT 3 = true ∧
      Tbl.get 0 (t.parTen 5).cnt 5 = 1)) ∧
    runs .summary (s 6) (fun t => decide ((t.parTen 5).open_ = true ∧ (t.parTen 5).peer = some (6, [(9, 1)]))) ∧
    runs .notice (pGot 9 (.notice 8 3 2 21) { notices := [h] }) (fun t => took 9 t &&
      decide (t.par.notices = [{ h with matched := true, cycle := 22 }])) ∧
    runs .notice (pGot 9 (.notice 8 3 2 21) {}) (fun t => decide (t.par.peerNotes = [(8, 3, 2, 21)] ∧ t.par.notices = [])) ∧
    runs .notice (pGot 9 (.notice 8 3 2 21) { lateNotes := [(8, 3, 2, 21)] }) (fun t =>
      decide (t.par.peerNotes = [] ∧ t.par.notices = [])) := by
  decide +kernel

theorem wit_seat_and_join_messages :
    let s (m : PartnerMsg) (x : PairTen) : State := { pGot 9 m { ten := [(5, x)] } with
      ten := [(5, { seq := 2, cfg := some {} })], ela := [(5, { st := .run })] }
    let r : JoinRec := ⟨5, 7, 0, 2, {}, [], []⟩
    runs .seat (s (.seat 5 3 8 2) {}) (fun t => took 9 t && decide ((t.parTen 5).seatPeer = some (3, 8))) ∧
    runs .seat (s (.seat 5 3 8 1) {}) (fun t => decide ((t.parTen 5).seqDiff = true ∧ t.inForce 5 = false ∧
      (t.parTen 5).seatPeer = none)) ∧
    runs .joinMessage (s (.joinAsk 5) {}) (fun t => took 9 t && decide ((t.parTen 5).donor = some (t.cycleOf 5 + 2))) ∧
    runs .joinMessage (s (.joinRec 0 2 r) { join := .requested }) (fun t => took 9 t && decide ((t.parTen 5).joinRecv = 1 ∧
      (t.parTen 5).joinRec = none)) ∧
    runs .joinMessage (s (.joinRec 1 2 r) { join := .running, joinRecv := 1 }) (fun t => decide ((t.parTen 5).join = .running ∧
      (t.parTen 5).joinRec = some r)) := by
  decide +kernel

theorem wit_snapshot_messages :
    let x : Snapshot := { tenant := 5, key := 78 }
    let s (k n key : Nat) : State := pGot 9 (.snapshot k n { x with key := key }) { ten := [(5, { recv := 1 })] }
    (s 0 2 78).usableKey 5 Use.snapshot none = some 78 ∧
    runs .snapshot (s 0 2 78) (fun t => took 9 t && decide ((t.parTen 5).recv = 1 ∧ (t.parTen 5).kept = none)) ∧
    runs .snapshot (s 1 2 78) (fun t => decide ((t.parTen 5).kept = some (x, 9))) ∧
    runs .snapshot (s 1 2 77) (fun t => decide ((t.parTen 5).kept = none ∧ t.flag .PAR_STAT 6 = true)) := by
  decide +kernel

theorem wit_health_and_capfire :
    let g : CapCfg := { unit := 15, group := 15, peer := true }
    let s : State := { pGot 9 (.capfire 15 1000) { st := .paired } with dcr := [(15, { cfg := some g, st := .armed, slot := some 0 })] }
    runs .health (pGot 9 (.health [1, 2]) {}) (fun t => took 9 t && decide (t.sge.prep = [1, 2] ∧ t.sge.peerAt = some 9 ∧
      t.flag .SGE_STAT 7 = true)) ∧
    ((s.cap 15).fireAt g 1000 15 true).remaining ≠ 0 ∧
    runs .capfire s (fun t => took 9 t && decide ((t.cap 15).st = .recording ∧ (t.cap 15).cur.fireStamp = 1000 ∧
      (t.cap 15).cur.partner = true)) := by
  decide +kernel

theorem wit_partner_sends :
    let s (f : Nat) (p : Pairing) : State := pairBase f p
    let sent (t : State) : Bool := decide (t.par.txCtr = 1 ∧ t.rg .PAR_LCNT 0 = 1 ∧
      (Tbl.get none t.sw.frames 0).map (fun g => (g.outs, g.cls, g.frame.etherType)) = some ([0], 6, 0x88B5))
    let info : HelloInfo := ⟨1, 1, 0, 0, 0, 66⟩
    runs .helloSend (s 10000000 { helloAt := some 0 }) (fun t => sent t && decide (t.par.helloAt = some 10000000)) ∧
    runs (.supervisorFrameSend { da := 0, sa := 2, etherType := 0x88B5, len := 64, payload := .other [1, 2] } false) (s 0 {}) (fun t =>
      decide (t.par.txCtr = 1 ∧ (Tbl.get none t.sw.frames 0).map (fun g => (g.outs, g.cls)) = some ([0], 1))) ∧
    keeps .helloSend (s 9999999 { helloAt := some 0 }) ∧ keeps .helloSend (s 10000000 { st := .paired }) ∧
    runs .heartbeatSend (s 100000 { hbAt := some 0 }) (fun t => sent t && decide (t.par.hbAt = some 100000)) ∧
    keeps .heartbeatSend (s 99999 { hbAt := some 0 }) ∧ keeps .beaconSend (s 0 {}) ∧
    runs .beaconSend ((s 1000000 { beaconAt := some 0, partner := some info }).setRg .PAR_BADDR (2 ^ 63)) (fun t =>
      decide (t.par.beaconAt = some 1000000 ∧ t.par.txCtr = 1)) := by
  decide +kernel

theorem wit_partner_silence :
    let s (f : Nat) (p : Pairing) : State := pairBase f p
    runs .silenceDetect (s (20 * ms) { st := .paired, heard := some 0, beacon := some 1 }) (fun t => decide (t.par.st = .isolated)) ∧
    runs .silenceDetect (s (20 * ms) { st := .paired, heard := some 0, beacon := some 0 }) (fun t => decide (t.par.st = .lost)) ∧
    keeps .silenceDetect (s (20 * ms - 1) { st := .paired, heard := some 0 }) ∧
    runs .beaconSilenceDetect (s (20 * ms) { st := .isolated, beacon := some 0 }) (fun t => decide (t.par.st = .lost ∧
      Tbl.get 0 t.ltl.cur (almondCounter 10) = 1)) ∧
    runs .handshakeTimeout (s sec { st := .handshake }) (fun t => decide (t.par.st = .seek ∧ t.rg .PAR_LCNT 5 = 1)) ∧
    keeps .handshakeTimeout (s (sec - 1) { st := .handshake }) := by
  decide +kernel

theorem wit_agreement_expiry :
    let a : Agree := ⟨8191, 5, 9, 7, 42, 0, 1, 100⟩
    let h : HeldDigest := ⟨⟨5, 9, 0, false, 7, 1, 0, 0, 42⟩, 50⟩
    runs (.agreementWindowExpiry 5 9) (pairBase 20100 { agree := [a] }) (fun t => decide (t.par.agree = [] ∧
      (t.parTen 5).open_ = true ∧ t.flag .PAR_STAT 10 = true ∧ Tbl.get 0 (t.parTen 5).cnt 2 = 1)) ∧
    keeps (.agreementWindowExpiry 5 9) (pairBase 20099 { agree := [a] }) ∧
    runs (.digestHoldExpiry 0) (pairBase 50 { digs := [h] }) (fun t => decide (t.par.digs = [] ∧ (t.parTen 5).open_ = true ∧
      Tbl.get 0 (t.parTen 5).cnt 3 = 1)) ∧
    keeps (.digestHoldExpiry 0) (pairBase 49 { digs := [h] }) := by
  decide +kernel

theorem wit_held_delivery :
    let h : HeldNotice := { tenant := 5, sub := 16383, stNum := 4, ddig := 2, arrival := 20, cycle := 30, points := [(40960, { value := 1, type := 1 })] }
    let s (n : Nat) : State := { subState {} 1 4 0 [1] with
      par := { cfg := some { port := 0 }, notices := [h] }, ten := [(5, { cfg := some { slot := 1 } })] }.setRg .ELA_GRPCNT n 0
    (s 30).tenCfg 5 = some { slot := 1 } ∧ (s 30).cycleOf 5 = 30 ∧ 0 < (s 30).avail 11 5 ∧
    runs (.noticeDeliveryApply 5) (s 30) (fun t => decide (t.par.notices = [] ∧ Tbl.get 0 (t.parTen 5).cnt 10 = 1 ∧
      t.point 40960 = { value := 1, type := 1 })) ∧
    runs (.noticeDeliveryApply 5) (s 29) (fun t => decide (t.par.notices = [h] ∧ t.pts = [])) := by
  decide +kernel

theorem wit_seating :
    let s (f cycle : Nat) (x : PairTen) : State := regs { pairBase f { ten := [(5, x)] } with
      ela := [(5, { st := .seat })], ten := [(5, { cfg := some {} })] } [(.ELA_GRPCNT, cycle, 0)]
    let x : PairTen := { seatOwn := some (1, 7), seatPeer := some (2, 9) }
    runs (.seatActivation 5) (s 0 9 x) (fun t => decide ((t.elaT 5).seatTo = some 1 ∧ (t.parTen 5).seatOwn = none ∧
      Tbl.get 0 (t.parTen 5).cnt 9 = 1)) ∧
    runs (.seatActivation 5) ((s 0 9 x).setRg .PAR_CFG 1) (fun t => decide ((t.elaT 5).seatTo = some 2)) ∧
    runs (.joinwaitExpiry 5) (s (10 * ms) 0 { x with seatPeer := none }) (fun t => decide ((t.parTen 5).alone = true ∧
      (t.parTen 5).seatOwn = none)) := by
  decide +kernel

theorem wit_pair_commands :
    let s (classC : Bool) (st : PairSt) (x : PairTen) : State := regs { pairBase 9 { st := st, ten := [(5, x)] } with
      ela := [(5, { st := .run })], ten := [(5, { cfg := some { classC := classC } })], crd := { share := [(crdKey 15 5, 1)] } }
      [(.PAR_TSEL, 5, 0)]
    let k : Snapshot := { tenant := 5 }
    runs .silence (s false .seek {}) (fun t => decide ((t.parTen 5).silenced = true)) ∧
    runs .unsilence (s false .seek { silenced := true }) (fun t => decide ((t.parTen 5).silenced = false)) ∧
    keeps .silence (s true .seek {}) ∧ keeps .join (s true .paired {}) ∧
    runs .join (s false .paired { seatOwn := some (1, 2) }) (fun t => decide ((t.parTen 5).join = .requested ∧
      (t.parTen 5).seatOwn = none)) ∧
    runs .ship (s true .paired { cst := 1 }) (fun t => decide ((t.parTen 5).snapAt = 9 ∧ t.crd.used = [(crdKey 15 5, 1)])) ∧
    runs .ship { s true .paired { cst := 1 } with crd := {} } (fun t => decide ((t.parTen 5).ship = none ∧
      t.flag .PAR_STAT 6 = true ∧ t.crd.drops = [(crdKey 15 5, 1)])) ∧
    runs .ship (s true .paired { cst := 1, ship := some (k, 0, 1) }) (fun t => decide (t.flag .PAR_STAT 6 = true)) ∧
    runs .takeover (s true .seek { cst := 2, kept := some (k, 0) }) (fun t => decide ((t.parTen 5).cst = 1)) ∧
    runs .takeover (s true .seek { cst := 2, kept := some ({ k with sch := 3 }, 0) }) (fun t => decide ((t.parTen 5).cst = 2 ∧
      t.flag .SCH_STAT 7 = true)) ∧
    runs .pairRelease (s true .seek { cst := 1 }) (fun t => decide ((t.parTen 5).cst = 2 ∧ (t.elaT 5).st = .out)) := by
  decide +kernel

theorem wit_snapshot_take :
    let s (f : Nat) : State := { pairBase f { st := .paired, ten := [(5, { cst := 1 })] } with
      ten := [(5, { cfg := some { classC := true } })], crd := { share := [(crdKey 15 5, 1)] } }
    (s (10 * ms)).shipping 5 = true ∧ ((s 0).schT 5).atBoundary = true ∧ keeps (.snapshotTake 5) (s (10 * ms - 1)) ∧
    runs (.snapshotTake 5) (s (10 * ms)) (fun t => decide ((t.parTen 5).snapAt = 10 * ms ∧ t.crd.used = [(crdKey 15 5, 1)])) := by
  decide +kernel

theorem wit_joins :
    let s (cycle : Nat) (x : PairTen) : State := regs { pairBase 9 { st := .paired, aligned := 1, ten := [(5, x)] } with
      ela := [(5, { st := .run, cnt := [(0, 3)] })], ten := [(5, { seq := 2, cfg := some {} })], crd := { share := [(crdKey 15 5, 1)] } }
      [(.ELA_GRPCNT, cycle, 0)]
    let r : JoinRec := ⟨5, 7, 0, 2, { st := .run, cnt := [(0, 9)] }, [], []⟩
    (s 7 {}).pairAligned 5 = true ∧ keeps (.joinCapture 5) (s 6 { donor := some 7 }) ∧
    runs (.joinCapture 5) (s 8 { donor := some 7 }) (fun t => decide ((t.parTen 5).donor = none ∧ t.crd.used = [(crdKey 15 5, 1)])) ∧
    runs (.joinApply 5) (s 7 { join := .running, joinRec := some r, silenced := true }) (fun t => decide (
      (t.elaT 5).st = .run ∧ (t.elaT 5).cnt = [(0, 3)] ∧ (t.elaT 5).cursor = 7 ∧ (t.parTen 5).join = .none ∧ (t.parTen 5).silenced = false ∧
      t.flag .PAR_STAT 4 = true ∧ Tbl.get 0 (t.parTen 5).cnt 7 = 1)) ∧
    keeps (.joinApply 5) (s 7 { join := .requested, askedAt := 5 }) ∧
    runs (.joinApply 5) (s 7 { join := .running, joinRec := some { r with seq := 3 } }) (fun t =>
      decide ((t.parTen 5).join = .failed)) ∧
    runs (.joinApply 5) { s 7 { join := .requested, askedAt := 4 } with groups := [(0, { start := some ⟨0, 0⟩ })] } (fun t => decide ((t.parTen 5).join = .failed ∧ t.flag .PAR_STAT 5 = true ∧
      Tbl.get 0 (t.parTen 5).cnt 8 = 1)) := by
  decide +kernel

theorem wit_pair_clears :
    let s := regs (pairBase 0 { ten := [(5, { cnt := [(1, 2)] }), (6, { cnt := [(1, 2)] })] }) [(.PAR_LCNT, 3, 5), (.PAR_TSEL, 5, 0)]
    runs .parClearLink s (fun t => decide (t.rg .PAR_LCNT 5 = 0 ∧ t.par = s.par)) ∧
    runs .parClearAll s (fun t => decide ((t.parTen 6).cnt = [])) ∧
    runs .parClearSel s (fun t => decide ((t.parTen 5).cnt = [] ∧ (t.parTen 6).cnt = [(1, 2)])) := by
  decide +kernel

theorem wit_sage_tests :
    let s := regs (atFrc base 9) [(.SGE_CTL, 15, 0), (.ELA_TILECFG, 0x80000000, 63)]
    s.bistable 63 = true ∧
    runs (.tileBist 63 true) s (fun t => decide (t.flag .SGE_TILEFAIL 31 1 = true ∧ t.flag .SGE_STAT 0 = true ∧
      Tbl.get none t.sge.tested 63 = some 9 ∧ Tbl.get 0 t.ltl.cur (almondCounter 21) = 1)) ∧
    runs (.sramScrub 4 true none) s (fun t => decide (t.sge.sramCorr = 4 ∧ t.flag .SGE_STAT 1 = true)) ∧
    runs (.dramScrub 5 none) s (fun t => decide (t.sge.dramCorr = 5 ∧ t.rf = s.rf)) ∧
    runs (.dramScrub 5 (some .other)) s (fun t => decide (t.flag .SGE_STAT 2 = true)) ∧
    runs (.sramScrub 0 true (some (.part 6))) { s with sch := { ten := [(6, { st := .run })] } } (fun t =>
      decide ((t.schT 6).st = .stop ∧ (t.schT 6).cause = 3 ∧ t.flag .SCH_STAT 3 = true)) ∧
    runs (.dramScrub 0 (some (.data 6))) { s with sch := { ten := [(6, { st := .run })] } } (fun t =>
      decide ((t.schT 6).st = .stop ∧ (t.schT 6).cause = 3)) ∧
    runs (.sramScrub 0 true (some (.slot 6))) { s with ela := [(6, { st := .run })] } (fun t => decide ((t.elaT 6).st = .blocked)) ∧
    runs (.portLoopback 7 true) s (fun t => decide (t.flag .SGE_STAT 3 = true)) ∧ keeps (.portLoopback 7 false) s := by
  decide +kernel

theorem wit_sage_checks :
    let s := regs base [(.SGE_CTL, 15, 0)]
    runs (.regulatorCheck 63 false) s (fun t => decide (t.flag .SGE_STAT 4 = true ∧ t.flag .PWR_STAT 1 = true ∧
      t.sge.regFault = railDomains 63)) ∧
    runs (.regulatorCheck 0 true) s (fun t => decide (t.flag .PWR_STAT 3 = true ∧ t.pwr.serdesLow = true ∧ (t.prt 7).up = false)) ∧
    runs (.regulatorCheck 0 false) s (fun t => decide (t.sge.regFault = 0 ∧ t.flag .SGE_STAT 4 = false)) ∧
    runs (.temperatureCheck 1051) s (fun t => decide (t.flag .SGE_STAT 5 = true ∧ t.pwr.hot = true)) ∧
    runs (.temperatureCheck 1050) s (fun t => decide (t.flag .SGE_STAT 5 = false ∧ t.sge.temp = 1050)) := by
  decide +kernel

theorem wit_health_report :
    let s (f : Nat) : State := { atFrc base f with sge := { seq := 2 ^ 32 - 1, sramCorr := 3, peerAt := some 0 } }
    runs .healthReport (s 100000000) (fun t => decide (t.sge.seq = 0 ∧ t.sge.lrep.length = 16 ∧ t.sge.sramCorr = 0 ∧
      t.sge.beacon = true ∧ t.flag .SGE_STAT 6 = true)) ∧
    keeps .healthReport (s 99999999) ∧
    runs .partnerReportLost (s 300000000) (fun t => decide (t.flag .SGE_STAT 8 = true ∧ t.sge.peerLost = true)) ∧
    keeps .partnerReportLost (s 299999999) := by
  decide +kernel
/-! The scheme runtime -/

/-- A program with one cyclic task every 10 ticks and one event task, two variables (the first retained) and a point. -/
def sp1 : SchProg :=
  { digest := 1, cyc := [{ period := 10, phase := 3, prio := 0, inp := [40960] }], evt := [{ name := 1, prio := 0, wdog := 4, pts := [40960] }]
    vars := [{ name := 1, type := 2, retained := true, init := 5 }, { name := 2, type := 2, init := 6 }], points := [(40960, 1)] }

/-- Tenant 5 runs it alone on core 15; the last tick is number n. -/
def schState (c : SchTen) (n : Nat) : State :=
  regs { atFrc base 300000 with
    sch := { ten := [(5, { c with prog := some sp1, core := 15 })] }, ten := [(5, { gen := 2, cfg := some {} })]
    pts := [(40960, { value := 1, quality := 0, type := 1 })], crd := { share := [(crdKey 9 5, 1)] } }
    [(.SCH_TICK, n, 0), (.SCH_TSEL, 5, 0)]

/-- The same with a start edge of the runtime at its present instant. -/
def withTick (s : State) : State := { s with edges := [(4, [⟨s.frc * 256, s.frc⟩])] }

theorem wit_runtime_tick :
    let s : State := schState {} (2 ^ 64 - 1)
    let own : State := { withTick s with sch := { s.sch with free := true, last := some 298000 } }
    runs .runtimeTick (withTick s) (fun t => decide (t.rg .SCH_TICK = 0 ∧ t.sch.last = some 300000 ∧ t.edges = [])) ∧
    runs .runtimeTick own (fun t => decide (t.rg .SCH_TICK = 2 ^ 64 - 1 ∧ t.sch.free = false ∧ t.edges = [])) ∧
    runs .freewheelTick { s with sch := { s.sch with last := some 48000 } } (fun t => decide (t.rg .SCH_TICK = 0 ∧
      t.rg .SCH_TICKEV = 1 ∧ t.flag .SCH_STAT 6 = true ∧ t.sch.free = true)) ∧
    keeps .freewheelTick { s with sch := { s.sch with last := some 48001 } } := by
  decide +kernel

theorem wit_cyclic_activation :
    let a : Activation := { tick := 3, order := 0, startTick := some 3 }
    let s (x : TaskSt) : State := withTick (schState { st := .run, tasks := [(0, x)] } 12)
    (s {}).domOn 10 = true ∧
    runs .runtimeTick (s {}) (fun t => decide (((t.schT 5).task 0).cur.map (fun y => (y.tick, y.startTick, y.image.map (·.1))) =
      some (13, some 13, [40960]) ∧ Tbl.get 0 (t.schT 5).cnt 0 = 1)) ∧
    runs .runtimeTick (s { cur := some a, missrun := 1 }) (fun t => decide (Tbl.get 0 (t.schT 5).cnt 1 = 1 ∧
      (t.schT 5).st = .run ∧ ((t.schT 5).task 0).missrun = 2 ∧ t.flag .SCH_STAT 0 = true)) ∧
    runs .runtimeTick (s { cur := some a, missrun := 2 }) (fun t => decide ((t.schT 5).st = .stop ∧ (t.schT 5).cause = 1 ∧
      t.flag .SCH_STAT 3 = true ∧ ((t.schT 5).task 0).cur = none)) := by
  decide +kernel

theorem wit_event_activation :
    let q (n : Nat) : List Activation := List.replicate n { tick := 0, order := 0 }
    let s (n : Nat) : State := { schState { st := .run, tasks := [(8, { queue := q n })] } 12 with evts := [(5, ⟨0, 40960, 9⟩)] }
    (EvtTask.bound { name := 1, prio := 0, wdog := 4, pts := [40960] } ⟨0, 40960, 9⟩) = true ∧
    runs .eventActivation (s 3) (fun t => decide (Tbl.get 0 (t.schT 5).cnt 0 = 1 ∧ t.evts = [])) ∧
    runs .eventActivation (s 4) (fun t => decide (Tbl.get 0 (t.schT 5).cnt 3 = 1 ∧ t.flag .SCH_STAT 1 = true ∧ t.evts = [])) := by
  decide +kernel

theorem wit_activation_end :
    let a : Activation := { tick := 3, order := 0, startTick := some 3 }
    let s (used : Nat) : State :=
      let u := schState { st := .run, tasks := [(0, { cur := some a })] } 12
      { u with crd := { u.crd with used := [(crdKey 9 5, used)] } }
    let i : Instr := .activationEnd 5 0 { acts := [.point 40960 7 0 1], vals := [(1, 9)] }
    (s 0).avail 9 5 = 1 ∧ (s 1).avail 9 5 = 0 ∧
    runs i (s 0) (fun t => decide (Tbl.get 0 (t.schT 5).vals 1 = 9 ∧ ((t.schT 5).task 0).cur = none ∧
      t.pntQ.map (fun r => (r.handle, r.point.value, r.gen)) = [(40960, 7, 2)] ∧ t.avail 9 5 = 0)) ∧
    runs i (s 1) (fun t => decide (t.pntQ = [] ∧ ((t.schT 5).task 0).cur.bind (·.waitFrom) = some 300000)) := by
  decide +kernel

theorem wit_task_abort :
    let a : Activation := { tick := 3, order := 0, startTick := some 8 }
    let s (n aborts : Nat) : State := schState { st := .run, tasks := [(8, { cur := some a, aborts := aborts })] } n
    keeps (.wdogAbort 5 8) (s 11 0) ∧
    runs (.wdogAbort 5 8) (s 12 1) (fun t => decide (Tbl.get 0 (t.schT 5).cnt 2 = 1 ∧ (t.schT 5).st = .run ∧
      ((t.schT 5).task 8).aborts = 2 ∧ t.flag .SCH_STAT 2 = true)) ∧
    runs (.wdogAbort 5 8) (s 12 2) (fun t => decide ((t.schT 5).st = .stop ∧ (t.schT 5).cause = 2)) := by
  decide +kernel

theorem wit_program_commands :
    let f : Force := ⟨40960, 1, 1⟩
    let s (st : SchSt) (noWarm : Bool) : State :=
      schState { st := st, noWarm := noWarm, forces := [f], keepB := [(0, 77)], curB := true, vals := [(1, 8)] } 12
    runs .startWarm (s .stop false) (fun t => decide ((t.schT 5).st = .run ∧ (t.schT 5).forces = [f] ∧
      Tbl.get 0 (t.schT 5).vals 0 = 77 ∧ Tbl.get 0 (t.schT 5).vals 1 = 6)) ∧
    runs .startCold (s .stop true) (fun t => decide ((t.schT 5).st = .run ∧ (t.schT 5).forces = [] ∧
      Tbl.get 0 (t.schT 5).vals 0 = 5 ∧ Tbl.get 0 (t.schT 5).vals 1 = 6)) ∧
    runs .startWarm (s .stop true) (fun t => decide ((t.schT 5).st = .stop ∧ t.flag .SCH_STAT 7 = true)) ∧
    runs .startCold (s .run false) (fun t => decide (t.flag .SCH_STAT 7 = true)) ∧
    runs .schStop (s .run false) (fun t => decide ((t.schT 5).st = .stop ∧ (t.schT 5).cause = 0 ∧ t.flag .SCH_STAT 3 = true ∧
      Tbl.get 0 (t.schT 5).cnt 4 = 1)) ∧
    runs .schStop (s .stop false) (fun t => decide (t.flag .SCH_STAT 7 = true ∧ t.flag .SCH_STAT 3 = false)) := by
  decide +kernel

/-- A change package from sp1 to p. -/
def pkg (p : SchProg) (base : Digest) (ok : Bool) : ChgPkg :=
  { sig := { root := some 7, ok := ok }, base := base, prog := p, progSig := { root := some 7, ok := true, msg := p.digest }, progTenant := 5 }

/-- The state of tenant 5 with an online change. -/
def chgState (c : SchTen) (g : ChgPkg) (st : ChgSt) : State :=
  { schState { c with chg := { st := st, pkg := some g } } 40 with att := { ownerRoot := some 7 } }.setRg .ATT_LC 1

theorem wit_change_stage :
    let p : SchProg := { sp1 with digest := 2 }
    let s (st : SchSt) (g : ChgPkg) (c : ChgSt) : State := chgState { st := st } g c
    let ends (g : ChgPkg) (st : ChgSt) (r : Nat) : Bool := runs (.changeStaged 5) (s .run g .verifying) fun t =>
      decide ((t.schT 5).chg.st = st ∧ (t.schT 5).chg.result = r)
    runs (.chgStage (some (pkg p 1 true))) (s .run (pkg p 1 true) .failed) (fun t => decide ((t.schT 5).chg.st = .verifying ∧
      (t.schT 5).chg.pkg = some (pkg p 1 true))) ∧
    ends (pkg p 1 false) .failed 0x20 ∧ ends (pkg p 9 true) .failed 0x21 ∧ ends (pkg { p with retained := 8193 } 1 true) .failed 0x22 ∧
    ends (pkg { p with pubs := [1] } 1 true) .failed 0x22 ∧
    ends { pkg p 1 true with wait := 39 } .failed 0x22 ∧ ends { pkg p 1 true with progTenant := 6 } .failed 0x20 ∧ ends (pkg p 1 true) .staged 0 := by
  decide +kernel

theorem wit_change_memory :
    let big : SchProg := { sp1 with data := 2 ^ 20 }
    let s (n : Nat) : State :=
      let u := chgState { st := .run } (pkg { big with digest := 2, data := n } 1 true) .verifying
      { u with sch := { ten := [(5, { u.schT 5 with prog := some { big with data := 2 ^ 20 + 1 } })] } }
    runs (.changeStaged 5) (s (2 ^ 20)) (fun t => decide ((t.schT 5).chg.result = 0x23)) ∧
    runs (.changeStaged 5) (s (2 ^ 20 - 1)) (fun t => decide ((t.schT 5).chg.st = .staged)) := by
  decide +kernel

theorem wit_change_commit :
    let s (st : SchSt) : State := chgState { st := st } (pkg sp1 1 true) .staged
    runs .chgCommit (s .run) (fun t => decide ((t.schT 5).chg.st = .waiting ∧ (t.schT 5).chg.from_ = 40)) ∧
    runs .chgCommit (s .idle) (fun t => decide ((t.schT 5).chg.st = .staged ∧ (t.schT 5).chg.result = 0x25 ∧
      t.flag .SCH_STAT 7 = true)) ∧
    runs .chgCommit (let u := chgState { st := .run } { pkg sp1 1 true with size := 2 ^ 40 } .staged; u) (fun t =>
      decide ((t.schT 5).chg.st = .staged ∧ t.flag .SCH_STAT 7 = true)) ∧
    runs .chgDiscard (s .run) (fun t => decide ((t.schT 5).chg = {})) := by
  decide +kernel

theorem wit_change_switch :
    let p : SchProg := { sp1 with digest := 2, vars := [{ name := 3, type := 2, init := 4 }, { name := 2, type := 2, init := 6 }] }
    let s (f : Nat) : State := chgState { st := .run, vals := [(0, 77), (1, 8)], forces := [⟨40960, f, 1⟩] } (pkg p 1 true) .waiting
    runs (.changeSwitch 5) (withTick ((s 1).setRg .SCH_TICK 39)) (fun t => decide ((t.schT 5).prog = some p ∧ (t.schT 5).chg.st = .done ∧
      (t.schT 5).forces = [⟨40960, 1, 1⟩] ∧ Tbl.get 0 (t.schT 5).vals 0 = 4 ∧ Tbl.get 0 (t.schT 5).vals 1 = 8 ∧
      t.flag .SCH_STAT 4 = true)) ∧
    runs (.changeSwitch 5) (withTick ((s 2).setRg .SCH_TICK 39)) (fun t => decide ((t.schT 5).forces = [])) ∧
    keeps (.changeSwitch 5) ((s 1).setRg .SCH_TICK 39) ∧ keeps (.changeSwitch 5) (withTick (s 1)) ∧
    runs (.changeTimeout 5) (s 1) (fun t => decide ((t.schT 5).prog = some sp1 ∧ (t.schT 5).chg.st = .failed ∧
      (t.schT 5).chg.result = 0x24 ∧ t.flag .SCH_STAT 5 = true)) ∧
    keeps (.changeTimeout 5) ((s 1).setRg .SCH_TICK 39) := by
  decide +kernel

theorem wit_scheme_clears :
    let s : State := (schState { cnt := [(0, 4)], tasks := [(8, { last := 5, peak := 6 })] } 0).setRg .SCH_TICKEV 3
    runs .schClearSel s (fun t => decide ((t.schT 5).cnt = [] ∧ ((t.schT 5).task 8).peak = 0 ∧ ((t.schT 5).task 8).last = 5)) ∧
    runs .schClearAll s (fun t => decide ((t.schT 5).cnt = [] ∧ ((t.schT 5).task 8).peak = 0)) ∧
    runs (.schTickevRead .supervisor) s (fun t => decide ((t.port .supervisor).data = 3 ∧ t.rg .SCH_TICKEV = 0)) := by
  decide +kernel
/-! The loop engine -/

/-- Loop 63 alone, its coefficients OMIN −100, OMAX 100, SPFIX 10, slew 100 and gain 2; feedback from input 15, whose value
is 4; a start edge at FRC 9 s. -/
def loopState (l : Loop) : State :=
  let s := regs { atFrc base (9 * sec) with
    edges := [(3, [⟨9 * sec * 256, 9 * sec⟩])], lop := { order := [63], loops := [(63, l)] }, adc := { count := [(15, 1)] } }
    [(.LOP_CFG, 0x10000, 0), (.LOP_FBSRC, 2 ^ 31 + 15, 63), (.LOP_OUTH, 40960, 63), (.ADC_RES, 4, 15)]
  [(3, 0xC2C80000), (4, 0x42C80000), (7, 0x42C80000), (8, 0x41200000), (13, 0x3F800000)].foldl
    (fun (s : State) e => s.setRg .LOP_COEF e.2 63 e.1) (s.setRg .LOP_GAIN 0x40000000 0 0)

theorem wit_loop_pass_edges :
    let s (f : LoopEngine → LoopEngine) : State := let u := loopState {}; { u with lop := f u.lop }
    let free := fun (x : LoopEngine) => { x with last := some (9 * sec - 252000) }
    (s id).domOn 11 = true ∧ (s id).lop.last = none ∧
    runs .loopPass (s fun x => { x with last := some 5, busyTo := 9 * sec + 1 }) (fun t => decide (t.fld .LOP_EV 15 8 = 1 ∧
      t.flag .LOP_STAT 3 = true)) ∧
    runs .loopPass (s fun x => { x with last := some (9 * sec - 124999) }) (fun t => decide (t.fld .LOP_EV 7 0 = 1 ∧
      t.flag .LOP_STAT 4 = true)) ∧
    { s free with edges := [] }.frc = 9 * sec ∧ sec ≤ (252000 - 2000) * rateHz ((s id).fld .LOP_CFG 1 0) := by
  decide +kernel

theorem wit_loop_run_law :
    let l : Loop := { st := .run }
    let s := loopState l
    s.loop 63 = l ∧ s.lop.order = [63] ∧ s.fld .LOP_CFG 22 16 = 1 ∧ s.rg .LOP_SPSRC 63 = 0 ∧ s.rg .LOP_FFSRC 63 = 0 ∧
    badHandle (s.rg .LOP_OUTH 63) = false ∧ s.rg .LOP_FBSRC 63 = 2 ^ 31 + 15 ∧ s.fld .LOP_DET 23 16 63 = 0 ∧
    fIsZero (s.coef 63 Coef.plim).w = true ∧ Tbl.get 0 s.adc.count 15 ≠ Tbl.get 0 s.lop.seen 15 ∧ s.flag .ADC_RES 29 15 = false ∧
    (s.loopLaw 63 { l with sp := 0x41200000, fb := { val := 0x40800000 } }).out = some 0x41400000 ∧
    (s.loopLaw 63 { l with entering := true, out := some 0x40400000 }).out = some 0x40400000 := by
  decide +kernel

theorem wit_loop_faults_and_ramp :
    let lost (st : LoopSt) : State := let u := loopState { st := st, fb := { miss := 3 } }; { u with lop := { u.lop with seen := [(15, 1)] } }
    let r : State := loopState { st := .ramp, outH := 0x41200000 }
    Tbl.get 0 (lost .run).adc.count 15 = Tbl.get 0 (lost .run).lop.seen 15 ∧ (lost .run).lossN 63 = 4 ∧
    ((lost .hold).loop 63).st = .hold ∧ fLt (r.coef 63 Coef.safe).w 0x41200000 = true ∧
    (fvMax (fvSub (fv 0x41200000) (fvMul (fInt (0 + 1 : Nat)) (r.coef 63 Coef.ramp))) (r.coef 63 Coef.safe)).w = 0x41100000 ∧
    ((loopState { st := .safe }).loop 63).st = .safe := by
  decide +kernel

/-- The same with its pass in progress, whose latch and first turn come now. -/
def turnState (l : Loop) : State :=
  let s := loopState l
  { s with lop := { s.lop with pass := some { stamp := 1000 * 256, from_ := 9 * sec - 500, rest := [63] } } }

theorem wit_loop_turn :
    let t (l : Loop) : State := (fresh (turnState l)).passTick
    let writes (l : Loop) (v q : Nat) : Bool := decide ((t l).lop.pass = none ∧
      (t l).pntQ.map (fun r => (r.tenant, r.handle, r.bnd, r.point.value, r.point.quality, r.point.time)) =
        [(noOwner, 40960, Bnd.loopPort, v, q, 1000)])
    writes { st := .run, sp := 0x41200000 } 0x41400000 0 ∧ writes { st := .safe } 0 131 ∧
    writes { st := .ramp, outH := 0x41200000 } 0x41100000 131 ∧
    (atFrc (turnState {}) (9 * sec - 1)).passTick = atFrc (turnState {}) (9 * sec - 1) := by
  decide +kernel

theorem wit_loop_commands :
    let s (st : LoopSt) : State := loopState { st := st }
    let waits (i : Instr) (st : LoopSt) (c : Nat) : Bool := runs i (s st) fun t => decide ((t.loop 63).cmd = some c ∧ (t.loop 63).st = st)
    let refused (i : Instr) (st : LoopSt) : Bool := runs i (s st) fun t => decide ((t.loop 63).cmd = none ∧ t.flag .LOP_STAT 6 = true)
    waits (.loopRun 63) .off 1 ∧ waits (.loopRun 63) .safe 1 ∧ refused (.loopRun 63) .run ∧ waits (.loopHold 63) .run 2 ∧
    refused (.loopHold 63) .fhold ∧ waits (.loopSafe 63) .fhold 3 ∧ refused (.loopSafe 63) .safe ∧ waits (.loopOff 63) .ramp 4 ∧
    refused (.loopOff 63) .off := by
  decide +kernel

theorem wit_loop_words :
    let s := loopState {}
    coefOk (fun i => s.rg .LOP_COEF 63 i) 3 0x42C80000 = false ∧ coefOk (fun i => s.rg .LOP_COEF 63 i) 12 0x42C80000 = true ∧
    runs (.coefWrite 63 12 0x42C80000) s (fun t => decide (t.rg .LOP_COEF 63 12 = 0x42C80000)) ∧
    runs (.coefWrite 63 12 0x42C80001) s (fun t => decide (t.rg .LOP_COEF 63 12 = s.rg .LOP_COEF 63 12 ∧ t.flag .LOP_STAT 7 = true)) ∧
    runs (.gainWrite 63 255 0x3F800000) s (fun t => decide (t.rg .LOP_GAIN 63 255 = 0x3F800000)) ∧
    runs (.gainWrite 63 255 0x7F800000) s (fun t => decide (t.flag .LOP_STAT 7 = true)) := by
  decide +kernel

theorem wit_loop_inputs :
    let s := regs (loopState {}) [(.LOP_EV, 5, 0), (.LOP_FCNT, 7, 63)]
    runs (.pulseInEdge ⟨3, 100, 100⟩) s (fun t => decide (t.rg .LOP_PSTAT = 7 ∧ (Tbl.get {} t.lop.pulses 3).edges = 1)) ∧
    keeps (.pulseInEdge ⟨3, 100, 99⟩) s ∧
    runs (.lopEvRead .supervisor) s (fun t => decide ((t.port .supervisor).data = 5 ∧ t.rg .LOP_EV = 0)) ∧
    runs (.lopFcntRead .supervisor 63) s (fun t => decide ((t.port .supervisor).data = 7 ∧ t.rg .LOP_FCNT 63 = 0)) := by
  decide +kernel
/-! Local converters -/

/-- Converter 1 works, inputs 6 and 7 in its scan, injection of inputs 5 and 3; the reference was enabled at FRC 0. -/
def adcState (f : Nat) (c : Adc) : State :=
  regs { atFrc base f with adc := { conv := [(1, c)], refFrom := some 0 } }
    [(.ADC_CFG, 0x80C00000, 1), (.ADC_INJ, 0x10035, 1)]

theorem wit_adc_scan :
    let s (c : Adc) : State := adcState 9 c
    (s {}).convOn 1 = true ∧ (s {}).scanList 1 = [6, 7] ∧
    runs (.adcScan 1) (s {}) (fun t => decide ((t.conv 1).act = .scan ∧ (t.conv 1).cur = 6 ∧ (t.conv 1).scan = [7])) ∧
    runs (.adcScan 1) (s { act := .scan }) (fun t => decide (t.fld .ADC_EV 15 8 1 = 1 ∧ t.flag .ADC_KSTAT 5 1 = true)) ∧
    runs (.adcScan 1) (s { act := .cal }) (fun t => decide ((t.conv 1).scanPend = true ∧ (t.conv 1).act = .cal)) ∧
    runs (.adcStop 1) (s { act := .scan, scan := [7], scanPend := true }) (fun t => decide ((t.conv 1).scan = [] ∧
      (t.conv 1).scanPend = false ∧ (t.conv 1).act = .scan)) ∧
    keeps (.adcScan 0) (s {}) ∧ keeps (.adcInject 0) (s {}) ∧ keeps (.adcCal 0) (s {}) ∧ keeps (.adcStop 0) (s {}) := by
  decide +kernel

theorem wit_adc_injection :
    let s (c : Adc) : State := adcState 9 c
    runs (.adcInject 1) (s {}) (fun t => decide ((t.conv 1).act = .inj ∧ (t.conv 1).cur = 5 ∧ (t.conv 1).inj = [3])) ∧
    runs (.adcInject 1) (s { act := .scan, cur := 6, scan := [7], scanOn := true }) (fun t => decide ((t.conv 1).act = .inj ∧
      (t.conv 1).restart = some 6 ∧ (t.conv 1).scan = [7] ∧ t.fld .ADC_EV 31 16 1 = 1 ∧ t.flag .ADC_KSTAT 4 1 = true)) ∧
    runs (.adcInject 1) (s { act := .inj }) (fun t => decide (t.fld .ADC_EV 7 0 1 = 1 ∧ t.flag .ADC_KSTAT 6 1 = true)) ∧
    runs (.adcInject 1) (s { act := .cal }) (fun t => decide ((t.conv 1).injPend = true)) := by
  decide +kernel

theorem wit_adc_calibration :
    let s (f : Nat) (c : Adc) : State := adcState f c
    runs (.adcCal 1) (s (2 * ms - 1) {}) (fun t => decide ((t.conv 1).act = .idle ∧ t.flag .ADC_KSTAT 8 1 = true)) ∧
    runs (.adcCal 1) (s (2 * ms) {}) (fun t => decide ((t.conv 1).act = .cal)) ∧
    runs (.adcCal 1) (s (2 * ms) { act := .inj }) (fun t => decide ((t.conv 1).calPend = true ∧ (t.conv 1).act = .inj)) ∧
    runs (.calibrationDone 1 0x10001 0xFFFF) (s (2 * ms + 40000) { act := .cal, from_ := 2 * ms }) (fun t =>
      decide (t.rg .ADC_SELFCAL 1 = 0x1FFFF ∧ t.flag .ADC_KSTAT 7 1 = true)) ∧
    runs (.calibrationDone 1 1 1) (s 50000 { act := .cal, from_ := 10000 }) (fun t => decide (t.flag .ADC_KSTAT 8 1 = true)) := by
  decide +kernel

theorem wit_adc_fire_and_reference :
    let s (cfg : Nat) : State := { (adcState 9 {}).setRg .ADC_CFG cfg 1 with edges := [(2, [⟨9 * 256, 9⟩])] }
    runs (.converterFire 1) (s 0x80C00000) (fun t => decide (t.edges = [] ∧ (t.conv 1).act = .scan ∧ (t.conv 1).cur = 6)) ∧
    runs (.converterFire 1) (s 0xC0C00000) (fun t => decide ((t.conv 1).act = .inj ∧ (t.conv 1).cur = 5)) ∧
    runs (.converterDisable 1) (adcState 9 { act := .scan }) (fun t => decide (t.conv 1 = {} ∧ t.flag .ADC_CFG 31 1 = false)) ∧
    runs (.referenceEnable true) (atFrc base 9) (fun t => decide (t.adc.refFrom = some 9 ∧ t.flag .ADC_REF 0 = true)) ∧
    runs (.referenceEnable false) ((adcState 9 {}).setRg .ADC_REF 0x80000001) (fun t => decide (t.adc.refFrom = none ∧ t.rg .ADC_REF = 0)) ∧
    runs .referenceSettled (adcState (2 * ms) {}) (fun t => decide (t.flag .ADC_REF 31 = true)) ∧
    keeps .referenceSettled (adcState (2 * ms - 1) {}) := by
  decide +kernel

theorem wit_conversion_result :
    let s (c : Adc) : State := regs (adcState (3 * ms) { c with from_ := 3 * ms - 1000, cur := 7 })
      [(.ADC_CORR, 0x80000000, 15), (.ADC_WIN, 0x7FFE0000, 15), (.ADC_RES, 0x80000000, 15)]
    let i := 15
    (s {}).refSettledAt (3 * ms - 750) = true ∧
    runs (.conversionDone 1 32767) (s { act := .inj }) (fun t => decide (signed 16 (t.fld .ADC_RES 15 0 i) = 32767 ∧
      t.flag .ADC_RES 31 i = true ∧ t.flag .ADC_RES 30 i = true ∧ t.flag .ADC_RES 28 i = true ∧ t.flag .ADC_RES 27 i = true ∧
      t.flag .ADC_RES 26 i = false ∧ t.flag .ADC_KSTAT 1 1 = true ∧ t.rg .ADC_RESTS i = 3 * ms - 750)) ∧
    runs (.conversionDone 1 (-32768)) ((s { act := .scan }).setRg .ADC_CORR 0xFFFF0001 15) (fun t =>
      decide (signed 16 (t.fld .ADC_RES 15 0 i) = -32768 ∧ t.flag .ADC_RES 26 i = true ∧ t.flag .ADC_RES 28 i = false ∧
        t.flag .ADC_KSTAT 0 1 = true ∧ (t.conv 1).act = .idle)) := by
  decide +kernel

theorem wit_conversion_sequence :
    let s (c : Adc) : State := adcState 3000 { c with from_ := 2000, cur := 1 }
    runs (.conversionDone 1 0) (s { act := .inj, inj := [3], calPend := true }) (fun t => decide ((t.conv 1).act = .inj ∧
      (t.conv 1).cur = 3 ∧ (t.conv 1).inj = [] ∧ (t.conv 1).from_ = 3000)) ∧
    runs (.conversionDone 1 0) (s { act := .inj, calPend := true }) (fun t => decide ((t.conv 1).act = .cal)) ∧
    runs (.conversionDone 1 0) (s { act := .inj, restart := some 6, scan := [7], scanOn := true }) (fun t =>
      decide ((t.conv 1).act = .scan ∧ (t.conv 1).cur = 6)) ∧
    runs (.conversionDone 1 0) (s { act := .scan, scan := [7], scanOn := true }) (fun t => decide ((t.conv 1).act = .scan ∧
      (t.conv 1).cur = 7 ∧ (t.conv 1).scan = [])) ∧
    keeps (.conversionDone 1 0) (atFrc (s { act := .scan }) 2999) := by
  decide +kernel

theorem wit_adc_reads :
    let s := regs (adcState 0 {}) [(.ADC_RES, 0xF0001234, 15), (.ADC_EV, 7, 1)]
    runs (.adcResRead .supervisor 15) s (fun t => decide ((t.port .supervisor).data = 0xF0001234 ∧ t.rg .ADC_RES 15 = 0x30001234)) ∧
    runs (.adcEvRead .supervisor 1) s (fun t => decide ((t.port .supervisor).data = 7 ∧ t.rg .ADC_EV 1 = 0)) := by
  decide +kernel
/-! CAN FD -/

/-- Controller 3 on its bus in a mode, at FRC f. -/
def canState (f mode : Nat) (c : Can) : State :=
  regs { atFrc base f with can := [(3, { c with init := false })], crd := { share := [(crdKey 12 3, 256)] } }
    [(.CAN_CFG, 2 + 4 * mode, 3)]

theorem wit_can_receive :
    let f : CanFrame := { idw := 0x12345678, dlc := 2, data := [0xAA, 0xBB] }
    let s (w : Nat) : State := regs (canState 9 0 {}) [(.CAN_RWR, w, 3), (.CAN_RRD, 255, 3), (.CAN_NODE, 2 ^ 63 + 2 ^ 35 + 8, 3)]
    let u : State := (s 511).setRg .CAN_NODE (2 ^ 63 + 2 ^ 35 + 8) 3 15
    (s 510).canOn 3 = true ∧ (s 510).canUnread 3 = 255 ∧ (s 511).canUnread 3 = 256 ∧ 0 < (s 510).avail 12 3 ∧
    runs (.canFrameRx 3 f 9) (s 510) (fun t => decide (t.rg .CAN_RWR 3 = 511 ∧ t.flag .CAN_STAT 0 3 = true ∧
      memGet t.mem (canRing 3 254) 3 = [0xAA, 0xBB, 0] ∧ ofLe (memGet t.mem (canRing 3 254 + 76) 4) = 0x12345678 ∧
      memByte t.mem (canRing 3 254 + 81) = 2 ∧ t.crd.used = [(crdKey 12 3, 1)])) ∧
    runs (.canFrameRx 3 f 9) u (fun t => decide (t.mem = [] ∧ t.rg .CAN_RWR 3 = 511 ∧ t.flag .CAN_STAT 6 3 = true ∧
      (t.canC 3).loss = true ∧ t.crd.drops = [(crdKey 12 3, 1)] ∧ Tbl.get 0 (t.canC 3).watch 15 = 9)) := by
  decide +kernel

theorem wit_can_error_entry :
    let s (mode : Nat) : State := canState 9 mode { tec := 7 }
    runs (.canError 3 7 none true) (s 1) (fun t => decide (t.rg .CAN_RWR 3 = 1 ∧ t.flag .CAN_STAT 1 3 = true ∧
      (t.canC 3).waits11 = true ∧ (t.canC 3).tec = 7 ∧ memByte t.mem (canRing 3 0 + 81) = 7 ∧
      bit (memByte t.mem (canRing 3 0 + 80)).toNat 6 = true)) := by
  decide +kernel

theorem wit_can_ring_read :
    let s : State := regs { canState 9 0 {} with crd := { used := [(crdKey 12 3, 3)] } } [(.CAN_RWR, 2, 3), (.CAN_RRD, 2 ^ 32 - 1, 3)]
    s.canUnread 3 = 3 ∧
    runs (.rrdWrite 3 2) s (fun t => decide (t.rg .CAN_RRD 3 = 2 ∧ t.crd.used = [])) ∧
    runs (.rrdWrite 3 3) s (fun t => decide (t.rg .CAN_RRD 3 = 2 ^ 32 - 1 ∧ t.flag .CAN_STAT 7 3 = true)) ∧
    runs (.canCntRead .supervisor 3 4) (s.setRg .CAN_CNT 6 3 4) (fun t => decide ((t.port .supervisor).data = 6 ∧
      t.rg .CAN_CNT 3 4 = 0)) := by
  decide +kernel

theorem wit_can_watch :
    let s (f : Nat) : State := ((canState f 0 { watch := [(15, 5)] }).setRg .CAN_NODE (2 ^ 63) 3 15).setRg .CAN_NODETMO 0 3 15
    keeps (.nodeWatchTimeout 3 15) (s (ms + 5)) ∧
    runs (.nodeWatchTimeout 3 15) (s (ms + 6)) (fun t => decide (t.flag .CAN_NODESTAT 15 3 = true ∧ t.flag .CAN_STAT 8 3 = true)) := by
  decide +kernel

theorem wit_can_requests :
    let s (mode : Nat) (b : CanBuf) : State := canState 9 mode { bufs := [(7, b)] }
    runs (.canTxReq 3 0x80) (s 0 {}) (fun t => decide (((t.canC 3).buf 7).pend = some 9 ∧ t.rg .CAN_TXSTAT 3 7 = 1)) ∧
    runs (.canTxReq 3 0x80) (s 1 {}) (fun t => decide (((t.canC 3).buf 7).pend = none ∧ t.flag .CAN_STAT 5 3 = true)) ∧
    keeps (.canTxReq 3 0x80) (s 0 { pend := some 4 }) ∧
    runs (.canTxCancel 3 0x80 none) (s 0 { pend := some 4 }) (fun t => decide (t.rg .CAN_TXSTAT 3 7 = 3 ∧ (t.canC 3).buf 7 = {} ∧
      t.flag .CAN_STAT 4 3 = true)) ∧
    (s 0 { pend := some 4 }).canOffer 3 4 = some 7 ∧ (s 0 { pend := some 4 }).canOffer 3 3 = none ∧
    runs (.canTxCancel 3 0x80 (some 4)) (s 0 { pend := some 4 }) (fun t => decide ((t.canC 3).buf 7 = { pend := some 4, cancel := true })) := by
  decide +kernel

theorem wit_can_results :
    let s (b : CanBuf) (flags : Nat) (tec : Nat) : State :=
      let u := canState 9 0 { bufs := [(7, { b with pend := some 4 })], tec := tec }
      { u with mem := memPut u.mem (canBuffer 3 7 + 80) (BitVec.ofNat 8 flags) }
    (s {} 0 8).canSends 3 = true ∧
    runs (.canTxComplete 3 4 false 0) (s {} 0 8) (fun t => decide (t.rg .CAN_TXSTAT 3 7 = 2 ∧ (t.canC 3).buf 7 = {} ∧ (t.canC 3).tec = 7)) ∧
    runs (.canTxComplete 3 4 false 0) (s { cancel := true } 0 0) (fun t => decide (t.rg .CAN_TXSTAT 3 7 = 258)) ∧
    runs (.canTxComplete 3 4 true 0) (s { cancel := true } 0 0) (fun t => decide (t.rg .CAN_TXSTAT 3 7 = 3)) ∧
    runs (.canTxComplete 3 4 true 0) (s {} 0x80 0) (fun t => decide (t.rg .CAN_TXSTAT 3 7 = 4)) ∧
    keeps (.canTxComplete 3 4 true 0) (s {} 0 0) := by
  decide +kernel

theorem wit_can_transmit_errors :
    let s (flags tec : Nat) : State :=
      let u := canState 9 0 { bufs := [(7, { pend := some 4 })], tec := tec }
      { u with mem := memPut u.mem (canBuffer 3 7 + 80) (BitVec.ofNat 8 flags) }
    runs (.canError 3 5 (some ⟨4, false⟩) false) (s 0x80 247) (fun t => decide ((t.canC 3).tec = 255 ∧ (t.canC 3).busOff = false ∧
      t.rg .CAN_TXSTAT 3 7 = 5 + 32 * 5)) ∧
    runs (.canError 3 5 (some ⟨4, false⟩) false) (s 0 248) (fun t => decide ((t.canC 3).tec = 256 ∧ (t.canC 3).busOff = true)) ∧
    runs (.canError 3 5 (some ⟨4, false⟩) false) (s 0 0) (fun t => decide ((t.canC 3).tec = 8 ∧ ((t.canC 3).buf 7).pend = some 4)) ∧
    runs (.canError 3 3 (some ⟨4, false⟩) false) (s 0 128) (fun t => decide ((t.canC 3).tec = 128 ∧ t.rg .CAN_CNT 3 2 = 1)) ∧
    runs (.canError 3 1 (some ⟨4, true⟩) false) (s 0 128) (fun t => decide ((t.canC 3).tec = 128 ∧ (t.canC 3).busOff = false)) := by
  decide +kernel

theorem wit_can_states :
    let good : State := regs (canState 9 0 {}) [(.CAN_NBT, 0x074A1E00, 3), (.CAN_DBT, 0, 3)]
    good.canTimingOk 3 = true ∧ (canState 9 0 {}).canTimingOk 3 = false ∧
    runs (.initSet 3 false) good (fun t => decide ((t.canC 3).init = true ∧ t.flag .CAN_CFG 0 3 = true)) ∧
    runs (.initSet 3 true) good (fun t => decide ((t.canC 3).init = false ∧ (t.canC 3).initWaits = true)) ∧
    runs (.initClear 3) good (fun t => decide ((t.canC 3).init = false ∧ t.flag .CAN_CFG 0 3 = false)) ∧
    runs (.initClear 3) (canState 9 0 {}) (fun t => decide (t.flag .CAN_STAT 2 3 = true)) ∧
    runs (.stuckDominant 3) good (fun t => decide (t.flag .CAN_STAT 9 3 = true ∧ t.canSends 3 = false)) ∧
    runs (.stuckDominantRelease 3) (canState 9 0 { stuck := true, waits11 := true }) (fun t => decide (t.canSends 3 = true)) ∧
    runs (.busOffRecovery 3) (canState 9 0 { busOff := true, recovers := true, tec := 256 }) (fun t => decide (
      (t.canC 3).busOff = false ∧ (t.canC 3).tec = 0 ∧ t.flag .CAN_STAT 3 3 = true)) := by
  decide +kernel
/-! Tenants -/

/-- Tenant 4095 enabled on link 3, in a service state and an array state. -/
def tenState (x : Tenant) (e : ElaSt) : State :=
  { atFrc base sec with
    ten := [(4095, { x with cfg := some { link := 3 } })], ela := [(4095, { st := e })]
    kvs := { vault := .ready, attrs := [(4112, some ⟨3, 16, 4095⟩)], slots := [(4112, { st := .active, mat := 78 })] } }

/-- A command ended with a result. -/
def cmdEnds (code result : Nat) (t : State) : Bool :=
  decide ((t.tenant 4095).lastCmd = code ∧ (t.tenant 4095).result = result ∧ t.flag .TEN_ALERT 5 4095 = true)

theorem wit_tenant_start :
    let s (svc : Svc) : State := tenState { svc := svc, gen := 7 } .out
    (s .out).viaOk 4095 (some 3) = true ∧ (s .out).viaOk 4095 (some 2) = false ∧
    runs (.start 4095 (some 3)) (s .out) (fun t => cmdEnds 1 0 t && decide ((t.tenant 4095).svc = .in_ ∧ (t.tenant 4095).gen = 7)) ∧
    runs (.start 4095 none) (s .frozen) (fun t => cmdEnds 1 2 t && decide ((t.tenant 4095).svc = .frozen)) ∧
    runs (.start 4095 none) (s .drain) (fun t => decide ((t.tenant 4095).held.map (·.code) = some 1 ∧ (t.tenant 4095).svc = .drain)) ∧
    runs (.restore 4095 none) (s .frozen) (fun t => decide ((t.tenant 4095).cmd.map (·.code) = some 6)) ∧
    runs (.start 4095 none) (tenState { svc := .out, cmd := some { code := 6 } } .out) (fun t => cmdEnds 1 1 t &&
      decide ((t.tenant 4095).svc = .out)) := by
  decide +kernel

theorem wit_tenant_freeze :
    let s (svc : Svc) (e : ElaSt) : State := tenState { svc := svc } e
    runs (.freeze 4095 none) (s .in_ .run) (fun t => decide ((t.tenant 4095).freezing = some sec ∧ (t.elaT 4095).pendFreeze = true ∧
      (t.tenant 4095).svc = .in_)) ∧
    runs (.freeze 4095 none) (s .in_ .blocked) (cmdEnds 3 3) ∧ runs (.release 4095 (some 3)) (s .in_ .blocked) (cmdEnds 7 0) ∧
    runs (.release 4095 (some 3)) (s .in_ .run) (cmdEnds 7 2) ∧ runs (.release 4095 none) (s .in_ .blocked) (cmdEnds 7 2) ∧
    runs (.release 4095 (some 3)) { s .in_ .run with ela := [(4095, { st := .run, window := some ⟨0, 0, 0, false, [], [], true, false⟩ })] } (fun t =>
      decide ((t.elaT 4095).pendRelease = true)) ∧
    runs (.resume 4095 none) (s .in_ .run) (cmdEnds 4 2) ∧
    runs (.resume 4095 none) (s .frozen .frozen) (fun t => cmdEnds 4 0 t && decide ((t.tenant 4095).svc = .in_)) ∧
    runs (.freezeTimeout 4095) (tenState { svc := .in_, freezing := some 0, cmd := some { code := 3 } } .run) (fun t =>
      cmdEnds 3 4 t && decide ((t.tenant 4095).freezing = none ∧ (t.tenant 4095).svc = .in_)) ∧
    keeps (.freezeTimeout 4095) (tenState { svc := .in_, freezing := some 1, cmd := some { code := 3 } } .run) := by
  decide +kernel

theorem wit_tenant_reset_and_drain :
    let s (g : Nat) : State := tenState { svc := .in_, gen := g } .run
    let d : State := { tenState { svc := .drain, cmd := some { code := 2 } } .out with crd := { used := [(crdKey 15 4095, 3)] } }
    runs (.reset 4095 none) (s 0xFFFF) (fun t => decide ((t.tenant 4095).svc = .drain ∧ (t.tenant 4095).gen = 1 ∧
      (t.elaT 4095).st = .out ∧ (t.tenant 4095).cmd.map (·.code) = some 2)) ∧
    runs (.reset 4095 none) (s 0xFFFE) (fun t => decide ((t.tenant 4095).gen = 0xFFFF)) ∧
    runs (.tenantDrainComplete 4095) d (fun t => decide ((t.tenant 4095).svc = .out ∧ (t.tenant 4095).drained = true ∧
      t.crd.used = [])) := by
  decide +kernel

theorem wit_tenant_save :
    let s (cfg : Nat) (cmd : Option TenCmd) : State := (tenState { svc := .frozen, cmd := cmd } .frozen).setRg .TEN_SNAPCFG cfg 4095
    let len := ((s 0 none).snapOf 4095 4112 0 false 0 0).1.length
    let n := len / 16
    len % 16 = 0 ∧
    runs (.save 4095 none) (s (4112 * 2 ^ 18 + n - 1) none) (cmdEnds 5 10) ∧
    runs (.save 4095 none) (s (4113 * 2 ^ 18 + n) none) (cmdEnds 5 11) ∧
    runs (.save 4095 none) (s (4112 * 2 ^ 18 + n) none) (fun t => decide ((t.tenant 4095).cmd.map (·.code) = some 5)) ∧
    runs (.saveDone 4095 true) (s (4112 * 2 ^ 18 + n) (some { code := 5 })) (fun t => cmdEnds 5 0 t &&
      decide (t.rg .TEN_CNT 4095 11 = 1) && t.out.any fun o => match o with | .snapshot _ _ 4095 _ h x => decide (x.key = 78 ∧ h.length = 192) | _ => false) ∧
    runs (.saveDone 4095 false) (s 0 (some { code := 5 })) (fun t => decide ((t.tenant 4095).svc = .frozen)) := by
  decide +kernel

theorem wit_tenant_restore :
    let s : State := (tenState { svc := .out, cmd := some { code := 6 } } .out).setRg .TEN_SNAPCFG (2 ^ 18 - 1) 4095
    let x : Snapshot := { tenant := 4095, keySlot := 4112, key := 78, length := 100 }
    let fails (x : Snapshot) (r : Nat) : Bool := runs (.restoreDone 4095 (some x)) s fun t => cmdEnds 6 r t &&
      decide ((t.tenant 4095).svc = .out)
    s.restoreCheck 4095 x = 0 ∧
    runs (.restoreDone 4095 (some x)) s (fun t => cmdEnds 6 0 t && decide ((t.tenant 4095).svc = .in_)) ∧
    fails { x with formatOk := false } 6 ∧ fails { x with tenant := 4094 } 9 ∧ fails { x with keySlot := 4113 } 11 ∧
    fails { x with key := 77 } 7 ∧ fails { x with sch := 1 } 8 ∧
    runs (.restoreDone 4095 none) s (cmdEnds 6 5) := by
  decide +kernel

theorem wit_tenant_points :
    let s (h : Nat) : State := regs (tenState { svc := .in_ } .run) [(.TEN_PTHANDLE, h, 4095), (.TEN_PTDATA, 2 ^ 50 + 0x77, 4095), (.TEN_CNT, 3, 4095)]
    let mine := 4095 * 8192
    (s mine).canPoint 4095 mine true = true ∧ (s 0).canPoint 4095 0 false = false ∧
    runs (.tenPtRead 4095 none) (s mine) (fun t => decide (t.rg .TEN_PTDATA 4095 = ({} : Point).word)) ∧
    runs (.tenPtRead 4095 none) (s 0) (fun t => decide (t.flag .TEN_PTSTAT 0 4095 = true ∧ t.rg .TEN_CNT 4095 8 = 1)) ∧
    runs (.tenPtWrite 4095 (some 3)) (s mine) (fun t => decide ((t.point mine).value = 0x77 ∧ (t.point mine).info = 10)) ∧
    runs (.tenPtWrite 4095 none) (s mine) (fun t => decide ((t.point mine).info = 13)) ∧
    runs (.tenPtWrite 4095 none) (s 0) (fun t => decide (t.pts = [] ∧ t.flag .TEN_PTSTAT 0 4095 = true)) ∧
    runs (.tenCntRead .supervisor 4095 15) ((s 0).setRg .TEN_CNT 9 4095 15) (fun t => decide ((t.port .supervisor).data = 9 ∧
      t.rg .TEN_CNT 4095 15 = 0)) := by
  decide +kernel
/-! Mailboxes and queue pairs -/

/-- A window's mailbox holds one request (generation g) taken at FRC 0. -/
def asking (s : State) (w op g : Nat) (payload : List Byte) : State :=
  s.setMailbox w { taken := [{ msg := { op := op, len := payload.length, tag := 0xABCD, gen := g, payload := payload }, at_ := 0 }] }

/-- The first held item is a reply with this status and payload, and the request's tag. -/
def answers (w status : Nat) (payload : List Byte) (t : State) : Bool :=
  decide ((t.mailbox w).taken = [] ∧ ((t.mailbox w).held.take 1).map (fun i => (i.reply, i.msg.status, i.msg.tag, i.msg.payload)) =
    [(true, status, 0xABCD, payload)])

theorem wit_mailbox_slots :
    let i : MbxItem := { reply := true, msg := { op := 1, tag := 9 } }
    let s (held : Nat) : State := (base.setMailbox 4095 { held := List.replicate held i }).setRg .MBX_D2H_DB 255 4095
    let u : State := regs (s 1) [(.MBX_D2H_DB, 3, 4095)]
    runs (.doorbell 4095 0x80) (s 15) (fun t => decide ((t.mailbox 4095).taken.length = 1 ∧ t.rg .MBX_H2D_DB 4095 = 0)) ∧
    runs (.doorbell 4095 0x80) (s 16) (fun t => decide ((t.mailbox 4095).taken = [] ∧ t.rg .MBX_H2D_DB 4095 = 0x80)) ∧
    runsIn (.doorbell 4095 0x80) { s 0 with now := { resets := [(4095, true)] } } (fun t => decide (t = { s 0 with now := { resets := [(4095, true)] } })) ∧
    runs (.mailboxReply 4095) u (fun t => decide ((t.mailbox 4095).held = [] ∧ t.rg .MBX_D2H_DB 4095 = 7 ∧
      memGet t.mem (d2hSlot 4095 2) 8 = [1, 0, 0, 0, 9, 0, 0, 0])) ∧
    runs (.d2hSlotFree 4095 2) (u.setMailbox 4095 {}) (fun t => decide (t.rg .MBX_D2H_DB 4095 = 1)) := by
  decide +kernel

theorem wit_mailbox_timeout :
    let s (f : Nat) : State := asking (atFrc base f) 4111 1 0 []
    runs (.mailboxTimeout 4111) (s 450000000) (fun t => answers 4111 8 [] t && decide ((t.mailbox 4111).late.length = 1)) ∧
    keeps (.mailboxTimeout 4111) (s 449999999) := by
  decide +kernel

theorem wit_mailbox_refusals :
    let s (op g : Nat) : State := asking (tenState { gen := 2 } .run) 4095 op g []
    let full : State := regs (s 0x3F 2) [(.MBX_D2H_DB, 255, 4095)]
    runs (.info 4095) (s 1 1) (fun t => answers 4095 4 [] t && decide (t.rg .TEN_CNT 4095 1 = 1)) ∧
    runs (.time 4095) (s 0x24 1) (answers 4095 4 []) ∧
    runs (.mailboxReply 4095) full (answers 4095 2 []) ∧
    runs (.info 4095) (s 1 2) (answers 4095 0 ((s 1 2).infoBytes 4095)) ∧
    runs (.time 4095) (s 0x24 2) (answers 4095 0 (List.replicate 16 0)) := by
  decide +kernel

theorem wit_mailbox_forces :
    let f : Force := { handle := 40961, type := 2, value := 8 }
    let s (op : Nat) (payload : List Byte) : State :=
      asking { schState { forces := [f] } 0 with sch := { ten := [(5, { prog := some sp1, core := 15, forces := [f] })] } } 5 op 2 payload
    let frc (h ty : Nat) : List Byte := leBytes 4 h ++ leBytes 4 ty ++ leBytes 4 1
    runs (.forceSet 5) (s 0x10 (frc 40960 1)) (fun t => answers 5 0 [] t && decide ({ handle := 40960, type := 1, value := 1 } ∈ (t.schT 5).forces)) ∧
    runs (.forceSet 5) (s 0x10 (frc 40960 2)) (fun t => answers 5 6 [] t && decide ((t.schT 5).forces = [f])) ∧
    runs (.forceSet 5) (s 0x10 (frc 49152 1)) (fun t => answers 5 5 [] t && decide ((t.schT 5).forces = [f])) ∧
    runs (.forceClear 5) (s 0x11 (leBytes 4 (2 ^ 32 - 1))) (fun t => answers 5 0 [] t && decide ((t.schT 5).forces = [])) ∧
    runs (.forceList 5) (s 0x12 (leBytes 4 0)) (answers 5 0 [1, 0xA0, 0, 0, 2, 0, 0, 0, 8, 0, 0, 0]) := by
  decide +kernel

theorem wit_mailbox_programs :
    let s (st : SchSt) (c : ChgSt) (op : Nat) (payload : List Byte) : State := asking (chgState { st := st } (pkg sp1 1 true) c) 5 op 2 payload
    runs (.schCmd 5) (s .run .empty 0x14 (leBytes 4 3)) (fun t => answers 5 0 [] t && decide ((t.schT 5).st = .stop)) ∧
    runs (.schCmd 5) (s .stop .empty 0x14 (leBytes 4 2)) (fun t => answers 5 0 [] t && decide ((t.schT 5).st = .run)) ∧
    runs (.schCmd 5) (s .run .empty 0x14 (leBytes 4 1)) (fun t => answers 5 6 [] t && decide ((t.schT 5).st = .run)) ∧
    runs (.mbxChgStage 5 (some (pkg sp1 1 true))) (s .run .empty 0x18 (List.replicate 20 0)) (fun t => answers 5 1 [] t &&
      decide ((t.schT 5).chg.st = .verifying)) ∧
    runs (.mbxChgCommit 5) (s .run .staged 0x19 []) (fun t => answers 5 1 [] t && decide ((t.schT 5).chg.st = .waiting)) ∧
    runs (.mbxChgDiscard 5) (s .run .staged 0x1A []) (fun t => decide ((t.schT 5).chg = {} ∧ (t.mailbox 5).taken = [])) := by
  decide +kernel

theorem wit_mailbox_can :
    let s (rights : Nat) : State := asking { canState 9 0 {} with ten := [(4095, { cfg := some { canRights := rights } })] } 4095 0x20 1
      (3 :: List.replicate 31 0)
    (s 8).canFree 3 = some 0 ∧
    runs (.canSend 4095) (s 7) (fun t => answers 4095 5 [] t && decide (t.can = (s 7).can)) ∧
    runs (.canSend 4095) (s 8) (fun t => answers 4095 1 [] t && decide (((t.canC 3).buf 0).pend = some 9)) := by
  decide +kernel

theorem wit_link_messages :
    let r : AttReq := { addr := 0, nonce := [] }
    let q (n : Nat) : State := { base with att := { queue := List.replicate n r } }
    let ask (s : State) (op n : Nat) : State := asking s 4144 op 0 (List.replicate n 0)
    let slot (st : AmdSt) : State := { base with amd := [(0, { st := st, tenant := 7 })], ten := [(7, { cfg := some { link := 3 } })] }
    runs (.attest 3) (ask (q 3) 0x44 40) (fun t => answers 4144 1 [] t && decide (t.att.queue.length = 4)) ∧
    runs (.attest 3) (ask (q 4) 0x44 40) (fun t => answers 4144 7 [] t && decide (t.att.queue.length = 4)) ∧
    let stage (link : Nat) : State := ask { slot .failed with ten := [(7, { cfg := some { link := link } })] } 0x40 12
    runs (.amdStage 3 (some (record 1 7 0 false))) (stage 2) (fun t => answers 4144 5 [] t && decide ((t.amdSlot 0).st = .failed)) ∧
    runs (.amdStage 3 (some (record 1 7 0 false))) (stage 3) (fun t => answers 4144 1 [] t && decide ((t.amdSlot 0).st = .verifying)) ∧
    runs (.amdCommit 3) (ask (slot .verifying) 0x41 8) (answers 4144 6 []) ∧
    runs (.amdCommit 3) (ask (slot .staged) 0x41 8) (answers 4144 1 []) ∧
    runs (.amdDiscard 3) (ask (slot .staged) 0x42 4) (fun t => answers 4144 0 [] t && decide ((t.amdSlot 0).st = .empty)) := by
  decide +kernel

/-- Tenant 4095 on link 3, function 2, with queue pair 7 of 16 entries (as far as cfg enables it) and one fetched
descriptor; it holds one credit of boundary 14 and another is free. -/
def qpState (d : Desc) (gen cfg : Nat) (pts : Tbl Point) : State :=
  State.setRg { atFrc base 9 with
    ten := [(4095, { cfg := some { link := 3, vf := 2 }, gen := 2 })], pts := pts
    crd := { used := [(crdKey 14 4095, 1)], share := [(crdKey 14 4095, 2)] }
    qps := [(128 * 4095 + 7, { fetched := [{ desc := d, gen := gen, head := 1 }] })] }
    .QP_CFG cfg 4095 7

theorem wit_queue_posting :
    let d : Desc := { op := 6 }
    let s (tail share : Nat) : State := State.setRg { qpState d 2 (2 ^ 31 + 4) [] with crd := { used := [(crdKey 14 4095, 1)], share := [(crdKey 14 4095, share)] } }
      .QP_SQTAIL tail 4095 7
    let x : Nat × Nat := ((s 12 2).rg .QP_SQTAIL 4095 7, (s 12 2).avail 14 4095)
    (s 12 2).qpSize 4095 7 = some 16 ∧ x = (12, 1) ∧
    runs (.sqTailWrite 4095 7 15) (s 12 2) (fun t => decide (t.rg .QP_SQTAIL 4095 7 = 15 ∧ t.rg .TEN_CNT 4095 4 = 3)) ∧
    runs (.sqTailWrite 4095 7 0) (s 12 2) (fun t => decide (t.rg .QP_SQTAIL 4095 7 = 12 ∧ t.rg .TEN_CNT 4095 7 = 1)) ∧
    runs (.sqTailWrite 4095 7 15) (s 12 1) (fun t => decide (t.rg .QP_SQTAIL 4095 7 = 12 ∧ t.rg .TEN_CNT 4095 7 = 1)) ∧
    runs (.cqHeadWrite 4095 7 5) (s 12 2) (fun t => decide (t.rg .QP_CQHEAD 4095 7 = 5)) ∧
    runs (.descriptorFetch 4095 7 d) (s 12 2) (fun t => decide (t.rg .QP_SQHEAD 4095 7 = 1 ∧ (t.qp 4095 7).fetched.length = 2 ∧
      t.crd.used = [(crdKey 14 4095, 2)])) ∧
    runs (.qpEnable 4095 7 4) (s 12 2) (fun t => decide (t.flag .QP_CFG 31 4095 7 = false ∧ (t.qp 4095 7).fetched.length = 1)) := by
  decide +kernel

/-- The descriptor has completed: no descriptor left, one completion of this status and count, the credit returned. -/
def completed (status did : Nat) (t : State) : Bool :=
  decide ((t.qp 4095 7).fetched = [] ∧ t.crd.used = []) && t.out.any fun o => match o with
    | .completion 4095 7 c => decide (c.status = status ∧ c.done = did ∧ c.tag = 77 ∧ c.phase = true ∧ c.gen = 2 ∧ c.sqHead = 1)
    | _ => false

theorem wit_descriptors :
    let mine := 4095 * 8192
    let d (op : Nat) : Desc := { op := op, tag := 77, count := 1, len := 16, addr := 64, arg0 := 1 }
    let p : Point := { value := 5, type := 1 }
    let s (op : Nat) : State := qpState (d op) 2 (2 ^ 31 + 4) [(mine, p)]
    (s 1).qpSize 4095 7 = some 16 ∧ (s 1).cqRoom 4095 7 16 = true ∧ (s 1).canPoint 4095 mine false = true ∧ (s 1).canPoint 4095 0 false = false ∧
    runs (.ptRead 4095 7 [mine]) (s 1) (fun t => completed 0 1 t && decide (Out.dma 3 2 64 p.bytes ∈ t.out)) ∧
    runs (.ptRead 4095 7 [0]) (s 1) (fun t => completed 5 0 t && decide (Out.dma 3 2 64 ({} : Point).bytes ∈ t.out)) ∧
    runs (.ptWrite 4095 7 [(mine, 2 ^ 50 + 8, 0)]) (s 2) (fun t => completed 0 1 t && decide (t.point mine = { value := 8, quality := 0, type := 4, info := 10 })) ∧
    runs (.ptWrite 4095 7 [(0, 8, 0)]) (s 2) (fun t => completed 5 0 t && decide (t.pts = [(mine, p)])) ∧
    runs (.ringRead 4095 7) (s 3) (completed 5 0) ∧ runs (.capRead 4095 7) (s 4) (completed 5 0) ∧
    runs (.qpCanSend 4095 7 []) (s 5) (completed 5 0) ∧ runs (.nop 4095 7) (s 6) (completed 0 0) ∧
    runs (.nop 4095 7) (s 9) (completed 2 0) ∧
    runs (.dmaTimeout 4095 (some 7)) (s 6) (fun t => completed 9 0 t && decide ((t.qp 4095 7).error = true ∧ t.flag .TEN_ALERT 3 4095 = true)) := by
  decide +kernel

theorem wit_ring_read :
    let d : Desc := { op := 3, tag := 77, count := 1, len := 64, addr := 64, arg0 := 2 ^ 13 + 7 * 2 ^ 16, arg1 := 4 }
    let r : SampleRec := { vals := [9], cq := [0], stamp := 0, stampSrc := 0, smp := 3, flags := 0 }
    let c : StreamCfg := { sc1 with consumers := [(4095, false)] }
    let s : State := { qpState d 2 (2 ^ 31 + 4) [] with svx := { cfg := [(7, some c)], streams := [(7, { widx := 5, ring := [(4 % c.ringDepth, some r)] })] } }
    s.rawRecord 7 4 = some r.bytes ∧ s.consumes 4095 7 = true ∧
    runs (.ringRead 4095 7) s (fun t => completed 0 1 t && decide (Out.dma 3 2 64 r.bytes ∈ t.out)) := by
  decide +kernel

theorem wit_stale_descriptor :
    runs (.nop 4095 7) (qpState { op := 6 } 1 (2 ^ 31 + 4) []) (fun t => decide ((t.qp 4095 7).fetched = [] ∧
      t.rg .TEN_CNT 4095 5 = 1 ∧ t.flag .TEN_ALERT 4 4095 = true ∧ t.crd.used = [(crdKey 14 4095, 1)])) := by
  decide +kernel

theorem wit_port_rings :
    let f (op : Nat) : Fetched := { desc := { op := op, tag := 77, addr := 64 }, gen := 0, head := 1 }
    let w := linkWindow 3
    let e := swf 64 []
    let s (q : Nat) (x : QPair) : State := State.setRg { atFrc base 9 with
      qps := [(128 * w + q, x)], sw := { hostQ := [(31, [e])] }, crd := { used := [(crdKey 3 31, 2)] } }
      .QP_CFG (2 ^ 31 + 4) w q
    runs (.rxBuf 3 7) (s 67 { fetched := [f 7] }) (fun t => decide ((t.qp w 67).bufs = [f 7] ∧ (t.qp w 67).fetched = [])) ∧
    runs (.hostRxDelivery 3 7) (s 67 { bufs := [f 7] }) (fun t => decide ((t.qp w 67).bufs = [] ∧ Tbl.get [] t.sw.hostQ 31 = [] ∧
      t.crd.used = [(crdKey 3 31, 1)] ∧ Out.hostFrame 3 7 64 { e with frame := e.tagged 11 } e.info 64 true ∈ t.out)) ∧
    runs (.txFrame 3 (eth 1 0x88B8 64)) (s 68 { fetched := [f 8] }) (fun t => decide ((t.qp w 68).fetched = [] ∧ t.rg .SWC_PCNT 3 16 = 1)) := by
  decide +kernel

theorem wit_function_resets :
    let s : State := { qpState { op := 6 } 2 (2 ^ 31 + 4) [] with links := [(2, { up := true, vfen := 4 }), (3, { up := true })], mbx := [(4095, { order := [(1, 0)] })] }
    s.tenantOfVf 3 2 = some 4095 ∧ s.linkTenants 2 = [] ∧
    runs (.functionLevelReset 3 2) s (fun t => decide (t.qps = [] ∧ t.rg .QP_CFG 4095 7 = 0 ∧ t.mbx = [] ∧ t.rg .TEN_CNT 4095 14 = 1)) ∧
    runs (.hostLinkReset 2 true) s (fun t => decide ((t.link 2).up = false ∧ (t.link 2).vfen = 0 ∧ t.qps = s.qps)) := by
  decide +kernel

/-- A reset of the function ends a SAVE with DMA; a tail written through the physical function takes the transfers there. -/
theorem wit_functions :
    let s : State := qpState { op := 6 } 2 (2 ^ 31 + 4) []
    let x : State := s.setTenant 4095 { s.tenant 4095 with cmd := some { code := 5, via := some 7 } }
    x.tenantOfVf 3 2 = some 4095 ∧ x.cmdFn 4095 = (3, 0) ∧ s.ringFn 4095 7 = (3, 2) ∧
    (s.windowWrite (.pf 3) .QP_SQTAIL 4095 7 1).ringFn 4095 7 = (3, 0) ∧
    runs (.functionLevelReset 3 2) x (fun t => decide ((t.tenant 4095).cmd = none ∧ (t.tenant 4095).result = 5)) := by
  decide +kernel
/-! Keys, lifecycle and attestation -/

/-- A READY vault: slot 4200 selected (AES, owner the system), its parent 4201 a DERIVE key that is ACTIVE. -/
def keyState (run : Option KeyRun) (k : KeySlot) (g : Option KeyStaging) : State :=
  regs { atFrc base sec with
    kvs := { vault := .ready, identity := true, run := run, slots := [(4200, k), (4201, { st := .active, mat := 9, parent := some 4200 })]
             stg := [(4200, g)], attrs := [(4200, some ⟨3, 16, 0xFFFF⟩), (4201, some ⟨1, 32, 0xFFFF⟩)] } }
    [(.KVS_SEL, 4200, 0), (.KVS_PARENT, 4201, 0), (.TMP_CFG, 0x41, 0)]

/-- The Hazel command running would end with this result. -/
def keyEnds (r : Nat) (t : State) : Bool := decide (t.kvs.run.map (·.result) = some r ∧ t.flag .KVS_RESULT 31 = true)

theorem wit_key_busy_tamper_vault :
    let s : State := keyState none {} none
    let busy : State := keyState (some ⟨3, 4200, 0⟩) {} none
    let tam : State := { s with kvs := { s.kvs with asserted := 1 } }
    let novault : State := { s with kvs := { s.kvs with vault := .loading } }
    tam.tamperActive = true ∧ s.tamperActive = false ∧
    runs .generate busy (fun t => decide (t.kvs = busy.kvs ∧ t.rg .KVS_RESULT = 2 ^ 31 + 3 * 16 + 1 ∧ t.flag .KVS_STAT 1 = true)) ∧
    runs .vaultInit busy (fun t => decide (t.kvs = busy.kvs ∧ t.rg .KVS_RESULT = 2 ^ 31 + 8 * 16 + 1)) ∧
    runs .derive tam (fun t => keyEnds 8 t && decide (t.kvs.stg = s.kvs.stg)) ∧
    runs .verify novault (fun t => keyEnds 9 t && decide (t.kvs.stg = s.kvs.stg)) := by
  decide +kernel

theorem wit_key_filling :
    let s : State := keyState none {} none
    let wrap : State := { s with kvs := { s.kvs with attrs := [(4200, some ⟨3, 16, 0xFFFF⟩), (4201, some ⟨3, 64, 0xFFFF⟩)] } }
    let b : KeyBlob := { under := 9, mat := 33, bytes := [(0, 0x56), (1, 0x4B), (2, 0x42), (3, 0x4C), (4, 3), (5, 16), (6, 32), (8, 5)] }
    b.kind = 3 ∧ b.use = 16 ∧ b.formatOk = true ∧
    s.parentKey ⟨3, 16, 0xFFFF⟩ 1 5 = some 9 ∧ wrap.parentKey ⟨3, 16, 0xFFFF⟩ 1 5 = none ∧ wrap.parentKey ⟨3, 16, 0xFFFF⟩ 3 6 = some 9 ∧
    runs .generate s (fun t => keyEnds 0 t && (Tbl.get none t.kvs.stg 4200).isSome) ∧
    runs .derive s (fun t => keyEnds 0 t && (Tbl.get none t.kvs.stg 4200).isSome) ∧
    runs .derive wrap (fun t => keyEnds 3 t && decide (t.kvs.stg = s.kvs.stg)) ∧
    runs (.importKey (some b)) wrap (fun t => keyEnds 0 t && decide (Tbl.get none t.kvs.stg 4200 = some ⟨33, some 4201, 5, false⟩)) ∧
    runs (.importKey (some { b with bytes := [(4, 3), (5, 16)] })) wrap (keyEnds 5) ∧
    runs (.importKey (some { b with bytes := [(4, 3), (5, 15)] })) wrap (keyEnds 4) ∧
    runs (.importKey none) wrap (keyEnds 10) ∧ runs (.importKey (some b)) s (keyEnds 3) ∧ runs (.importKey none) s (keyEnds 3) ∧
    runs (.importKey (some { b with under := 8 })) wrap (fun t => keyEnds 5 t && decide (t.kvs.stg = s.kvs.stg)) := by
  decide +kernel

/-- VERIFY compares with a check value that the model leaves free; both its cases are met by some register content. -/
theorem wit_key_verify :
    let s (kcv : Nat) : State := (keyState none {} (some ⟨33, none, 0, false⟩)).setRg .KVS_KCV kcv
    (s 0).fld .KVS_SEL 13 0 = 4200 ∧ Tbl.get none (s 0).kvs.stg 4200 = some ⟨33, none, 0, false⟩ ∧ (s 0).kcv ≠ (s 1).kcv := by
  decide +kernel

theorem wit_key_commit :
    let old : KeySlot := { st := .active, mat := 1 }
    let s (v : Bool) : State := keyState none old (some ⟨33, none, 0, v⟩)
    let due (cmd r : Nat) : State := keyState (some ⟨cmd, 4200, r⟩) old none
    runs .keyCommit (s true) (fun t => keyEnds 0 t && decide ((t.slot 4200).mat = 33 ∧ (t.slot 4200).st = .active ∧
      Tbl.get none t.kvs.stg 4200 = none ∧ (t.slot 4201).mat = 9)) ∧
    keeps .keyCommit { s true with pwr := { (s true).pwr with warm := true } } ∧
    runs .keyCommit (s false) (fun t => keyEnds 7 t && decide (t.slot 4200 = old)) ∧
    runs .keyDiscard (s true) (fun t => keyEnds 0 t && decide (Tbl.get none t.kvs.stg 4200 = none ∧ t.slot 4200 = old)) ∧
    runs .invalidate ((s true).setRg .KVS_GRACE 7) (fun t => keyEnds 0 t && decide (t.slot 4200 = {} ∧ (t.slot 4201).st = .orphan ∧
      (t.slot 4201).mat = 9 ∧ (t.slot 4201).graceEnd = 8000000000)) ∧
    runs .keyCommandDone (due 7 2) (fun t => decide (t.kvs.run = none ∧ t.rg .KVS_RESULT = 7 * 16 + 2 ∧ t.flag .KVS_STAT 0 = true)) ∧
    runs .keyCommandDone (due 8 0) (fun t => decide (t.kvs.vault = .ready ∧ (t.slot 1).st = .active ∧ (t.slot 3).st = .active)) ∧
    runs .vaultInit (s true) (fun t => decide (t.kvs.slots = [] ∧ t.kvs.stg = [] ∧ t.kvs.vault = .none)) := by
  decide +kernel

theorem wit_key_expiry :
    let s (st : KeySt) (sync : SyncState) : State :=
      let u := keyState none { st := st, notAfter := 0, graceEnd := sec } none
      { u with tb := { u.tb with sync := sync }, kvs := { u.kvs with slots := [(4200, { st := st, notAfter := 1, graceEnd := sec })] } }
    let late (sync : SyncState) : State := (s .active sync).setRg .TMB_OFS (2 * sec)
    (late .locked).locked = true ∧ (late .locked).dtSec = 3 ∧
    runs .expiryCheck (late .locked) (fun t => decide ((t.slot 4200).st = .expired)) ∧
    runs .expiryCheck (late .free) (fun t => decide ((t.slot 4200).st = .active ∧ t.flag .KVS_STAT 6 = true)) ∧
    runs (.graceEnd 4200) (s .orphan .free) (fun t => decide ((t.slot 4200).st = .expired ∧ t.flag .KVS_STAT 4 = true)) := by
  decide +kernel

theorem wit_tamper :
    let s : State := keyState none { st := .active, mat := 1 } none
    let gone (src : Nat) (t : State) : Bool := decide (t.kvs.slots = [] ∧ t.kvs.vault = .none ∧ t.kvs.tampered = true ∧
      t.flag .TMP_STAT src = true)
    runs (.tamper 0) s (gone 0) ∧ keeps (.tamper 1) s ∧ runs (.zeroise 0xA5) s (gone 6) ∧ keeps (.zeroise 0xA4) s ∧
    runs (.identityRederive 0x3E) { s with kvs := { s.kvs with identity := false } } (fun t => decide (t.kvs.identity = true ∧
      t.kvs.asserted = 0x3E)) := by
  decide +kernel

theorem wit_lifecycle :
    let s (lc : Nat) (run : Option KeyRun) : State := { (keyState run {} none).setRg .ATT_LC lc with att := { ownerRoot := some 7 } }
    let er (dst : Nat) : State := { (keyState none { st := .active } none).setRg .ATT_LC (256 + dst) with att := { erase := some (2, dst) } }
    let bad : LcToken := { bytes := [(4, 1), (5, 3)], sig := {} }
    (s 1 none).lcCheck bad = 1 ∧
    runs (.apply (some bad)) (s 1 none) (fun t => decide (t.rg .ATT_LCSTAT = 1 ∧ t.rg .ATT_LC = 1)) ∧
    runs (.apply none) (s 1 none) (fun t => decide (t.rg .ATT_LCSTAT = 1)) ∧
    runs (.apply (some bad)) (s 1 (some ⟨3, 4200, 0⟩)) (fun t => decide (t.att.applyWaits = some bad)) ∧
    runs .erasureDone (er 3) (fun t => decide (t.kvs.slots = [] ∧ t.kvs.vault = .none ∧ t.flag .ATT_LC 8 = false ∧ t.att.erase = none)) ∧
    runs .erasureDone (er 4) (fun t => decide (t.kvs.slots = [] ∧ t.att.idCert = false)) := by
  decide +kernel

/-- A module in PROVISIONED whose owner root is 7. -/
def lcState : State := { (keyState none {} none).setRg .ATT_LC 1 with att := { ownerRoot := some 7 } }

/-- The token from PROVISIONED to dst for this device. -/
def goodToken (dst : Byte) : LcToken :=
  let b : Bytes := [(0, 0x56), (1, 0x4C), (2, 0x43), (3, 0x54), (4, 1), (5, dst)] ++
    (digestBytes Config.deviceId).zipIdx.map fun e => (8 + e.2, e.1)
  { bytes := b, sig := { root := some 7, ok := true, over_ := blist b 0 0x70 } }

/-- A token that passes every check exists, whatever the device identity is. -/
theorem wit_lifecycle_passes (dst : Byte) (h : dst = 2 ∨ dst = 3) : lcState.lcCheck (goodToken dst) = 0 := by
  have f : lcState.fld .ATT_LC 2 0 = 1 := by decide +kernel
  have r : lcState.att.ownerRoot = some 7 := rfl
  have o : (goodToken dst).formatOk = true := by rcases h with rfl | rfl <;> rfl
  have d : (goodToken dst).forDevice = true := decide_eq_true rfl
  have g : (goodToken dst).sigOk = true := by simp [LcToken.sigOk, Signed.covers, goodToken]
  have a : (goodToken dst).src = 1 := by rcases h with rfl | rfl <;> rfl
  have b : (goodToken dst).dst = dst.toNat := by rcases h with rfl | rfl <;> rfl
  have q : (goodToken dst).sig.root = some 7 := rfl
  unfold State.lcCheck State.lcSigner
  rw [f, r, o, d, g, a, b, q]
  rcases h with rfl | rfl <;> rfl

theorem wit_attestation :
    let r : AttReq := { addr := 64, nonce := [1] }
    let s (n : Nat) (id : Bool) : State :=
      let u := keyState none {} none
      { u.setRg .ATT_ADDR 127 with att := { queue := List.replicate n r }, kvs := { u.kvs with identity := id } }
    runs .request (s 3 true) (fun t => decide (t.att.queue.length = 4 ∧ (t.att.queue.getLast?).map (·.addr) = some 64)) ∧
    runs .request (s 4 true) (fun t => decide (t.att.queue.length = 4 ∧ t.att.result = 1)) ∧
    runs (.statementBuild true) (s 1 true) (fun t => decide (t.att.queue = []) && t.out.any fun o => match o with
      | .statement none 64 h x => decide (h.length % 112 = (0x140 - 31) % 112 ∧ x.nonce = [1] ∧ x.signer = 2 ∧ x.akAbsent = true)
      | _ => false) ∧
    runs (.statementBuild false) (s 1 true) (fun t => decide (t.att.result = 2)) ∧
    keeps (.statementBuild true) (s 1 false) := by
  decide +kernel
/-! Records -/

theorem wit_triggers :
    let f : Fire := { source := 1, arg := 2, stamp := 3, stampSrc := 1, set := 0, words := [] }
    let s (cfg n : Nat) (last : Option Nat) : State := { (atFrc base (5 * ms)).setRg .EVR_SRCCFG (cfg * 2 ^ 31 + 5) 63 with
      evr := { queue := List.replicate n f, last := [(63, last)] } }
    keeps (.swtrig 15 9) (s 0 0 none) ∧
    runs (.swtrig 15 9) (s 1 0 none) (fun t => decide (t.evr.queue.map (fun x => (x.source, x.arg, x.stamp, x.stampSrc, x.supDown)) =
      [(63, 9, 5 * ms * 256, 1, false)] ∧ Tbl.get none t.evr.last 63 = some (5 * ms))) ∧
    runs (.swtrig 15 9) (s 1 0 (some 1)) (fun t => decide (t.evr.queue = [] ∧ t.rg .EVR_CNT 1 = 1)) ∧
    runs (.swtrig 15 9) (s 1 64 (some 0)) (fun t => decide (t.evr.queue.length = 64 ∧ t.rg .EVR_CNT 0 = 1 ∧ t.flag .EVR_STAT 1 = true ∧
      t.evr.lostSince = 1)) := by
  decide +kernel

theorem wit_record_write :
    let f : Fire := { source := 63, arg := 9, stamp := 3, stampSrc := 1, set := 2, words := [0x12345678] }
    let s : State := { (atFrc base 8).setRg .EVR_NEXTSEQ (2 ^ 32 - 1) with evr := { queue := [f], lostSince := 1, nextWrite := 8 } }
    runs .recordWrite s (fun t =>
      let b := memGet t.mem (evrRecord 8191) 256
      decide (t.evr.queue = [] ∧ t.rg .EVR_NEXTSEQ = 0 ∧ b.take 8 = [0xFF, 0xFF, 0xFF, 0xFF, 63, 2, 1, 1] ∧
        (b.drop 60).take 4 = [0x78, 0x56, 0x34, 0x12] ∧ ofLe (b.drop 252) = crc32c (b.take 252) ∧
        Tbl.get 0 t.ltl.cur (almondCounter 20) = 1)) ∧
    keeps .recordWrite { s with evr := { s.evr with nextWrite := 9 } } ∧
    runs (.evrCntRead .supervisor 2) (s.setRg .EVR_CNT 4 2) (fun t => decide ((t.port .supervisor).data = 4 ∧ t.rg .EVR_CNT 2 = 0)) := by
  decide +kernel

theorem wit_almond :
    let s (temp : Int) (f : Nat) : State := { atFrc base f with sge := { temp := temp } }
    runs (.ltlInc 32 65535) (s 0 0) (fun t => decide (Tbl.get 0 t.ltl.cur (almondCounter 32) = 65535)) ∧
    runs (.ltlInc 31 1) (s 0 0) (fun t => decide (t.flag .LTL_STAT 0 = true ∧ t.ltl = (s 0 0).ltl)) ∧
    runs (.ltlHadd 4 63 1) (s 0 0) (fun t => decide (Tbl.get 0 t.ltl.cur (almondBin 4 63) = 1)) ∧
    runs (.ltlHadd 3 63 1) (s 0 0) (fun t => decide (t.flag .LTL_STAT 0 = true)) ∧
    keeps (.histogramSample 0) (s 0 (10 * sec - 1)) ∧
    runs (.histogramSample 0) (s (-400) (10 * sec)) (fun t => decide (Tbl.get 0 t.ltl.cur (almondBin 0 0) = 10 ∧
      Tbl.get 0 t.ltl.sampleAt 0 = 10 * sec)) ∧
    runs (.histogramSample 0) (s (-376) (10 * sec)) (fun t => decide (Tbl.get 0 t.ltl.cur (almondBin 0 0) = 10)) ∧
    runs (.histogramSample 0) (s (-375) (10 * sec)) (fun t => decide (Tbl.get 0 t.ltl.cur (almondBin 0 1) = 10)) ∧
    runs (.histogramSample 2) (s 0 sec) (fun t => decide (Tbl.get 0 t.ltl.cur (almondBin 2 0) = 1)) ∧
    runs .onSecondsTick (s 1000 sec) (fun t => decide (Tbl.get 0 t.ltl.cur (almondCounter 4) = 1 ∧ Tbl.get 0 t.ltl.cur (almondCounter 5) = 0)) ∧
    runs .onSecondsTick (s 1001 sec) (fun t => decide (Tbl.get 0 t.ltl.cur (almondCounter 5) = 1)) ∧
    runs .almondFlush { s 0 0 with ltl := { cur := [(1, 2)] } } (fun t => decide (t.ltl.mram = [(1, 2)])) := by
  decide +kernel

/-- Unit 15 (group 14, two analogue points, pre-trigger 2, post 2) with master unit 14 selected. -/
def capState (c : CapUnit) (rearm : Bool) : State :=
  let g : CapCfg := { unit := 15, group := 14, na := 1, pre := 2, post := 2, hold := 3, rearm := rearm, chans := [{ kind := .point, handle := 40960 }] }
  regs { atFrc base 9 with
    dcr := [(14, { cfg := some { g with unit := 14 } }), (15, { c with cfg := some g })], crd := { share := [(crdKey 13 15, 4)] }
    pts := [(40960, { value := 7, type := 2 })] }
    [(.DCR_USEL, 14, 0)]

theorem wit_capture_arm :
    let s (st : CapSt) : State := capState { st := st, rows := [⟨256, [1], []⟩, ⟨0, [2], []⟩] } false
    let alone : State := (s .idle).setRg .DCR_USEL 15
    (s .idle).capSel = 14 ∧ ((s .idle).cap 14).isMaster = true ∧ (s .idle).capGroup 14 = [14, 15] ∧ (s .idle).domOn 15 = true ∧
    runs .dcrArm alone (fun t => decide (t.flag .DCR_STAT 4 = true ∧ t.dcr = alone.dcr)) ∧
    runs .dcrDisarm alone (fun t => decide (t.flag .DCR_STAT 4 = true ∧ t.dcr = alone.dcr)) ∧
    runs .dcrArm (s .idle) (fun t => decide ((t.cap 15).st = .arming ∧ (t.cap 15).slot = some 0)) ∧
    runs .dcrDisarm (s .recording) (fun t => decide ((t.cap 15).st = .idle ∧ (t.cap 15).records.map (fun r => (r.ended, r.rows)) =
      [(true, [⟨0, [2], []⟩, ⟨256, [1], []⟩])])) ∧
    runs .dcrDisarm (s .armed) (fun t => decide ((t.cap 15).st = .idle ∧ (t.cap 15).records = [])) := by
  decide +kernel

theorem wit_capture_fire :
    let s (st : CapSt) : State := capState { st := st, rows := [⟨256, [1], []⟩, ⟨0, [2], []⟩] } false
    (((s .armed).cap 15).fireAt { unit := 15, pre := 2, post := 2 } (s .armed).dt 0xFF false).remaining ≠ 0 ∧
    runs .dcrFire (s .armed) (fun t => decide ((t.cap 15).st = .recording ∧ (t.cap 15).cur.fireStamp = 9 * 256 ∧
      (t.cap 15).cur.fireUnit = 0xFF ∧ (t.cap 15).cur.trigRow = 3 ∧ (t.cap 15).remaining = 2)) ∧
    runs .dcrFire (s .arming) (fun t => decide (Tbl.get 0 (t.cap 15).cnt 1 = 1 ∧ Tbl.get 0 (t.cap 15).cnt 2 = 1)) ∧
    runs .dcrFire (s .idle) (fun t => decide (Tbl.get 0 (t.cap 15).cnt 2 = 1)) := by
  decide +kernel

theorem wit_capture_rows :
    let o : CapOpen := { smp := 1, stamp := 5, close := 9 }
    let s (st : CapSt) (pre remaining share : Nat) : State :=
      let u := capState { st := st, preCount := pre, remaining := remaining, rows := [⟨0, [2], []⟩], opens := [o] } false
      { u with crd := { share := [(crdKey 13 15, share)] } }
    let raw : State :=
      let u := s .armed 0 0 1
      { u with dcr := [(15, { u.cap 15 with cfg := some { unit := 15, chans := [{ kind := .raw }] } })] }
    let awaits (fire : Nat) : State :=
      let u := s .recording 0 2 1
      u.setCap 15 { u.cap 15 with awaiting := true, cur := { slot := 0, fireStamp := fire } }
    let early : State := { raw with tb := { raw.tb with frc := 8 } }
    early.capReady { unit := 15, chans := [{ kind := .raw }] } o = false ∧ keeps (.rowClose 15) early ∧
    runs (.rowClose 15) raw (fun t => decide ((t.cap 15).rows.map (·.analog) = [[0x80000000], [2]])) ∧
    runs (.rowClose 15) (s .arming 0 0 1) (fun t => decide ((t.cap 15).st = .arming ∧ (t.cap 15).preCount = 1 ∧ t.avail 13 15 = 0)) ∧
    runs (.rowClose 15) (s .arming 1 0 1) (fun t => decide ((t.cap 15).st = .armed)) ∧
    runs (.rowClose 15) (s .armed 0 0 1) (fun t => decide ((t.cap 15).rows = [⟨5, [7], []⟩, ⟨0, [2], []⟩])) ∧
    runs (.rowClose 15) (s .recording 0 2 1) (fun t => decide ((t.cap 15).st = .recording ∧ (t.cap 15).remaining = 1)) ∧
    runs (.rowClose 15) (awaits 6) (fun t => decide ((t.cap 15).remaining = 2 ∧ (t.cap 15).rows = [⟨5, [7], []⟩, ⟨0, [2], []⟩])) ∧
    runs (.rowClose 15) (awaits 5) (fun t => decide ((t.cap 15).remaining = 1 ∧ (t.cap 15).awaiting = false)) ∧
    runs (.rowClose 15) (s .recording 0 1 1) (fun t => decide ((t.cap 15).st = .holdoff ∧ t.flag .DCR_STAT 0 = true ∧
      (t.cap 15).records.map (fun r => (r.overflow, r.rows)) = [(false, [⟨0, [2], []⟩, ⟨5, [7], []⟩])])) ∧
    runs (.rowClose 15) (s .armed 0 0 0) (fun t => decide ((t.cap 15).st = .arming ∧ Tbl.get 0 (t.cap 15).cnt 3 = 1 ∧
      t.flag .DCR_STAT 2 = true)) ∧
    runs (.rowClose 15) (s .recording 0 2 0) (fun t => decide ((t.cap 15).st = .holdoff ∧
      (t.cap 15).records.map (fun r => (r.overflow, r.rows)) = [(true, [⟨0, [2], []⟩])])) := by
  decide +kernel

theorem wit_capture_holdoff :
    let s (re : Bool) (at_ : Nat) : State := (capState { st := .holdoff, holdEnd := at_, records := [{ slot := 1 }], cnt := [(6, 3)] } re).setRg .DCR_USEL 15
    runs (.holdoffEnd 15) (s false 9) (fun t => decide ((t.cap 15).st = .idle)) ∧ keeps (.holdoffEnd 15) (s false 10) ∧
    runs (.holdoffEnd 15) (s true 9) (fun t => decide ((t.cap 15).st = .arming ∧ (t.cap 15).slot = some 0)) ∧
    runs .dcrFree (s false 9) (fun t => decide ((t.cap 15).records = [])) ∧
    runs (.dcrUcntRead .supervisor 6) (s false 9) (fun t => decide ((t.port .supervisor).data = 3 ∧ (t.cap 15).cnt = [])) := by
  decide +kernel

theorem wit_descriptors_to_capture_and_can :
    let r : CapRecord := { slot := 0, rows := [⟨0, [2], []⟩] }
    let g : CapCfg := { unit := 15, owner := 4095 }
    let s (op arg0 arg1 len rights mode : Nat) (b : Can) : State :=
      let u := qpState { op := op, tag := 77, count := 1, len := len, addr := 64, arg0 := arg0, arg1 := arg1 } 2 (2 ^ 31 + 4) []
      { u.setRg .CAN_CFG (2 + 4 * mode) 3 with
        dcr := [(15, { cfg := some g, records := [r] })], can := [(3, { b with init := false })]
        ten := [(4095, { cfg := some { link := 3, vf := 2, canRights := rights }, gen := 2 })] }
    let x : List Byte := List.replicate 96 0x55
    let busy : Can := { bufs := (List.range 8).map fun i => (i, { pend := some 0 }) }
    let n := (r.bytes g).length
    runs (.capRead 4095 7) (s 4 15 0 16 0 0 {}) (fun t => completed 0 16 t && t.out.any fun o => match o with
      | .dma 3 2 64 (0x56 :: 0x43 :: _) => true
      | _ => false) ∧
    runs (.capRead 4095 7) (s 4 15 (n - 4) 16 0 0 {}) (completed 11 4) ∧
    (s 5 3 0 96 8 0 {}).canFree 3 = some 0 ∧ (s 5 3 0 96 8 0 busy).canFree 3 = none ∧
    runs (.qpCanSend 4095 7 x) (s 5 3 0 96 8 0 {}) (fun t => completed 0 96 t && decide (((t.canC 3).buf 0).pend = some 9 ∧
      memGet t.mem (canBuffer 3 0) 96 = x)) ∧
    keeps (.qpCanSend 4095 7 x) (s 5 3 0 96 8 0 busy) := by
  decide +kernel

theorem wit_host_frame :
    let f : Fetched := { desc := { op := 8, tag := 77 }, gen := 0, head := 1 }
    let w := linkWindow 3
    let x := eth 2 0x88B8 64
    let u : State := { withPort 7 1 { up := true } with qps := [(128 * w + 68, { fetched := [f] })] }
    let s : State := (((u.setRg .QP_CFG (2 ^ 31 + 4) w 68).setRg .SWC_HSA (2 ^ 63 + 2) 3 3).setRg .SWC_DEFACT (2 ^ 7) 11).setRg .SWC_INBUF 2 11 0
    s.flag .SWC_HSA 63 3 3 = true ∧ s.fld .SWC_HSA 47 0 3 3 = 2 ∧ s.role 7 ≠ Role.partner ∧ s.twin 7 = none ∧
    (s.lookup 11 (s.vidOf 11 x) x.da) = { ports := [7] } ∧ s.classOf 11 (s.priOf 11 x) = 0 ∧
    runs (.txFrame 3 x) s (fun t => decide ((t.qp w 68).fetched = [] ∧ Tbl.get [] t.sw.voq (voqKey 11 7 0) = [0] ∧
      (Tbl.get none t.sw.frames 0).map (fun g => (g.frame, g.outs)) = some (x, [7]))) := by
  decide +kernel
/-! Power, boot, start-up, SMBus and JTAG -/

theorem wit_warm_restart :
    let s (times : List Nat) (f : Nat) : State := { atFrc base f with pwr := { base.pwr with warmTimes := times }, ten := [(7, { svc := .in_ })] }
    let went (b : Nat) (t : State) : Bool := decide (t.flag .SYS_RSTCAUSE b = true ∧ t.pwr.supRuns = false ∧ t.pwr.warm = true ∧
      t.pwr.wdogFrom = t.frc ∧ t.ten = [(7, { svc := .in_ })])
    (s [1] sec).supUp = true ∧
    runs (.lockstepMismatch 0) (s [1] sec) (fun t => went 4 t && t.sge.lockstep) ∧
    runs (.warmRestartCmd 0xC3) (s [1] sec) (went 3) ∧
    runs .watchdogExpiry (s [] (500 * ms)) (went 5) ∧ keeps .watchdogExpiry (s [] (500 * ms - 1)) ∧
    runs (.warmRestartCmd 0xC3) (s [2, 1] sec) (fun t => decide (t.flag .SYS_RSTCAUSE 6 = true ∧ t.pwr.rstOut = true ∧ t.ten = [])) ∧
    runs (.warmRestartCmd 0xC3) (s [2, 1] (10 * sec + 1)) (went 3) ∧
    keeps (.warmRestartCmd 0xC2) (s [] sec) ∧ keeps (.sysrstCmd 0xC2) (s [] sec) ∧ keeps (.wdogKick 0x5B) (s [] sec) ∧
    runs (.wdogKick 0x5A) (s [] sec) (fun t => decide (t.pwr.wdogFrom = sec)) ∧
    runs .supRestartComplete { s [] sec with pwr := { base.pwr with supRuns := false, warm := true } } (fun t => decide (
      t.pwr.supRuns = true ∧ t.pwr.warm = false)) := by
  decide +kernel

theorem wit_sysrst :
    let s : State :=
      let u : State := { regs (atFrc base 77) [(.TMB_OFS, 5, 0), (.TMB_HOLD, 6, 0), (.TMB_ANC, 7, 0)] with ten := [(7, { svc := .in_ })] }
      { u with tb := { u.tb with sync := .locked } }
    let kept (b : Nat) (t : State) : Bool := decide (t.flag .SYS_RSTCAUSE b = true ∧ t.frc = 77 ∧ t.tb.sync = .holdover ∧ t.rg .TMB_OFS = 5 ∧
      t.rg .TMB_ANC = 7 ∧ t.rg .TMB_HOLD = (regInfo .TMB_HOLD).reset ∧ t.ten = [] ∧ t.boot.loaded = false ∧ t.pwr.on = 1 ∧ t.pwr.supRuns = false)
    runs .sysrstAssert s (fun t => kept 2 t && t.pwr.sysrst) ∧ runs (.sysrstCmd 0xC3) s (kept 3) ∧
    runs (.sysrstRelease ⟨1, 7⟩) { s with pwr := { s.pwr with sysrst := true } } (fun t => decide (t.pwr.sysrst = false ∧ t.rg .PAR_CFG = 1 ∧ t.pwr.smbAddr = 7)) := by
  decide +kernel

theorem wit_supplies :
    let off (waits : Bool) : State := { base with tb := { rtcValid := true, rtc := 32768 }, pwr := { main := false, phase1Waits := waits } }
    let s (vbat : Bool) : State := { atFrc base 77 with pwr := { base.pwr with vbat := vbat }, kvs := { vault := .ready }, ten := [(7, { svc := .in_ })] }
    runs (.powerOn 0 ⟨1, 0⟩ true true) (off false) (fun t => decide (t.pwr.main = true ∧ t.pwr.on = 1 ∧ t.pwr.phases = 1 ∧ t.rg .SYS_RSTCAUSE = 1 ∧
      t.rg .PAR_CFG = 1 ∧ t.rg .TMB_OFS = sec)) ∧
    runs (.powerOn 0 ⟨0, 0⟩ true false) (off false) (fun t => decide (t.pwr.main = false ∧ t.pwr.phase1Waits = true)) ∧
    runs .referenceRestored (off true) (fun t => decide (t.pwr.main = true ∧ t.pwr.phases = 1)) ∧
    runs .brownOut (s true) (fun t => decide (t.pwr.main = false ∧ t.frc = 0 ∧ t.ten = [])) ∧
    runs .brownOut (s false) (fun t => decide (t.tb.rtcValid = false ∧ t.kvs.vault = .none)) ∧
    runs .railFault (s true) (fun t => decide (t.pwr.main = false ∧ t.pwr.railFault = true)) ∧
    runs .supplyWarning (s true) (fun t => decide (t.flag .PWR_STAT 0 = true ∧ t.frc = 77)) ∧
    runs .warningClear ((s true).setRg .PWR_STAT 1) (fun t => decide (t.flag .PWR_STAT 0 = false)) ∧
    runs .vbatLoss (s true) (fun t => decide (t.flag .PWR_STAT 2 = true ∧ t.kvs.vault = .ready)) ∧
    runs .vbatLoss (off false) (fun t => decide (t.tb.rtcValid = false)) := by
  decide +kernel

theorem wit_domains :
    let s (on : Nat) (trans : Tbl (Option (DomainWork × Nat))) : State := { atFrc base 77 with
      pwr := { base.pwr with mask := 0xC7E7, on := on, trans := trans, pllStop := [(6, some 77)], pll := 0x7F } }
    runs (.domainOff 15) (s 0xFFFF []) (fun t => decide (t.pwr.on = 0x7FFF)) ∧ runs (.domainOff 14) (s 0xFFFF []) (fun t => decide (t.pwr.on = 0xBFFF)) ∧
    runs (.domainOn 14) (s 0xBFFF []) (fun t => decide (t.pwr.trans = [(14, some (.switchOn, 5000077))] ∧ t.pwr.on = 0xBFFF)) ∧
    runs (.domainReset 10) (s 0xFFFF []) (fun t => decide (t.pwr.trans = [(10, some (.reset, 5000077))])) ∧
    (s 0xFFFF []).quarterTenants 2 = [] ∧
    runs (.domainReset 7) (s 0xFFFF []) (fun t => decide (t.pwr.trans = [(7, some (.reset, 5000077))])) ∧
    runs (.domainReset 4) (s 0xFFFF []) (fun t => decide (t.flag .PWR_STAT 4 = true)) ∧
    runs (.domainOff 15) (s 0xFFFF [(14, some (.switchOn, 78))]) (fun t => decide (t.flag .PWR_STAT 4 = true ∧ t.pwr.on = 0xFFFF)) ∧
    runs (.domainOff 13) (s 0xFFFF []) (fun t => decide (t.flag .PWR_STAT 4 = true)) ∧
    runs (.domainTransitionDone 14) (s 0xBFFF [(14, some (.switchOn, 78))]) (fun t => decide (t.pwr.on = 0xFFFF ∧ t.pwr.trans = [])) ∧
    runs (.domainTransitionDone 10) (s 0xFFFF [(10, some (.reset, 78))]) (fun t => decide (t.pwr.on = 0xFFFF ∧ t.pwr.trans = [])) ∧
    runs (.pllStop 6) (s 0xFFFF []) (fun t => decide (t.pwr.pll = 0x3F)) := by
  decide +kernel

theorem wit_boot :
    let s (b : Boot) : State := { base with boot := b }
    let p1 : State := { base with pwr := { main := true, on := 1, pll := 1, phases := 1 } }
    let a : Bank := { firmware := true, fwDigest := 5 }
    runs (.supervisorPhase a {}) p1 (fun t => decide (t.pwr.supRuns = true ∧ t.pwr.rstOut = false ∧ t.pwr.phases = 3 ∧ t.boot.bank = 0 ∧
      t.boot.firmware = 5)) ∧
    runs (.supervisorPhase {} {}) p1 (fun t => decide (t.boot.recovery = true ∧ t.boot.failA = 11 ∧ t.boot.failB = 11)) ∧
    runs (.supervisorPhase {} a) p1 (fun t => decide (t.pwr.supRuns = true ∧ t.boot.trying = 1 ∧ t.boot.second = true ∧ t.boot.failA = 11)) ∧
    runs (.imageLoad a a) { base with pwr := { base.pwr with phases := 3 }, boot := {} } (fun t => decide (t.boot.recovery = true ∧
      t.boot.loaded = false ∧ t.boot.failA ≠ 0 ∧ t.boot.failB ≠ 0 ∧ t.boot.bank = 0 ∧ t.boot.fallback = false)) ∧
    runs .confirm (s { trial := true, bank := 1 }) (fun t => decide (t.boot.trial = false ∧ t.fld .SYS_BOOTCFG 0 0 = 1)) ∧
    runs .sealTimeout (s { holdSeal := some 0 }) (fun t => decide (t.boot.sealed = true ∧ t.boot.holdSeal = none)) ∧
    runs (.rollfloorWrite 4) ((s { loaded := true, imgVer := 4 }).setRg .SYS_ROLLFLOOR 3) (fun t => decide (t.rg .SYS_ROLLFLOOR = 4)) ∧
    runs (.rollfloorWrite 5) ((s { loaded := true, imgVer := 4 }).setRg .SYS_ROLLFLOOR 3) (fun t => decide (t.rg .SYS_ROLLFLOOR = 3 ∧ t.boot.err = 6)) ∧
    runs (.rollfloorWrite 2) ((s { loaded := true, imgVer := 4 }).setRg .SYS_ROLLFLOOR 3) (fun t => decide (t.rg .SYS_ROLLFLOOR = 3 ∧ t.boot.err = 6)) := by
  decide +kernel

/-- Two banks whose images fail the first check, in every state. -/
theorem wit_image_refused (x : State) : ∃ c, x.bankCheck { firmware := true } = .error c := by
  exact ⟨_, rfl⟩

theorem wit_startup :
    let s (opened : List Nat) (f : Nat) (rank : Nat) (svc : Svc) : State := { atFrc base f with
      ten := [(7, { cfg := some { rank := rank, link := 3 }, svc := svc, gen := 4 })], pwr := { base.pwr with rankOpen := opened, phase3End := some 0 } }
    (s [0] 5 0 .out).startLacks 7 { rank := 0, link := 3 } = 0 ∧ (s [0] 5 0 .out).isStarted 7 = false ∧
    keeps .rankOpen (s [0] (sec - 1) 0 .out) ∧
    runs .rankOpen (s [0] sec 0 .out) (fun t => decide (t.pwr.rankOpen = [0, sec])) ∧
    runs (.tenantAutostart 7) (s [0] 5 0 .out) (fun t => decide ((t.tenant 7).svc = .in_ ∧ (t.tenant 7).gen = 4 ∧ t.isStarted 7 = true)) ∧
    keeps (.tenantAutostart 7) (s [0] 5 1 .out) ∧
    keeps .startEnd (s [0] (60 * sec - 1) 0 .out) ∧
    runs .startEnd (s [0] (60 * sec) 0 .out) (fun t => decide (t.pwr.ended = true ∧ t.pwr.complete = false ∧ t.pwr.pend ≠ [])) ∧
    runs (.perstRelease 3) (s [0] 5 0 .out) (fun t => decide ((t.link 3).perst = true)) ∧
    runs (.hostLinkUp 3 4 3 9) { s [0] 5 0 .out with boot := {}, links := [(3, { perst := true })] } (fun t => decide ((t.link 3).up = true ∧
      (t.link 3).width = 4 ∧ (t.link 3).speed = 3 ∧ (t.link 3).vfen = 0)) ∧
    runs (.hostLinkUp 0 4 3 9) { s [0] 5 0 .out with boot := { recovery := true }, links := [(0, { perst := true })] } (fun t =>
      decide ((t.link 0).width = 2 ∧ (t.link 0).vfen = 0)) := by
  decide +kernel

theorem wit_smbus_and_jtag :
    let s (p : Power) : State := { base.setRg .SYS_RSTCAUSE 0x10002 with pwr := { p with phases := 1 } }
    runs (.smbusBlockRead 1) (s {}) (fun t => decide (t.pwr.smbData = [4, 2, 0, 1, 0])) ∧
    runs (.smbusBlockRead 16) (s {}) (fun t => decide (t.pwr.smbWords.length = 16)) ∧
    runs (.smbusBlockRead 31) (s { smbWords := List.replicate 16 0x01020304 }) (fun t => decide (t.pwr.smbData = [4, 4, 3, 2, 1])) ∧
    keeps (.smbusBlockRead 1) { s {} with pwr := {} } ∧
    runs (.smbusAlertResponse true) (s { smbAlert := true, smbAddr := 7 }) (fun t => decide (t.pwr.smbAlert = false ∧ t.pwr.smbData = [0x5F])) ∧
    runs (.jtagInstruction .extest) (s {}) (fun t => decide (t.pwr.jtag = .bypass)) ∧
    runs (.jtagInstruction .extest) (s { sysrst := true }) (fun t => decide (t.pwr.jtag = .extest)) ∧
    runs (.jtagInstruction .debug) ((s {}).setRg .ATT_LC 2) (fun t => decide (t.pwr.jtag = .bypass)) := by
  decide +kernel

end Sys2Proof.Tests
end

section
/-! SUPPORT. Amendments: a journal entry that a kind 0 commit takes out. -/
namespace Sys2Proof.Machine

/-- The n bytes of a number from offset o on, those that are zero left out. -/
def numBytes (o n v : Nat) : Bytes :=
  ((List.range n).map fun i => (o + i, BitVec.ofNat 8 (v / 256 ^ i))).filter fun (e : Nat × Byte) => decide (e.2 ≠ 0)

/-- The bytes of a kind 0 record for tenant 5 (Table 02-4) whose only section is a PROGRAMS section without references: the
tenant keeps no program. -/
def bareProgramsBytes : Bytes :=
  numBytes 0 4 0x444D4156 ++ numBytes 4 2 1 ++ numBytes 0x38 2 5 ++ numBytes 0x40 4 0x168 ++ numBytes 0x44 4 1 ++
    numBytes 0x48 4 0x100 ++ numBytes 0x80 2 0xF ++ numBytes 0x82 2 1 ++ numBytes 0x84 4 0xC0 ++ numBytes 0x88 4 16 ++
    numBytes 0x8C 4 (crc32c (List.replicate 16 0)) ++ numBytes 0x100 4 1

/-- That record, signed under root 7. -/
def bareProgramsRecord : AmdObj :=
  { obj := { bytes := bareProgramsBytes, sig := { root := some 7, ok := true, over_ := blist bareProgramsBytes 0 0x100 } } }

/-- A completed online change of the scheme program of tenant 5, as it stands in the journal. -/
def changeEntry : JrnlEntry :=
  { item := .change 5 { sig := {}, base := 1, prog := { digest := 2 }, progSig := {}, progTenant := 5 }, bytes := 1,
    complete := true }

/-- A module OWNED by root 7 whose tenant 5 is OUT with the program of that change, while slot 0 commits the record. -/
def changedThenAmended : State :=
  { State.reset with
    pwr := { State.reset.pwr with supRuns := true }
    plan := {
      ports := [{ role := 6 }], banks := [0, 1], domains := 0x20, tileOn := 1, tiles := [{ budgets := [100] }], nvf := [1]
      tens := [(5, some {})], pair := { port := 0, pairKey := 4, snapKey := 5 }
      keys := [(4, some ⟨2, 8, 0xFFFF⟩), (5, some ⟨3, 16, 0xFFFF⟩)] }
    att := { ownerRoot := some 7 }
    amd := [(0, { st := .committing, rec_ := some bareProgramsRecord, tenant := 5 })]
    ten := [(5, { cfg := some { sch := some { digest := 2 } } })]
    sch := { State.reset.sch with ten := [(5, { prog := some { digest := 2 } })] }
    jrnl := { entries := [changeEntry, { item := .amd bareProgramsRecord, bytes := 0x168 }] } }.setRg .ATT_LC 1

/-- The entries of the journal after a command. -/
def entriesAfter (i : Instr) (s : State) : List JrnlEntry :=
  match exec i s with
  | .next t => t.jrnl.entries
  | _ => []

theorem bareProgramsRecord_passes : ∃ a, changedThenAmended.amdCheck bareProgramsRecord = .ok a := by
  have hok : (changedThenAmended.amdCheck bareProgramsRecord).isOk = true := by decide +kernel
  cases h : changedThenAmended.amdCheck bareProgramsRecord with
  | ok a => exact ⟨a, rfl⟩
  | error c => rw [h] at hok; cases hok

/-- The kind 0 commit changes the tenant's scheme program, so the change entry leaves the journal (R272). -/
theorem commitDone_removes_changeEntry :
    entriesAfter (.commitDone 0) changedThenAmended =
      [{ item := .amd bareProgramsRecord, bytes := 0x168, complete := true }] := by
  decide +kernel

/-- Completing the record alone leaves the change entry in its place. -/
theorem jrnlEnd_keeps_changeEntry :
    changeEntry ∈ jrnlEnd bareProgramsRecord true changedThenAmended.jrnl.entries := by
  decide +kernel

/-- Refutes O7: a kind 0 commit that changes the tenant's scheme program removes its change entry from the journal (R272), while
the clause on a kind 0 completion has the record's entry complete and the journal otherwise as it was. Here the journal holds
an online change of tenant 5, and the record leaves the tenant without a program. -/
theorem not_amendmentsAreStagedAndCommitted : ¬ Obligations.AmendmentsAreStagedAndCommitted := by
  rintro ⟨-, -, -, hdone, -⟩
  obtain ⟨a, hpass⟩ := bareProgramsRecord_passes
  obtain ⟨hout, -⟩ := hdone 0 bareProgramsRecord changedThenAmended _ a rfl rfl rfl rfl rfl rfl hpass rfl
  obtain ⟨t, hexec, -, -, hentries⟩ := hout rfl
  have hafter : entriesAfter (.commitDone 0) changedThenAmended = t.jrnl.entries := by simp only [entriesAfter, hexec]
  have hmem : changeEntry ∈ entriesAfter (.commitDone 0) changedThenAmended := by
    rw [hafter, hentries]
    exact jrnlEnd_keeps_changeEntry
  rw [commitDone_removes_changeEntry] at hmem
  exact absurd hmem (by decide +kernel)

end Sys2Proof.Machine
end

section
/-! SUPPORT. Boot: what the supervisor phase, the image load and the seal leave. -/
namespace Sys2Proof.Machine

/-! The timebase and the boot phases under what an image load writes -/

/-- The timebase and the boot phases passed are as they were. -/
def TimePhasesKept (s t : State) : Prop := t.tb = s.tb ∧ t.pwr.phases = s.pwr.phases

namespace TimePhasesKept

theorem refl (s : State) : TimePhasesKept s s := ⟨rfl, rfl⟩

theorem trans {s t u : State} (h : TimePhasesKept s t) (g : TimePhasesKept t u) : TimePhasesKept s u :=
  ⟨g.1.trans h.1, g.2.trans h.2⟩

theorem foldl {β : Type} {f : State → β → State} (hf : ∀ s x, TimePhasesKept s (f s x)) (l : List β) (s : State) :
    TimePhasesKept s (l.foldl f s) :=
  foldl_rel TimePhasesKept refl (fun _ _ _ => trans) f hf l s

/-- A further change that is made under a condition. -/
theorem ite_then {c : Prop} [Decidable c] {s t u : State} (h : TimePhasesKept s t) (g : TimePhasesKept t u) :
    TimePhasesKept s (if c then u else t) := by
  split
  · exact h.trans g
  · exact h

theorem ite_else {c : Prop} [Decidable c] {s t u : State} (h : TimePhasesKept s t) (g : TimePhasesKept t u) :
    TimePhasesKept s (if c then t else u) := by
  split
  · exact h
  · exact h.trans g

/-! Updates of one component -/

theorem putShares (s : State) (p : Plan) : TimePhasesKept s (s.putShares p) := ⟨rfl, rfl⟩
theorem putScheme (s : State) (t : Nat) (p : Plan) (g : Option SchProg) : TimePhasesKept s (s.putScheme t p g) := ⟨rfl, rfl⟩
theorem setTenant (s : State) (t : Nat) (x : Tenant) : TimePhasesKept s (s.setTenant t x) := ⟨rfl, rfl⟩
theorem setSch (s : State) (t : Nat) (x : SchTen) : TimePhasesKept s (s.setSch t x) := ⟨rfl, rfl⟩
theorem setCap (s : State) (u : Nat) (c : CapUnit) : TimePhasesKept s (s.setCap u c) := ⟨rfl, rfl⟩
theorem setChain (s : State) (n : Nat) (x : FltChain) : TimePhasesKept s (s.setChain n x) := ⟨rfl, rfl⟩
theorem setPub (s : State) (i : Nat) (p : Pub) : TimePhasesKept s (s.setPub i p) := ⟨rfl, rfl⟩
theorem setSub (s : State) (i : Nat) (p : Sub) : TimePhasesKept s (s.setSub i p) := ⟨rfl, rfl⟩
theorem setSlot (s : State) (n : Nat) (k : KeySlot) : TimePhasesKept s (s.setSlot n k) := ⟨rfl, rfl⟩
theorem setFlag (s : State) (r : Reg) (b i j : Nat) : TimePhasesKept s (s.setFlag r b i j) := ⟨rfl, rfl⟩
theorem setRg (s : State) (r : Reg) (v i j : Nat) : TimePhasesKept s (s.setRg r v i j) := ⟨rfl, rfl⟩
theorem setVault (s : State) (v : Vault) : TimePhasesKept s { s with kvs := v } := ⟨rfl, rfl⟩
theorem setStructure (s : State) (m : Tbl (Option (Nat × Nat))) (p : Plan) (v : Sesame) (f : Filter) :
    TimePhasesKept s { s with slots := m, plan := p, svx := v, flt := f } := ⟨rfl, rfl⟩

/-! A structure is configured -/

theorem putPort (s : State) (n : Nat) (e : PortEntry) : TimePhasesKept s (s.putPort n e) :=
  ((setRg _ _ _ _ _).trans (setRg _ _ _ _ _)).trans (setRg _ _ _ _ _)

theorem putTiles (s : State) (p : Plan) : TimePhasesKept s (s.putTiles p) := by
  have hgroups := foldl (fun s g => setRg s .ELA_GRPCFG (p.groups.getD g 0 / 128 * 2 ^ 31 + p.groups.getD g 0 % 4) g 0)
    (List.range 4) s
  refine hgroups.trans (foldl (fun s t => ?_) (List.range 128) _)
  dsimp only
  split <;> exact setRg _ _ _ _ _

theorem putThyme (s : State) (l : List ThyEntry) : TimePhasesKept s (s.putThyme l) := by
  unfold State.putThyme
  exact foldl (fun _ _ => setRg _ _ _ _ _) _ _

theorem putLoop (s : State) (e : LoopEntry) : TimePhasesKept s (s.putLoop e) := by
  unfold State.putLoop
  dsimp only
  refine .trans ?_ ((setRg _ .LOP_DET e.det _ _).trans (setRg _ .LOP_HOLD e.holdn _ _))
  refine .trans ?_ (foldl (fun s w => setRg s .LOP_COEF (e.coef.getD w 0) e.loop w) (List.range 14) _)
  exact ((((setRg _ _ _ _ _).trans (setRg _ _ _ _ _)).trans (setRg _ _ _ _ _)).trans (setRg _ _ _ _ _)).trans (setRg _ _ _ _ _)

theorem putLoops (s : State) (p : Plan) : TimePhasesKept s (s.putLoops p) := by
  have hloops := foldl putLoop p.loops
  have hgains := foldl (fun s (e : Nat × Nat) => setRg s .LOP_GAIN e.2 (e.1 / 256) (e.1 % 256)) p.gains
  have h := ((setRg s .LOP_CFG (p.loops.length * 2 ^ 16 + p.loopRate) 0 0).trans (hloops _)).trans (hgains _)
  exact h.trans ⟨rfl, rfl⟩

theorem configure (s : State) (p : Plan) (g : Programs) : TimePhasesKept s (s.configure p g) := by
  have hports := foldl (fun s (e : PortEntry × Nat) => putPort s e.2 e.1) p.ports.zipIdx s
  have htables := fun s => (((putTiles s p).trans (putThyme _ p.thyme)).trans (putShares _ p)).trans (putLoops _ p)
  have htens := foldl (f := fun s (e : Nat × TenantCfg) => s.putTenant e.1 (some e.2) (g.get e.1))
    (fun _ _ => setTenant _ _ _) (enabledOf p.tens)
  have hschemes := foldl (f := fun s (e : SchEntry) => s.putScheme e.tenant p (g.get e.tenant).2)
    (fun _ _ => setSch _ _ _) p.schemes
  have h := ((hports.trans (htables _)).trans (htens _)).trans (hschemes _)
  exact h.trans ⟨rfl, rfl⟩

/-! An amendment is applied -/

theorem amendTenant (s : State) (a : Amendment) : TimePhasesKept s (s.amendTenant a) := by
  unfold State.amendTenant
  by_cases hnew : a.newProgs = true
  · simp only [hnew, if_true]
    split <;> exact ⟨rfl, rfl⟩
  · simp only [hnew]
    exact ⟨rfl, rfl⟩

theorem regionFree (s : State) (n : Nat) : TimePhasesKept s (s.regionFree n) := by
  unfold State.regionFree
  dsimp only
  split <;> exact ⟨rfl, rfl⟩

theorem redepth (s : State) (n old new_ : Nat) : TimePhasesKept s (s.redepth n old new_) := by
  unfold State.redepth
  split <;> exact ⟨rfl, rfl⟩

theorem capComplete (s : State) (u : Nat) (f : CapRecord → CapRecord) : TimePhasesKept s (s.capComplete u f) := by
  rw [(capComplete_spec s u f).1]
  exact ⟨rfl, rfl⟩

theorem capDisarmUnit (s : State) (u : Nat) : TimePhasesKept s (s.capDisarmUnit u) := by
  unfold State.capDisarmUnit
  dsimp only
  split
  · exact (capComplete _ _ _).trans (setCap _ _ _)
  · exact setCap _ _ _

theorem amendStream (old new_ : Plan) (s : State) (n : Nat) : TimePhasesKept s (State.amendStream old new_ s n) := by
  unfold State.amendStream
  dsimp only
  split
  · refine trans (trans ?_ (regionFree _ n)) (foldl (fun s u => ?_) _ _)
    · exact ⟨rfl, rfl⟩
    · split
      · exact capDisarmUnit s u
      · exact refl s
  · split
    · exact ⟨rfl, rfl⟩
    · split
      · refine trans ?_ (setChain _ n _)
        split
        · exact redepth s n _ _
        · exact refl s
      · split
        · exact redepth s n _ _
        · exact refl s

theorem invalidateSlot (s : State) (n : Nat) : TimePhasesKept s (s.invalidateSlot n) := by
  unfold State.invalidateSlot applyIf
  dsimp only
  refine trans (trans ?_ (setVault _ _)) (setSlot _ n _)
  split
  · exact trans (foldl (fun _ _ => setSlot _ _ _) _ s) (setFlag _ _ _ _ _)
  · exact foldl (fun _ _ => setSlot _ _ _) _ s

theorem amendKeys (s : State) (p : Plan) : TimePhasesKept s (s.amendKeys p) := by
  have h := foldl invalidateSlot (((enabledOf s.kvs.attrs).map fun (e : Nat × KeyAttr) => e.1).filter fun n =>
    (Tbl.get none p.keys n).isNone) s
  exact h.trans ⟨rfl, rfl⟩

theorem amendPubs (s : State) (t : Nat) (l : List PubCfg) : TimePhasesKept s (s.amendPubs t l) := by
  unfold State.amendPubs
  refine .trans (foldl (fun _ _ => setPub _ _ _) _ s) (foldl (fun s d => ?_) l _)
  split <;> exact setPub _ _ _

theorem amendSubs (s : State) (t : Nat) (l : List SubCfg) : TimePhasesKept s (s.amendSubs t l) := by
  unfold State.amendSubs
  exact ((foldl (fun _ _ => setSub _ _ _) _ s).trans (foldl (fun _ _ => setSub _ _ _) _ _)).trans
    (foldl (fun _ _ => setSub _ _ _) _ _)

theorem amendApply (s : State) (a : Amendment) : TimePhasesKept s (s.amendApply a) := by
  unfold State.amendApply
  dsimp only
  refine ite_else ?_ (trans (amendPubs _ _ _) (amendSubs _ _ _))
  refine trans (trans (trans (trans ?_ (foldl (amendStream _ _) _ _)) (putShares _ _)) (putThyme _ _)) (amendKeys _ _)
  exact trans (amendTenant s a) (setStructure _ _ _ _ _)

/-! The journal is replayed -/

theorem amendCount (s : State) (t : Nat) (d : Digest) : TimePhasesKept s (s.amendCount t d) := ⟨rfl, rfl⟩

theorem extendRun (s : State) (d : Digest) : TimePhasesKept s (s.extendRun d) := ⟨rfl, rfl⟩

theorem replayEntry (s : State) (e : JrnlEntry) {u : State} (h : s.replayEntry e = some u) : TimePhasesKept s u := by
  unfold State.replayEntry at h
  split at h
  · split at h
    · cases h
      exact (amendApply _ _).trans (amendCount _ _ _)
    · cases h
  · split at h
    · split at h
      · cases h
        exact ((setTenant _ _ _).trans (putScheme _ _ _ _)).trans (extendRun _ _)
      · cases h
    · cases h

theorem replayAll (l : List JrnlEntry) (n : Nat) (s : State) : TimePhasesKept s (State.replayAll l n s).1 := by
  induction l generalizing n s with
  | nil => exact refl s
  | cons e rest ih =>
    unfold State.replayAll
    split
    next u hu => exact ((replayEntry s e hu).trans ⟨rfl, rfl⟩).trans (ih _ _)
    next => exact refl s

theorem fire (s : State) (src arg : Nat) : TimePhasesKept s (s.fire src arg) := by
  rw [(fire_frame s src arg).1]
  exact ⟨rfl, rfl⟩

theorem almond (s : State) (k : Nat) : TimePhasesKept s (s.almond k) := ⟨rfl, rfl⟩

theorem replay (s : State) : TimePhasesKept s s.replay := by
  have hall := replayAll (s.jrnl.entries.filter fun (e : JrnlEntry) => e.complete) 0 s
  unfold State.replay
  extract_lets l
  change TimePhasesKept s (State.replayAll l 0 s).1 at hall
  generalize State.replayAll l 0 s = r at hall ⊢
  obtain ⟨u, n, ok⟩ := r
  cases ok
  · refine trans (trans ?_ (fire _ 38 n)) (almond _ 30)
    exact hall.trans ⟨rfl, rfl⟩
  · exact hall.trans ⟨rfl, rfl⟩

/-! An image is applied -/

theorem applyImage (s : State) (m : ImageObj) (p : Plan) (g : Programs) : TimePhasesKept s (s.applyImage m p g) :=
  (configure s p g).trans ⟨rfl, rfl⟩

theorem setOn (s : State) (on : Nat) : TimePhasesKept s (s.setOn on) := ⟨rfl, rfl⟩

theorem refStart (s : State) : TimePhasesKept s s.refStart := by
  unfold State.refStart
  split <;> exact ⟨rfl, rfl⟩

end TimePhasesKept

/-- An image that is applied ends the image phase at the present FRC count, and rank 0 opens. -/
theorem imageApplied_pwr (s : State) (x : Bank) (p : Plan × Programs) :
    (s.imageApplied x p).pwr.phases = setBit s.pwr.phases 2 ∧ (s.imageApplied x p).pwr.phase3End = some s.frc ∧
    (s.imageApplied x p).pwr.rankOpen = [s.frc] := by
  unfold State.imageApplied
  extract_lets boot s1 s2 s3 s4 s5
  have h1 : TimePhasesKept s s1 := ⟨rfl, rfl⟩
  have h2 : TimePhasesKept s1 s2 := ((TimePhasesKept.applyImage s1 _ _ _).trans (.setOn _ _)).trans (.refStart _)
  have h3 : TimePhasesKept s2 s3 := .ite_then (.refl s2) (.almond s2 14)
  have h5 : TimePhasesKept s4 s5 := .ite_then (.refl s4) ⟨rfl, rfl⟩
  obtain ⟨htb, hph⟩ : TimePhasesKept s s5 := (((h1.trans h2).trans h3).trans (.replay s3)).trans h5
  refine ⟨congrArg (setBit · 2) hph, ?_, ?_⟩ <;> simp only [State.frc, htb]

/-! Boot -/

theorem lcErase_boot_pwr (s : State) (dst : Nat) : (s.lcErase dst).boot = s.boot ∧ (s.lcErase dst).pwr = s.pwr := by
  simp [State.lcErase, State.vaultFinish, State.eraseSlots, State.almond, apply_ite State.boot, apply_ite State.pwr]

theorem lcErased_boot_pwr (s : State) : s.lcErased.boot = s.boot ∧ s.lcErased.pwr = s.pwr := by
  unfold State.lcErased
  split
  · exact lcErase_boot_pwr s _
  · exact ⟨rfl, rfl⟩

section Selection
variable {a b : Bank} {s : State} (hpref : s.flag .SYS_BOOTCFG 0 = false) (htry : s.flag .SYS_BOOTCFG 1 = false)
include hpref htry

/-- With PREF and TRY 0 bank A comes first (R41). -/
theorem bankSelect_first (ha : a.firmware = true) :
    (s.bankSelect a b).boot = { s.boot with trying := 0, second := false, trial := false, firmware := a.fwDigest } ∧
    (s.bankSelect a b).pwr = s.pwr := by
  simp [State.bankSelect, State.firmwareBoot, State.clrFlag, hpref, htry, ha, b2n]

theorem bankSelect_second (ha : a.firmware = false) (hb : b.firmware = true) :
    (s.bankSelect a b).boot = { s.boot with
      failA := 0x0B, err := 0x0B, trying := 1, second := true, trial := false, firmware := b.fwDigest } ∧
    (s.bankSelect a b).pwr = s.pwr := by
  simp [State.bankSelect, State.firmwareBoot, State.bankFail, State.clrFlag, hpref, htry, ha, hb, b2n]

theorem bankSelect_none (ha : a.firmware = false) (hb : b.firmware = false) :
    (s.bankSelect a b).boot = { s.boot with failA := 0x0B, failB := 0x0B, err := 0x0B, recovery := true, trial := false } ∧
    (s.bankSelect a b).pwr = s.pwr := by
  simp [State.bankSelect, State.firmwareBoot, State.bankFail, State.clrFlag, State.enterRecovery, State.almond, hpref, htry, ha, hb,
    b2n]

end Selection

/-- The supervisor phase leaves the boot state that the bank selection made; the firmware runs, RSTOUT_N is released. -/
theorem supervisorPhase_runs {a b : Bank} {s : State} (hmain : s.pwr.main = true) (hrst : s.pwr.sysrst = false)
    (hph : s.pwr.phases = 1) {x : Boot} (hsel : (s.bankSelect a b).boot = x ∧ (s.bankSelect a b).pwr = s.pwr) :
    Runs (.supervisorPhase a b) s fun t =>
      t.boot = x ∧ t.pwr.supRuns = true ∧ t.pwr.rstOut = false ∧ t.pwr.phases = 3 := by
  obtain ⟨hboot, hpwr⟩ := hsel
  have hgo : (s.pwr.main && !s.pwr.sysrst && bit s.pwr.phases 0 && !bit s.pwr.phases 1) = true := by
    rw [hmain, hrst, hph]; decide
  obtain ⟨hkept, hkeptPwr⟩ := lcErased_boot_pwr (s.bankSelect a b).identityLoad
  refine runs_done (if_pos hgo) ⟨hkept.trans hboot, rfl, rfl, ?_⟩
  have hphases : (s.bankSelect a b).identityLoad.lcErased.pwr.phases = 1 := by
    rw [hkeptPwr]
    exact (congrArg Power.phases hpwr).trans hph
  exact congrArg (setBit · 1) hphases

/-- After the supervisor phase the image phase is due, outside recovery and with the firmware running. -/
theorem imagePhase_due {s : State} (hph : s.pwr.phases = 3) (hrec : s.boot.recovery = false) (hsup : s.pwr.supRuns = true) :
    (bit s.pwr.phases 1 && !bit s.pwr.phases 2 && !s.boot.recovery && s.pwr.supRuns) = true := by
  rw [hph, hrec, hsup]; decide

/-- Both images fail their checks: recovery, with each bank's code (R43). -/
theorem imageLoad_fails {a b : Bank} {s : State} {c d : Nat} (hph : s.pwr.phases = 3) (hrec : s.boot.recovery = false)
    (hsup : s.pwr.supRuns = true) (htrying : s.boot.trying = 0) (hsecond : s.boot.second = false) (hfw : b.firmware = true)
    (ha : s.bankCheck a = .error c) (hb : ∀ x : State, x.bankCheck b = .error d) :
    exec (.imageLoad a b) s = done ((s.bankFail 0 c).bankFail 1 d).enterRecovery := by
  refine (if_pos (imagePhase_due hph hrec hsup)).trans ?_
  simp [State.bankImage, State.firmwareBoot, State.bankFail, htrying, hsecond, hfw, ha, hb]

/-- The first image tried passes its checks. -/
theorem imageLoad_applies {a b : Bank} {s : State} {p : Plan × Programs} (hph : s.pwr.phases = 3) (hrec : s.boot.recovery = false)
    (hsup : s.pwr.supRuns = true) (htrying : s.boot.trying = 0) (ha : s.bankCheck a = .ok p) :
    exec (.imageLoad a b) s = done (s.imageApplied a p) := by
  refine (if_pos (imagePhase_due hph hrec hsup)).trans ?_
  simp [State.bankImage, htrying, ha]

/-- The lowest bit of a register after a field write of it. -/
theorem fld_setFld_lowest (s : State) (r : Reg) {v : Nat} (i j : Nat) (hv : v < 2) :
    (s.setFld r 0 0 v i j).fld r 0 0 i j = v := by
  simp only [State.fld, State.setFld, rg_setRg_same, bits, setBits]
  omega

theorem confirm_runs {s : State} (htrial : s.boot.trial = true) (hbank : s.boot.bank < 2) :
    Runs .confirm s fun t => t.boot.trial = false ∧ t.fld .SYS_BOOTCFG 0 0 = s.boot.bank :=
  runs_done (if_pos htrial) ⟨rfl, fld_setFld_lowest s .SYS_BOOTCFG 0 0 hbank⟩

/-- Settles O54: every clause holds. That an image which is applied keeps the FRC and the phases passed is the long part: what a
structure, its amendments and the journal replay write is elsewhere (`TimePhasesKept`). -/
theorem bootSelectsBanksAndSeals : Obligations.BootSelectsBanksAndSeals := by
  refine ⟨fun a b s hmain hrst hph hpref htry => ⟨fun ha => ?_, fun ha hb => ?_, fun ha hb => ?_⟩, ?_, ?_, ?_, ?_, ?_, ?_, ?_⟩
  · obtain ⟨t, ht, hboot, hsup, hout, hph3⟩ := supervisorPhase_runs hmain hrst hph (bankSelect_first (b := b) hpref htry ha)
    exact ⟨t, ht, by simp [hboot, hsup, hout, hph3]⟩
  · obtain ⟨t, ht, hboot, hsup, -⟩ := supervisorPhase_runs hmain hrst hph (bankSelect_second hpref htry ha hb)
    exact ⟨t, ht, by simp [hboot, hsup]⟩
  · obtain ⟨t, ht, hboot, -⟩ := supervisorPhase_runs hmain hrst hph (bankSelect_none hpref htry ha hb)
    exact ⟨t, ht, by simp [hboot]⟩
  · intro a b s c d hph hrec hsup hloaded htrying hsecond hfw ha hb
    exact runs_done (imageLoad_fails hph hrec hsup htrying hsecond hfw ha hb) ⟨rfl, hloaded, rfl, rfl, rfl, rfl⟩
  · intro a b s p hph hrec hsup htrying ha
    obtain ⟨hphases, hend, hrank⟩ := imageApplied_pwr s a p
    refine runs_done (imageLoad_applies hph hrec hsup htrying ha) ⟨?_, hend, hrank⟩
    rw [hphases, hph]
    decide
  · exact fun s htrial hbank => confirm_runs htrial hbank
  · exact fun s => rfl
  · intro s f hhold hdue
    have hexec : exec .sealTimeout s = done s.seal := by
      show execSealTimeout s = _
      simp [execSealTimeout, hhold, hdue]
    exact runs_done hexec ⟨rfl, rfl⟩
  · intro v s hloaded hlo hhi hv
    have hok : (s.boot.loaded && decide (s.rg .SYS_ROLLFLOOR ≤ v ∧ v ≤ s.boot.imgVer)) = true := by simp [hloaded, hlo, hhi]
    exact runs_done (if_pos hok) ⟨(rg_setRg_same _ _ _ _ _).trans (Nat.mod_eq_of_lt hv), rfl⟩
  · intro v s hv
    have hbad : ¬ (s.boot.loaded && decide (s.rg .SYS_ROLLFLOOR ≤ v ∧ v ≤ s.boot.imgVer)) = true := fun h => by
      have hin := of_decide_eq_true (Bool.and_eq_true_iff.mp h).2
      omega
    exact runs_done (if_neg hbad) ⟨rfl, rfl⟩

end Sys2Proof.Machine
end
